-- ==== Sys2Proof/Word.lean ====
section
/-! DEFINITION. The word types of the CX512 block and the one update of a fixed-size bank. -/

namespace Sys2Proof

/-- One byte. -/
abbrev Byte := BitVec 8
/-- A register word (R3: every register is 32 bits wide). -/
abbrev Word := BitVec 32
/-- A string of bytes, lowest address first. -/
abbrev Bytes := List Byte

/-- Member `i` of a bank of `n` like things replaced by what `f` makes of it. -/
def modify {α : Type} {n : Nat} (v : Vector α n) (i : Fin n) (f : α → α) : Vector α n :=
  v.set i (f v[i])

theorem modify_getElem {α : Type} {n : Nat} (v : Vector α n) (i : Fin n) (f : α → α) (j : Nat)
    (h : j < n) : (modify v i f)[j] = if i.val = j then f v[j] else v[j] := by
  by_cases e : i.val = j
  · subst e; simp [modify]
  · simp [modify, Vector.getElem_set, e]

@[simp] theorem modify_same {α : Type} {n : Nat} (v : Vector α n) (i : Fin n) (f : α → α) :
    (modify v i f)[i.val] = f v[i.val] := by
  simp [modify_getElem]

theorem modify_ne {α : Type} {n : Nat} (v : Vector α n) (i j : Fin n) (f : α → α) (h : i ≠ j) :
    (modify v i f)[j.val] = v[j.val] := by
  have : i.val ≠ j.val := fun e => h (Fin.ext e)
  simp [modify_getElem, this]

end Sys2Proof
end

