-- ==== Sys2Proof/Machine/Units/Common.lean ====
section
/-! DEFINITION. Types shared by every unit: a W1C flag with its REPEAT count (R6), a counter pair
(R179), a Treor request as the link delivers it (R189, R190) and a link block (R158). -/

namespace Sys2Proof.Machine

/-- A W1C flag and its 4-bit REPEAT companion (R6). -/
structure Flag where
  set : Bool := false
  rep : BitVec 4 := 0
  deriving DecidableEq, Repr

/-- A counter pair register: two saturating 16-bit counts (R179, Table 07-11). -/
structure Pair where
  hi : BitVec 16 := 0
  lo : BitVec 16 := 0
  deriving DecidableEq, Repr

/-- A request message as the link delivers it: `wire` is the class of the blocks that carried it,
the other fields are those of the header of Table 08-1 (LENGTH is 16 and the body's length; the
opcode is the command's own row). -/
structure Req where
  wire : BitVec 2 := 3
  major : Byte := 2
  cls : BitVec 2 := 3
  rsp : Bool := false
  evt : Bool := false
  rsvd : BitVec 4 := 0
  kind : BitVec 2 := 0
  index : BitVec 14 := 0
  epoch : BitVec 16 := 0
  tag : Word := 0
  status : BitVec 16 := 0
  body : Bytes := []
  deriving DecidableEq, Repr

/-- A link block: the 64-bit header of Table 06-4 and the payload (256 bytes on the wire). -/
structure LinkBlock where
  hdr : BitVec 64 := 0
  payload : Bytes := []
  deriving DecidableEq, Repr

/-- The symbols that a receive lane has taken one after another, and the running disparity before them (R152). -/
structure LaneSyms where
  rd : Bool := false
  syms : List (BitVec 10) := []
  deriving DecidableEq, Repr

/-- The two Treor link ports (R151). -/
inductive LinkSide where
  | u | d
  deriving DecidableEq, Repr

end Sys2Proof.Machine
end

