-- ==== Sys2Proof/Machine/Units/Bay.lean ====
section
/-! DEFINITION. Bay, the sealed metrology partition, and its bridge (R399 to R434). -/

namespace Sys2Proof.Machine

/-- Seal states, coded 0, 1, 2 (Table 17-10, FLAGS). -/
inductive SealState where
  | unsealed | sealed | broken
  deriving DecidableEq, Repr

/-- The configuration entry of a meter port (R410). -/
structure MeterCfg where
  mode : BitVec 4 := 0
  opt : BitVec 4 := 0
  filt : Byte := 0
  rate : BitVec 16 := 0
  deriving DecidableEq, Repr

/-- A meter port (R409, R411, R412). -/
structure Meter where
  cfg : MeterCfg := {}
  total : BitVec 64 := 0
  /-- The value of the port's previous TOTAL record (R413). -/
  prevTotal : BitVec 64 := 0
  /-- Filtered levels of MPnn_A and MPnn_B. -/
  a : Bool := false
  b : Bool := false
  rx : Bytes := []
  tx : Bytes := []
  ovr : Flag := {}
  ferr : Flag := {}
  qerr : Flag := {}
  gate : Flag := {}
  /-- Counting in the gate that runs, and the latched count of the last one. -/
  gateRun : Word := 0
  gateCount : Word := 0
  /-- RTC at the stop bit of the last byte received (Table 17-10, TIME). -/
  lastRx : Option (BitVec 48 × BitVec 16) := none
  deriving DecidableEq, Repr

/-- A record waiting for the signer (R418): everything but REC, EVT, LINK and SIG. -/
structure BayWaitRec where
  type : Byte
  time : BitVec 48
  subs : BitVec 16
  port : Byte
  flags : Byte
  body : Bytes
  ticket : Option Word := none
  /-- A TIME_STEP or FW_RESTART record that stood for others (R418). -/
  count : Nat := 1
  /-- The INSPECT record whose completion answers the ACK in progress. -/
  ack : Bool := false
  deriving DecidableEq, Repr

/-- A counter bank (Table 17-11b): totalisers, RTC, kind (0 snapshot, 1 periodic). -/
structure BayBank where
  seq : Nat := 0
  totals : List (BitVec 64) := []
  rtc : BitVec 48 := 0
  kind : Nat := 0
  deriving DecidableEq, Repr

/-- The bridge requests of Table 17-11. -/
inductive Bop where
  | summary | identity | read | confirm | nonce | seal | stage | configCommit | fwCommit | app | ack
  deriving DecidableEq, Repr

/-- A request Bay has taken (R432): `host` tells a Treor request from one of the supervisor. -/
structure BayReq where
  bop : Bop
  chan : Fin 4 := 0
  args : Bytes := []
  host : Bool := true
  /-- Taken by Bay: the SUMMARY record, the firmware's answer or the INSPECT record is awaited. -/
  taken : Bool := false
  deriving DecidableEq, Repr

/-- The Bay firmware on the Bay core (R405 to R408). -/
structure BayFw where
  running : Bool := false
  /-- The restart 100 ms after a stop is due (R408). -/
  restartDue : Bool := false
  /-- RTC seconds of the restarts counted against 8 in one hour. -/
  restarts : List (BitVec 48) := []
  regs : Vector Word 31 := Vector.replicate 31 0
  pc : Word := 0
  /-- Data window: canonical sparse bytes over offsets 0 to 0x17FFF. -/
  data : List Host.Cell := []
  waiting : Option (BitVec 4 × Word) := none
  /-- Issued tickets, oldest first: the ticket and the REC of its record once done (R407). -/
  tickets : List (Word × Option (BitVec 48)) := []
  nextTicket : Word := 0
  /-- An application message waiting for APP_RECV. -/
  message : Option Bytes := none
  deriving DecidableEq, Repr

/-- The pending seal change (R424): its target and the first 16 bytes of the request's hash. -/
structure SealPend where
  target : SealState
  digest : Bytes
  deriving DecidableEq, Repr

/-- Bay. Fields down to `acks` are in the Bay store. -/
structure Bay where
  /-- Committed configuration object and committed firmware images A and B. -/
  config : Option Bytes := none
  fwA : Bytes := []
  fwB : Bytes := []
  /-- FWSEL: the committed image area. -/
  fwSel : Option Bool := none
  sealSt : SealState := .unsealed
  sealPend : Option SealPend := none
  /-- MARK: CONFIRMED and EVT. -/
  confirmed : BitVec 48 := 0
  mark : Word := 0
  bankA : Option BayBank := none
  bankB : Option BayBank := none
  /-- The log ring: committed records, oldest first. -/
  ring : List Bytes := []
  acks : List Bytes := []
  refreshPage : BitVec 12 := 0
  /-- Bay is out of reset; held since its own power detector tripped (R403). -/
  running : Bool := false
  holding : Bool := false
  /-- Recall done (R402): the bridge may start. -/
  recalled : Bool := false
  meters : Vector Meter 64 := Vector.replicate 64 {}
  evt : Word := 0
  queue : List BayWaitRec := []
  /-- A SUMMARY of Bay's own account is to be signed (R433). -/
  sumDue : Bool := false
  /-- The seal nonce last issued (R424), single-use. -/
  nonce : Option Bytes := none
  rngOk : Bool := true
  stage0 : List (Nat × Bytes) := []
  stage1 : List (Nat × Bytes) := []
  /-- BAY_SEAL_N is low, as last filtered. -/
  pinLow : Bool := false
  lastReset : BitVec 48 := 0
  lastSealTime : BitVec 48 := 0
  lastSealRec : BitVec 48 := 0
  fw : BayFw := {}
  clock : Bool := false
  /-- Bridge (R431, R432): 0 not started, 1 running, 2 no common version, 3 Bay absent. -/
  bridge : BitVec 2 := 0
  reqs : List BayReq := []
  /-- Records offered to the bridge and not yet arrived at the supervisor. -/
  offered : List Bytes := []
  /-- The supervisor's view (R434). -/
  seenSeal : BitVec 2 := 3
  seenPend : Option (BitVec 2) := none
  seenRec : BitVec 48 := 0
  seenConfirmed : BitVec 48 := 0
  seenEvt : Word := 0
  seenFw : Word := 0
  seenCfg : Word := 0
  /-- Records received and not yet forwarded to the host (R202). -/
  queuedHost : List (BitVec 16 × Bytes) := []
  /-- The first bridge start since the main-side reset is still to come (R425). -/
  firstBridge : Bool := true
  deriving DecidableEq, Repr

end Sys2Proof.Machine
end

