-- ==== Sys2Proof/Machine/Units/Bqt.lean ====
section
/-! DEFINITION. Bouquet membership, envelopes and migration (R480 to R494). -/

namespace Sys2Proof.Machine

/-- The MEMBERSHIP record (Table 20-3). -/
structure Membership where
  bqtId : Word
  member : BitVec 14
  auth : Bytes
  cert : Bytes
  deriving DecidableEq, Repr

/-- A pairwise cache entry (R488): peer, hash of its certificate, K_P and age in seconds. Most recently used first. -/
structure PairEntry where
  peer : BitVec 14
  certHash : Bytes
  key : Bytes
  age : Nat := 0
  deriving DecidableEq, Repr

/-- Replay state of one sender (R486): highest SEQ accepted, map of the 64 below it. -/
structure Replay where
  peer : BitVec 14
  top : BitVec 64
  map : BitVec 64 := 0
  deriving DecidableEq, Repr

/-- An export record (R489). -/
structure Export where
  mid : BitVec 64
  dst : BitVec 14
  dslot : Byte
  depoch : BitVec 16
  digest : Bytes
  force : Bool := false
  /-- The device left the bouquet on its own revocation: SLOT_REMOVE is the only exit (R484). -/
  stuck : Bool := false
  deriving DecidableEq, Repr

/-- A staged import (R491): the parts staged with their item bytes, in order of PART. -/
structure Import where
  mid : BitVec 64
  src : BitVec 14
  srcSlot : Byte := 0
  parts : Nat := 0
  /-- MANIFEST of part 0 once checked. -/
  manifest : Option Bytes := none
  staged : List (Nat × Bytes) := []
  /-- Parts before part 0, held in supervisor SRAM (at most 64). -/
  early : List (Nat × Bytes) := []
  /-- Old and new handle of each key staged. -/
  handles : List (Word × Word) := []
  /-- A failure sent REFUSE: later parts of this MID are discarded. -/
  failed : Bool := false
  deriving DecidableEq, Repr

/-- A committed import (R492): the CONFIRM sent, and whether it has begun upstream. -/
structure Imported where
  mid : BitVec 64
  dst : BitVec 14
  body : Bytes
  begun : Bool := false
  /-- RTC second of the last sending. -/
  sentAt : BitVec 48 := 0
  deriving DecidableEq, Repr

/-- Bouquet state. Fields down to `imported` are records of the main store. -/
structure Bqt where
  member : Option Membership := none
  be : Word := 0
  bitmap : Bytes := List.replicate 2048 0
  /-- SENDSEQ reservation (R485), and the last SEQ taken. -/
  seqRes : BitVec 64 := 0
  seq : BitVec 64 := 0
  exports : Vector (Option Export) 128 := Vector.replicate 128 none
  imports : Vector (Option Import) 128 := Vector.replicate 128 none
  imported : Vector (Option Imported) 128 := Vector.replicate 128 none
  cache : List PairEntry := []
  replay : List Replay := []
  /-- Envelopes held back until the host accepts ENV_OUT: class, destination, bytes (R202). -/
  held : List (BitVec 2 × BitVec 14 × Bytes) := []
  /-- RTC seconds at the last main-side reset (R486). -/
  resetRtc : BitVec 48 := 0
  deriving DecidableEq, Repr

end Sys2Proof.Machine
end

