-- ==== Sys2Proof/Machine/Operands.lean ====
section
/-! DEFINITION. Operand forms: little-endian fields in byte strings (R10), the cyclic checks, and sparse
memories in one canonical form. -/

namespace Sys2Proof.Machine

/-! ### Byte strings -/

/-- `n` bytes of `v`, least significant first (R10). -/
def leN : Nat → Nat → Bytes
  | 0, _ => []
  | n + 1, v => BitVec.ofNat 8 v :: leN n (v / 256)

/-- `n` bytes of `v`, most significant first. -/
def beN (n v : Nat) : Bytes := (leN n v).reverse

/-- The number that a little-endian byte string spells. -/
def leVal : Bytes → Nat
  | [] => 0
  | b :: r => b.toNat + 256 * leVal r

/-- The number that a big-endian byte string spells. -/
def beVal (b : Bytes) : Nat := leVal b.reverse

/-- `len` bytes of `b` from `off`; shorter where `b` ends. -/
def slice (b : Bytes) (off len : Nat) : Bytes := (b.drop off).take len

/-- The little-endian field of `n` bytes at `off`; bytes past the end count as 0. -/
def fld (b : Bytes) (off n : Nat) : Nat := leVal (slice b off n)

/-- The byte at `off`, 0 past the end. -/
def byteAt (b : Bytes) (off : Nat) : Byte := b.getD off 0

/-- `n` zero bytes. -/
def zeros (n : Nat) : Bytes := List.replicate n 0

/-- Exactly `n` bytes: cut, or filled with zeros. -/
def padTo (n : Nat) (b : Bytes) : Bytes := (b ++ zeros n).take n

/-- The code of an ASCII character. -/
def ascii (t : String) : Bytes := t.toList.map fun c => BitVec.ofNat 8 c.toNat

/-- Every byte is zero. -/
def allZero (b : Bytes) : Bool := b.all (· == 0)

/-- Bits [hi:lo] of `v`. -/
def bitsOf (v hi lo : Nat) : Nat := v / 2 ^ lo % 2 ^ (hi + 1 - lo)

/-- `b` as 0 or 1. -/
def b2n (b : Bool) : Nat := if b then 1 else 0

/-- A staged area built of pieces: byte `i` is that of the newest piece which covers it, 0 where none does. -/
def pieceByte (ps : List (Nat × Bytes)) (i : Nat) : Byte :=
  match ps with
  | [] => 0
  | (o, b) :: r => if o ≤ i && i < o + b.length then byteAt b (i - o) else pieceByte r i

/-- The first `n` bytes of a staged area. -/
def pieceBytes (ps : List (Nat × Bytes)) (n : Nat) : Bytes := (List.range n).map (pieceByte ps)

/-- A 16-bit count that saturates (R179). -/
def sat16 (v : BitVec 16) (n : Nat := 1) : BitVec 16 :=
  if v.toNat + n < 65536 then BitVec.ofNat 16 (v.toNat + n) else 0xFFFF

/-- An 8-bit count that saturates. -/
def sat8 (v : BitVec 8) (n : Nat := 1) : BitVec 8 :=
  if v.toNat + n < 256 then BitVec.ofNat 8 (v.toNat + n) else 0xFF

/-- The epoch after `e` (R18): 0x0000 is never issued. -/
def nextEpoch (e : BitVec 16) : BitVec 16 := if e = 0xFFFF then 1 else e + 1

/-- `f x`, with `x` brought to a numeral first where it is computed step by step. -/
def strict {α : Type} (x : Nat) (f : Nat → α) : α :=
  match x with
  | 0 => f 0
  | n + 1 => f (n + 1)

@[simp] theorem strict_eq {α : Type} (x : Nat) (f : Nat → α) : strict x f = f x := by cases x <;> rfl

/-! ### Cyclic checks -/

/-- `n` bits of a reflected CRC register, held as a number. -/
def crcBits (poly : Nat) : Nat → Nat → Nat
  | 0, c => c
  | n + 1, c => crcBits poly n (if c % 2 = 1 then (c / 2) ^^^ poly else c / 2)

/-- The register after a byte string. -/
def crcRun (poly : Nat) : Bytes → Nat → Nat
  | [], c => c
  | b :: r, c => strict (crcBits poly 8 (c ^^^ b.toNat)) fun c => crcRun poly r c

/-- CRC-32C (R159): polynomial 0x1EDC6F41 reflected, initial value and final XOR 0xFFFF_FFFF. -/
def crc32c (b : Bytes) : BitVec 32 := BitVec.ofNat 32 (crcRun 0x82F63B78 b 0xFFFFFFFF) ^^^ 0xFFFFFFFF

/-- One byte, most significant bit first, into a CRC-16 register of polynomial 0x1021. -/
def crc16Byte (c : BitVec 16) (b : Byte) : BitVec 16 :=
  let f (c : BitVec 16) : BitVec 16 := if c.getLsbD 15 then (c <<< 1) ^^^ 0x1021 else c <<< 1
  f (f (f (f (f (f (f (f (c ^^^ (b.setWidth 16 <<< 8)))))))))

/-- One byte, least significant bit first, into a CRC register of polynomial 0x8408 (ISO/IEC 13239). -/
def crcCardByte (c : BitVec 16) (b : Byte) : BitVec 16 :=
  let f (c : BitVec 16) : BitVec 16 := if c.getLsbD 0 then (c >>> 1) ^^^ 0x8408 else c >>> 1
  f (f (f (f (f (f (f (f (c ^^^ b.setWidth 16))))))))

/-- CRC_A of ISO/IEC 14443-3 (log 5), least significant byte first. -/
def crcA (b : Bytes) : Bytes := leN 2 (b.foldl crcCardByte 0x6363).toNat

/-- CRC_B of ISO/IEC 14443-3, and the CRC of ISO/IEC 15693 (log 5). -/
def crcB (b : Bytes) : Bytes := leN 2 ((b.foldl crcCardByte 0xFFFF) ^^^ 0xFFFF).toNat

/-! ### Sparse memories: strictly rising addresses, no byte equal to what an unlisted address reads as -/

namespace Memory

/-- What an unlisted address reads as (log 4). -/
def blank : Byte := 0

/-- The canonical form above address `lo`. -/
def wfFrom : Nat → List Host.Cell → Bool
  | _, [] => true
  | lo, (a, b) :: r => decide (lo ≤ a) && (b != blank) && wfFrom (a + 1) r

/-- The canonical form. -/
def wf (m : List Host.Cell) : Bool := wfFrom 0 m

/-- The byte at an address. -/
def read (m : List Host.Cell) (a : Nat) : Byte :=
  match m with
  | [] => blank
  | (x, b) :: r => if x = a then b else read r a

/-- One byte written. -/
def write (m : List Host.Cell) (a : Nat) (v : Byte) : List Host.Cell :=
  match m with
  | [] => if v = blank then [] else [(a, v)]
  | (x, b) :: r =>
    if x < a then (x, b) :: write r a v
    else if x = a then (if v = blank then r else (a, v) :: r)
    else if v = blank then (x, b) :: r else (a, v) :: (x, b) :: r

/-- Bytes written from `a` on. -/
def writeN (m : List Host.Cell) (a : Nat) : Bytes → List Host.Cell
  | [] => m
  | v :: vs => writeN (write m a v) (a + 1) vs

/-- `n` bytes read from `a` on. -/
def readN (m : List Host.Cell) (a : Nat) : Nat → Bytes
  | 0 => []
  | n + 1 => read m a :: readN m (a + 1) n

/-- A memory that holds `b` from `a` on and nothing else. -/
def ofBytes (a : Nat) : Bytes → List Host.Cell
  | [] => []
  | v :: vs => if v = blank then ofBytes (a + 1) vs else (a, v) :: ofBytes (a + 1) vs

end Memory

end Sys2Proof.Machine
end

