-- ==== Sys2Proof/Machine/Digest.lean ====
section
/-! DEFINITION. SHA-2 (FIPS 180-4), SHA3-256 (FIPS 202) and HMAC (FIPS 198-1), as R322 names them (log 8). -/

namespace Sys2Proof.Machine

/-- A byte string cut into pieces of `n`, at most `f` of them. -/
def chunks (n : Nat) : Nat → Bytes → List Bytes
  | 0, _ => []
  | f + 1, b => if b = [] then [] else b.take n :: chunks n f (b.drop n)

/-! ### SHA-2 -/

/-- The constants of SHA-512; those of SHA-256 are the upper halves of the first 64. -/
def shaK : List Nat :=
  [0x428A2F98D728AE22, 0x7137449123EF65CD, 0xB5C0FBCFEC4D3B2F, 0xE9B5DBA58189DBBC,
   0x3956C25BF348B538, 0x59F111F1B605D019, 0x923F82A4AF194F9B, 0xAB1C5ED5DA6D8118,
   0xD807AA98A3030242, 0x12835B0145706FBE, 0x243185BE4EE4B28C, 0x550C7DC3D5FFB4E2,
   0x72BE5D74F27B896F, 0x80DEB1FE3B1696B1, 0x9BDC06A725C71235, 0xC19BF174CF692694] ++
  [0xE49B69C19EF14AD2, 0xEFBE4786384F25E3, 0x0FC19DC68B8CD5B5, 0x240CA1CC77AC9C65,
   0x2DE92C6F592B0275, 0x4A7484AA6EA6E483, 0x5CB0A9DCBD41FBD4, 0x76F988DA831153B5,
   0x983E5152EE66DFAB, 0xA831C66D2DB43210, 0xB00327C898FB213F, 0xBF597FC7BEEF0EE4,
   0xC6E00BF33DA88FC2, 0xD5A79147930AA725, 0x06CA6351E003826F, 0x142929670A0E6E70] ++
  [0x27B70A8546D22FFC, 0x2E1B21385C26C926, 0x4D2C6DFC5AC42AED, 0x53380D139D95B3DF,
   0x650A73548BAF63DE, 0x766A0ABB3C77B2A8, 0x81C2C92E47EDAEE6, 0x92722C851482353B,
   0xA2BFE8A14CF10364, 0xA81A664BBC423001, 0xC24B8B70D0F89791, 0xC76C51A30654BE30,
   0xD192E819D6EF5218, 0xD69906245565A910, 0xF40E35855771202A, 0x106AA07032BBD1B8] ++
  [0x19A4C116B8D2D0C8, 0x1E376C085141AB53, 0x2748774CDF8EEB99, 0x34B0BCB5E19B48A8,
   0x391C0CB3C5C95A63, 0x4ED8AA4AE3418ACB, 0x5B9CCA4F7763E373, 0x682E6FF3D6B2B8A3,
   0x748F82EE5DEFB2FC, 0x78A5636F43172F60, 0x84C87814A1F0AB72, 0x8CC702081A6439EC,
   0x90BEFFFA23631E28, 0xA4506CEBDE82BDE9, 0xBEF9A3F7B2C67915, 0xC67178F2E372532B] ++
  [0xCA273ECEEA26619C, 0xD186B8C721C0C207, 0xEADA7DD6CDE0EB1E, 0xF57D4F7FEE6ED178,
   0x06F067AA72176FBA, 0x0A637DC5A2C898A6, 0x113F9804BEF90DAE, 0x1B710B35131C471B,
   0x28DB77F523047D84, 0x32CAAB7B40C72493, 0x3C9EBE0A15C9BEBC, 0x431D67C49C100D4C,
   0x4CC5D4BECB3E42B6, 0x597F299CFC657E2A, 0x5FCB6FAB3AD6FAEC, 0x6C44198C4A475817]

/-- The initial hash value of SHA-512; that of SHA-256 is the upper halves. -/
def shaH512 : List Nat :=
  [0x6A09E667F3BCC908, 0xBB67AE8584CAA73B, 0x3C6EF372FE94F82B, 0xA54FF53A5F1D36F1,
   0x510E527FADE682D1, 0x9B05688C2B3E6C1F, 0x1F83D9ABFB41BD6B, 0x5BE0CD19137E2179]

/-- The initial hash value of SHA-384. -/
def shaH384 : List Nat :=
  [0xCBBB9D5DC1059ED8, 0x629A292A367CD507, 0x9159015A3070DD17, 0x152FECD8F70E5939,
   0x67332667FFC00B31, 0x8EB44A8768581511, 0xDB0C2E0D64F98FA7, 0x47B5481DBEFA4FA4]

/-- A right rotation of a word of `w` bits. -/
def rotr (w n x : Nat) : Nat := ((x >>> n) ||| (x <<< (w - n))) % 2 ^ w

/-- What sets SHA-256 and SHA-512 apart: word width, and the rotations of Σ0, Σ1, σ0 and σ1 (the last of each σ is a shift). -/
structure Sha2 where
  w : Nat
  a0 : Nat
  a1 : Nat
  a2 : Nat
  e0 : Nat
  e1 : Nat
  e2 : Nat
  s0 : Nat
  s1 : Nat
  s2 : Nat
  t0 : Nat
  t1 : Nat
  t2 : Nat

/-- SHA-256. -/
def sha2Short : Sha2 := ⟨32, 2, 13, 22, 6, 11, 25, 7, 18, 3, 17, 19, 10⟩
/-- SHA-384 and SHA-512. -/
def sha2Long : Sha2 := ⟨64, 28, 34, 39, 14, 18, 41, 1, 8, 7, 19, 61, 6⟩

/-- The eight working variables. -/
structure Sha2Regs where
  a : Nat
  b : Nat
  c : Nat
  d : Nat
  e : Nat
  f : Nat
  g : Nat
  h : Nat

/-- The rounds of one block, over the constants and a window of 16 words of the message schedule. -/
def sha2Rounds (p : Sha2) : List Nat → List Nat → Sha2Regs → Sha2Regs
  | [], _, r => r
  | k :: ks, win, r =>
    let w := win.getD 0 0
    let m := 2 ^ p.w
    let ch := (r.e &&& r.f) ^^^ ((m - 1 - r.e) &&& r.g)
    let maj := (r.a &&& r.b) ^^^ (r.a &&& r.c) ^^^ (r.b &&& r.c)
    let x := win.getD 1 0
    let y := win.getD 14 0
    strict (r.h + (rotr p.w p.e0 r.e ^^^ rotr p.w p.e1 r.e ^^^ rotr p.w p.e2 r.e) + ch + k + w) fun u =>
    strict ((u + (rotr p.w p.a0 r.a ^^^ rotr p.w p.a1 r.a ^^^ rotr p.w p.a2 r.a) + maj) % m) fun a =>
    strict ((r.d + u) % m) fun e =>
    strict ((w + (rotr p.w p.s0 x ^^^ rotr p.w p.s1 x ^^^ (x >>> p.s2)) + win.getD 9 0 +
      (rotr p.w p.t0 y ^^^ rotr p.w p.t1 y ^^^ (y >>> p.t2))) % m) fun v =>
    sha2Rounds p ks (win.tail ++ [v]) ⟨a, r.a, r.b, r.c, e, r.e, r.f, r.g⟩

/-- One block into the hash value. -/
def sha2Block (p : Sha2) (k : List Nat) (h : List Nat) (b : Bytes) : List Nat :=
  let win := (chunks (p.w / 8) 16 b).map beVal
  let r := sha2Rounds p k win ⟨h.getD 0 0, h.getD 1 0, h.getD 2 0, h.getD 3 0, h.getD 4 0, h.getD 5 0, h.getD 6 0, h.getD 7 0⟩
  let add (n x : Nat) : Nat := (h.getD n 0 + x) % 2 ^ p.w
  [add 0 r.a, add 1 r.b, add 2 r.c, add 3 r.d, add 4 r.e, add 5 r.f, add 6 r.g, add 7 r.h]

/-- The message with its padding: 0x80, zeros, and its length in bits in the last two words. -/
def sha2Pad (p : Sha2) (b : Bytes) : Bytes :=
  let n := 2 * p.w
  let m := p.w / 4
  b ++ [0x80] ++ zeros ((2 * n - 1 - m - b.length % n) % n) ++ beN m (8 * b.length)

/-- The words of the hash value after the whole message. -/
def sha2 (p : Sha2) (k h : List Nat) (b : Bytes) : List Nat :=
  let m := sha2Pad p b
  (chunks (2 * p.w) m.length m).foldl (sha2Block p k) h

/-- A number from words of `w` bits, the first word highest. -/
def joinWords (w : Nat) (l : List Nat) : Nat := l.foldl (fun n x => n * 2 ^ w + x) 0

/-- SHA-256, as a number of 256 bits, most significant byte first. -/
def sha256 (b : Bytes) : Nat :=
  joinWords 32 (sha2 sha2Short ((shaK.take 64).map (· >>> 32)) (shaH512.map (· >>> 32)) b)
/-- SHA-512. -/
def sha512 (b : Bytes) : Nat := joinWords 64 (sha2 sha2Long shaK shaH512 b)
/-- SHA-384. -/
def sha384 (b : Bytes) : Nat := joinWords 64 ((sha2 sha2Long shaK shaH384 b).take 6)

/-! ### SHA3-256 -/

/-- The rotation of each lane, x + 5y (FIPS 202, 3.2.2). -/
def keccakRot : List Nat :=
  [0, 1, 62, 28, 27, 36, 44, 6, 55, 20, 3, 10, 43, 25, 39, 41, 45, 15, 21, 8, 18, 2, 61, 56, 14]

/-- The round constants. -/
def keccakRc : List Nat :=
  [0x0000000000000001, 0x0000000000008082, 0x800000000000808A, 0x8000000080008000, 0x000000000000808B, 0x0000000080000001,
   0x8000000080008081, 0x8000000000008009, 0x000000000000008A, 0x0000000000000088, 0x0000000080008009, 0x000000008000000A] ++
  [0x000000008000808B, 0x800000000000008B, 0x8000000000008089, 0x8000000000008003, 0x8000000000008002, 0x8000000000000080,
   0x000000000000800A, 0x800000008000000A, 0x8000000080008081, 0x8000000000008080, 0x0000000080000001, 0x8000000080008008]

/-- A left rotation of a lane. -/
def rotl64 (n x : Nat) : Nat := rotr 64 ((64 - n) % 64) x

/-- One round on the 25 lanes (θ, ρ, π, χ, ι). -/
def keccakRound (a : List Nat) (rc : Nat) : List Nat :=
  let at_ (l : List Nat) (n : Nat) : Nat := l.getD n 0
  let c := (List.range 5).map fun x => at_ a x ^^^ at_ a (x + 5) ^^^ at_ a (x + 10) ^^^ at_ a (x + 15) ^^^ at_ a (x + 20)
  let d := (List.range 5).map fun x => at_ c ((x + 4) % 5) ^^^ rotl64 1 (at_ c ((x + 1) % 5))
  let t := (List.range 25).map fun n => rotl64 (at_ keccakRot n) (at_ a n ^^^ at_ d (n % 5))
  let b := (List.range 25).map fun n => at_ t ((n % 5 + 3 * (n / 5)) % 5 + 5 * (n % 5))
  (List.range 25).map fun n =>
    let y := n / 5 * 5
    let v := at_ b n ^^^ ((2 ^ 64 - 1 - at_ b (y + (n + 1 - y) % 5)) &&& at_ b (y + (n + 2 - y) % 5))
    if n = 0 then v ^^^ rc else v

/-- SHA3-256, most significant byte first. -/
def sha3 (b : Bytes) : Nat :=
  let fill := 136 - b.length % 136
  let m := if fill = 1 then b ++ [0x86] else b ++ [0x06] ++ zeros (fill - 2) ++ [0x80]
  let a := (chunks 136 m.length m).foldl (fun a c =>
    let ws := (chunks 8 17 c).map leVal
    keccakRc.foldl keccakRound ((List.range 25).map fun n => a.getD n 0 ^^^ ws.getD n 0)) (List.replicate 25 0)
  beVal ((a.take 4).flatMap (leN 8))

/-! ### The codes of Table 13-3 -/

/-- Digest length of a hash code: 1 SHA-256, 2 SHA-384, 3 SHA-512, 4 SHA3-256. -/
def digestLen (h : Nat) : Nat := if h = 2 then 48 else if h = 3 then 64 else 32
/-- Its block length. -/
def hashBlock (h : Nat) : Nat := if h = 2 then 128 else if h = 3 then 128 else if h = 4 then 136 else 64

/-- The digest of a code. -/
def digest (h : Nat) (b : Bytes) : Bytes :=
  beN (digestLen h) (if h = 2 then sha384 b else if h = 3 then sha512 b else if h = 4 then sha3 b else sha256 b)

/-- HMAC over the hash of a code. -/
def hmac (h : Nat) (key data : Bytes) : Bytes :=
  let k := padTo (hashBlock h) (if hashBlock h < key.length then digest h key else key)
  digest h (k.map (· ^^^ 0x5C) ++ digest h (k.map (· ^^^ 0x36) ++ data))

end Sys2Proof.Machine
end

