-- ==== Sys2Proof/Machine/Block.lean ====
section
/-! DEFINITION. AES (FIPS 197), DES and TDEA, and the modes built on them: CMAC (SP 800-38B), MAC algorithm 3 of
ISO/IEC 9797-1, GCM (SP 800-38D), CCM (SP 800-38C) and AES-KWP (SP 800-38F), as R289 and R300 name them (log 8). -/

namespace Sys2Proof.Machine

/-- XOR of two byte strings. -/
def xorBytes (a b : Bytes) : Bytes := (a.zip b).map fun (x, y) => x ^^^ y

/-! ### AES -/

/-- The substitution table: a row of 16 entries for each high half of a byte, the first entry first. -/
def aesBox : List Nat :=
  [0x637c777bf26b6fc53001672bfed7ab76, 0xca82c97dfa5947f0add4a2af9ca472c0, 0xb7fd9326363ff7cc34a5e5f171d83115,
   0x04c723c31896059a071280e2eb27b275, 0x09832c1a1b6e5aa0523bd6b329e32f84, 0x53d100ed20fcb15b6acbbe394a4c58cf,
   0xd0efaafb434d338545f9027f503c9fa8, 0x51a3408f929d38f5bcb6da2110fff3d2, 0xcd0c13ec5f974417c4a77e3d645d1973,
   0x60814fdc222a908846eeb814de5e0bdb, 0xe0323a0a4906245cc2d3ac629195e479, 0xe7c8376d8dd54ea96c56f4ea657aae08,
   0xba78252e1ca6b4c6e8dd741f4bbd8b8a, 0x703eb5664803f60e613557b986c11d9e, 0xe1f8981169d98e949b1e87e9ce5528df,
   0x8ca1890dbfe6426841992d0fb054bb16]

/-- The inverse table. -/
def aesUnbox : List Nat :=
  [0x52096ad53036a538bf40a39e81f3d7fb, 0x7ce339829b2fff87348e4344c4dee9cb, 0x547b9432a6c2233dee4c950b42fac34e,
   0x082ea16628d924b2765ba2496d8bd125, 0x72f8f66486689816d4a45ccc5d65b692, 0x6c704850fdedb9da5e154657a78d9d84,
   0x90d8ab008cbcd30af7e45805b8b34506, 0xd02c1e8fca3f0f02c1afbd0301138a6b, 0x3a9111414f67dcea97f2cfcef0b4e673,
   0x96ac7422e7ad3585e2f937e81c75df6e, 0x47f11a711d29c5896fb7620eaa18be1b, 0xfc563e4bc6d279209adbc0fe78cd5af4,
   0x1fdda8338807c731b11210592780ec5f, 0x60517fa919b54a0d2de57a9f93c99cef, 0xa0e03b4dae2af5b0c8ebbb3c83539961,
   0x172b047eba77d626e169146355210c7d]

/-- A byte through a table. -/
def through (t : List Nat) (x : Nat) : Nat := (t.getD (x / 16) 0 / 256 ^ (15 - x % 16)) % 256

/-- Times x in the field of AES. -/
def xtime (x : Nat) : Nat := (2 * x) ^^^ (2 * x / 256 * 0x11B)

/-- A byte times a coefficient of the two polynomials, in the field of AES. -/
def mulBy (n x : Nat) : Nat :=
  match n with
  | 1 => x
  | 2 => xtime x
  | 3 => xtime x ^^^ x
  | 9 => xtime (xtime (xtime x)) ^^^ x
  | 11 => xtime (xtime (xtime x) ^^^ x) ^^^ x
  | 13 => xtime (xtime (xtime x ^^^ x)) ^^^ x
  | _ => xtime (xtime (xtime x ^^^ x) ^^^ x)

/-- Each byte of a word of 32 bits through the table. -/
def aesSubWord (w : Nat) : Nat :=
  through aesBox (w / 16777216) * 16777216 + through aesBox (w / 65536 % 256) * 65536 + through aesBox (w / 256 % 256) * 256 +
    through aesBox (w % 256)

/-- The words of the key schedule, newest first: `f` words more, from word number `i` on, with `nk` words of key. -/
def aesExpand (nk : Nat) : Nat → Nat → Nat → List Nat → List Nat
  | 0, _, _, ws => ws
  | f + 1, i, rc, ws =>
    let t := ws.headD 0
    let x := if i % nk = 0 then aesSubWord (t % 16777216 * 256 + t / 16777216) ^^^ (rc * 16777216)
      else if 6 < nk ∧ i % nk = 4 then aesSubWord t else t
    strict (ws.getD (nk - 1) 0 ^^^ x) fun w => aesExpand nk f (i + 1) (if i % nk = 0 then xtime rc else rc) (w :: ws)

/-- The round keys of a key, in order, as numbers of 128 bits. -/
def aesKeys (key : Bytes) : List Nat :=
  let nk := key.length / 4
  let ws := (aesExpand nk (3 * nk + 28) nk 1 (((chunks 4 nk key).map beVal).reverse)).reverse
  (List.range (nk + 7)).map fun r => ((ws.drop (4 * r)).take 4).foldl (fun a w => a * 4294967296 + w) 0

/-- Byte `n` of a block. -/
def blockByte (s n : Nat) : Nat := s / 256 ^ (15 - n) % 256
/-- A block of its bytes. -/
def blockOf (f : Nat → Nat) : Nat := (List.range 16).foldl (fun a n => a * 256 + f n) 0

/-- The bytes through the table, and row `r` of the state moved `r` places, in encryption or decryption. -/
def subShift (dec : Bool) (s : Nat) : Nat :=
  blockOf fun n => through (if dec then aesUnbox else aesBox) (blockByte s ((n + (if dec then 16 - 4 * (n % 4) else 4 * (n % 4))) % 16))

/-- The columns multiplied by the polynomial with the coefficients given. -/
def mixColumns (m0 m1 m2 m3 s : Nat) : Nat :=
  blockOf fun n =>
    let c := n / 4 * 4
    let b (j : Nat) : Nat := blockByte s (c + (n + j) % 4)
    mulBy m0 (b 0) ^^^ mulBy m1 (b 1) ^^^ mulBy m2 (b 2) ^^^ mulBy m3 (b 3)

/-- The rounds of encryption after the first round key; the last mixes no columns. -/
def aesRounds : List Nat → Nat → Nat
  | [], s => s
  | [k], s => subShift false s ^^^ k
  | k :: ks, s => strict (subShift false s) fun s => strict (mixColumns 2 3 1 1 s ^^^ k) fun s => aesRounds ks s

/-- The rounds of decryption, over the round keys in reverse. -/
def aesUnrounds : List Nat → Nat → Nat
  | [], s => s
  | [k], s => subShift true s ^^^ k
  | k :: ks, s => strict (subShift true s ^^^ k) fun s => strict (mixColumns 14 11 13 9 s) fun s => aesUnrounds ks s

/-- One block under given round keys. -/
def aesUnder (ks : List Nat) (dec : Bool) (b : Bytes) : Bytes :=
  beN 16 (match (if dec then ks.reverse else ks) with
    | [] => beVal b
    | k :: r => strict (beVal b ^^^ k) fun s => if dec then aesUnrounds r s else aesRounds r s)

/-! ### DES -/

/-- Bits of a number of `w` bits, numbered from 1 at the most significant end, gathered in the order of a table. -/
def permute (w : Nat) (t : List Nat) (x : Nat) : Nat := t.foldl (fun a i => a * 2 + x / 2 ^ (w - i) % 2) 0

/-- The initial permutation. -/
def desIp : List Nat :=
  [58, 50, 42, 34, 26, 18, 10, 2, 60, 52, 44, 36, 28, 20, 12, 4,
   62, 54, 46, 38, 30, 22, 14, 6, 64, 56, 48, 40, 32, 24, 16, 8,
   57, 49, 41, 33, 25, 17, 9, 1, 59, 51, 43, 35, 27, 19, 11, 3,
   61, 53, 45, 37, 29, 21, 13, 5, 63, 55, 47, 39, 31, 23, 15, 7]
/-- Its inverse. -/
def desFp : List Nat :=
  [40, 8, 48, 16, 56, 24, 64, 32, 39, 7, 47, 15, 55, 23, 63, 31,
   38, 6, 46, 14, 54, 22, 62, 30, 37, 5, 45, 13, 53, 21, 61, 29,
   36, 4, 44, 12, 52, 20, 60, 28, 35, 3, 43, 11, 51, 19, 59, 27,
   34, 2, 42, 10, 50, 18, 58, 26, 33, 1, 41, 9, 49, 17, 57, 25]
/-- The expansion E. -/
def desE : List Nat :=
  [32, 1, 2, 3, 4, 5, 4, 5, 6, 7, 8, 9, 8, 9, 10, 11,
   12, 13, 12, 13, 14, 15, 16, 17, 16, 17, 18, 19, 20, 21, 20, 21,
   22, 23, 24, 25, 24, 25, 26, 27, 28, 29, 28, 29, 30, 31, 32, 1]
/-- The permutation P. -/
def desP : List Nat :=
  [16, 7, 20, 21, 29, 12, 28, 17, 1, 15, 23, 26, 5, 18, 31, 10,
   2, 8, 24, 14, 32, 27, 3, 9, 19, 13, 30, 6, 22, 11, 4, 25]
/-- Permuted choice 1. -/
def desPc1 : List Nat :=
  [57, 49, 41, 33, 25, 17, 9, 1, 58, 50, 42, 34, 26, 18, 10, 2,
   59, 51, 43, 35, 27, 19, 11, 3, 60, 52, 44, 36, 63, 55, 47, 39,
   31, 23, 15, 7, 62, 54, 46, 38, 30, 22, 14, 6, 61, 53, 45, 37,
   29, 21, 13, 5, 28, 20, 12, 4]
/-- Permuted choice 2. -/
def desPc2 : List Nat :=
  [14, 17, 11, 24, 1, 5, 3, 28, 15, 6, 21, 10, 23, 19, 12, 4,
   26, 8, 16, 7, 27, 20, 13, 2, 41, 52, 31, 37, 47, 55, 30, 40,
   51, 45, 33, 48, 44, 49, 39, 56, 34, 53, 46, 42, 50, 36, 29, 32]
/-- The selection functions S1 to S8, row by row, a digit each. -/
def desS : List Nat :=
  [0xE4D12FB83A6C59070F74E2D1A6CB953841E8D62BFC973A50FC8249175B3EA06D,
   0xF18E6B34972DC05A3D47F28EC01A69B50E7BA4D158C6932FD8A13F42B67C05E9,
   0xA09E63F51DC7B428D709346A285ECBF1D6498F30B12C5AE71AD069874FE3B52C,
   0x7DE3069A1285BC4FD8B56F03472C1AE9A690CB7DF13E52843F06A1D8945BC72E,
   0x2C417AB6853FD0E9EB2C47D150FA3986421BAD78F9C5630EB8C71E2D6F09A453,
   0xC1AF92680D34E75BAF427C9561DE0B389EF528C3704A1DB6432C95FABE17608D,
   0x4B2EF08D3C975A61D0B7491AE35C2F8614BDC37EAF6805926BD814A7950FE23C,
   0xD2846FB1A93E50C71FD8A374C56B0E927B419CE206ADF35821E74A8DFC90356B]

/-- The round keys: the halves C and D rotate by the amounts of the list. -/
def desKeys : List Nat → Nat → Nat → List Nat
  | [], _, _ => []
  | n :: r, c, d =>
    let rot (x : Nat) : Nat := (x * 2 ^ n + x / 2 ^ (28 - n)) % 2 ^ 28
    permute 56 desPc2 (rot c * 2 ^ 28 + rot d) :: desKeys r (rot c) (rot d)

/-- The function f of a round. -/
def desF (r k : Nat) : Nat :=
  let x := permute 32 desE r ^^^ k
  let v := desS.zipIdx.foldl (fun a (t, i) =>
    let six := x / 2 ^ (42 - 6 * i) % 64
    let row := six / 32 * 2 + six % 2
    let pos := row * 16 + six / 2 % 16
    a * 16 + t / 16 ^ (63 - pos) % 16) 0
  permute 32 desP v

/-- The rounds; the halves are exchanged at the end. -/
def desRounds : List Nat → Nat → Nat → Nat
  | [], l, r => r * 2 ^ 32 + l
  | k :: ks, l, r => strict (l ^^^ desF r k) fun v => desRounds ks r v

/-- DES: a key and a block of 64 bits. -/
def des (dec : Bool) (key x : Nat) : Nat :=
  let cd := permute 64 desPc1 key
  let ks := desKeys [1, 1, 2, 2, 2, 2, 2, 2, 1, 2, 2, 2, 2, 2, 2, 1] (cd / 2 ^ 28) (cd % 2 ^ 28)
  let v := permute 64 desIp x
  permute 64 desFp (desRounds (if dec then ks.reverse else ks) (v / 2 ^ 32) (v % 2 ^ 32))

/-- TDEA with a key of two or three parts. -/
def tdea (dec : Bool) (key : Bytes) (b : Bytes) : Bytes :=
  let k1 := beVal (key.take 8)
  let k2 := beVal (slice key 8 8)
  let k3 := if key.length = 16 then k1 else beVal (slice key 16 8)
  beN 8 (if dec then des true k1 (des false k2 (des true k3 (beVal b))) else des false k3 (des true k2 (des false k1 (beVal b))))

/-- The block cipher of a key class: 1 AES, 2 TDEA. -/
def cipherOf (cls : Nat) (key : Bytes) (dec : Bool) : Bytes → Bytes :=
  if cls = 2 then tdea dec key
  else
    let ks := aesKeys key
    fun b => padTo 16 (aesUnder ks dec (padTo 16 b))

/-! ### Modes -/

/-- CBC-MAC of whole blocks. -/
def cbcMac (e : Bytes → Bytes) (v : Bytes) (bs : List Bytes) : Bytes := bs.foldl (fun v b => e (xorBytes v b)) v

/-- Doubling in the field of a block of `n` bytes (SP 800-38B). -/
def doubled (n : Nat) (b : Bytes) : Bytes :=
  let x := 2 * beVal b
  let m := 2 ^ (8 * n)
  beN n (if m ≤ x then (x % m) ^^^ (if n = 8 then 0x1B else 0x87) else x)

/-- CMAC with AES (1) or TDEA (2). -/
def cmac (cls : Nat) (key data : Bytes) : Bytes :=
  let n := if cls = 2 then 8 else 16
  let e := cipherOf cls key false
  let k1 := doubled n (e (zeros n))
  let k2 := doubled n k1
  let bs := chunks n data.length data
  let last := bs.getLastD []
  e (xorBytes (cbcMac e (zeros n) bs.dropLast) (if last.length = n then xorBytes last k1 else xorBytes (padTo n (last ++ [0x80])) k2))

/-- MAC algorithm 3 of ISO/IEC 9797-1, with its padding method 1 or 2. -/
def mac3 (pad : Nat) (key data : Bytes) : Bytes :=
  let k1 := beVal (key.take 8)
  let k2 := beVal (slice key 8 8)
  let d := if pad = 2 then data ++ [0x80] else if data = [] then zeros 8 else data
  let bs := (chunks 8 d.length d).map (padTo 8)
  let h := cbcMac (fun b => beN 8 (des false k1 (beVal b))) (zeros 8) bs
  beN 8 (des false k1 (des true k2 (beVal h)))

/-- A product in the field of GCM, over the bits of `x`: bit 0 is the most significant. -/
def gmul : Nat → Nat → Nat → Nat → Nat
  | 0, _, _, z => z
  | f + 1, x, v, z =>
    strict (if x.testBit f then z ^^^ v else z) fun z =>
    strict (if v % 2 = 1 then (v / 2) ^^^ (0xE1 * 2 ^ 120) else v / 2) fun v => gmul f x v z

/-- GHASH of whole blocks under the subkey `h`. -/
def ghash (h : Nat) (bs : List Bytes) : Nat := bs.foldl (fun y b => gmul 128 (y ^^^ beVal (padTo 16 b)) h 0) 0

/-- The key stream of counter mode from a block: its last four bytes count modulo 2^32. -/
def stream (e : Bytes → Bytes) (iv : Bytes) (n : Nat) : Bytes :=
  ((List.range ((n + 15) / 16)).flatMap fun j => e (iv.take 12 ++ beN 4 ((beVal (slice iv 12 4) + j) % 4294967296))).take n

/-- The tag of GCM over associated data and ciphertext, for a 96-bit IV. -/
def gcmTag (e : Bytes → Bytes) (iv aad c : Bytes) : Bytes :=
  let bs := chunks 16 aad.length aad ++ chunks 16 c.length c ++ [beN 8 (8 * aad.length) ++ beN 8 (8 * c.length)]
  xorBytes (beN 16 (ghash (beVal (e (zeros 16))) bs)) (e (iv ++ [0, 0, 0, 1]))

/-- GCM: the text in the other form, and the tag. -/
def gcm (dec : Bool) (key iv aad text : Bytes) : Bytes × Bytes :=
  let e := cipherOf 1 key false
  let out := xorBytes (stream e (iv ++ [0, 0, 0, 2]) text.length) text
  (out, gcmTag e iv aad (if dec then text else out))

/-- GCM with a full tag after the ciphertext. -/
def gcmSeal (key iv aad plain : Bytes) : Bytes := let r := gcm false key iv aad plain; r.1 ++ r.2
/-- Its opening: the plaintext where the tag verifies. -/
def gcmOpen (key iv aad b : Bytes) : Option Bytes :=
  if b.length < 16 then none
  else
    let r := gcm true key iv aad (b.take (b.length - 16))
    if r.2 = b.drop (b.length - 16) then some r.1 else none

/-- CCM with a tag of `t` bytes and a nonce of 7 to 13: the text in the other form, and the tag. -/
def ccm (dec : Bool) (key nonce : Bytes) (t : Nat) (aad text : Bytes) : Bytes × Bytes :=
  let e := cipherOf 1 key false
  let q := 15 - nonce.length
  let ctr (j : Nat) : Bytes := e ([BitVec.ofNat 8 (q - 1)] ++ nonce ++ beN q j)
  let out := xorBytes (((List.range ((text.length + 15) / 16)).flatMap fun j => ctr (j + 1)).take text.length) text
  let plain := if dec then out else text
  let b0 := [BitVec.ofNat 8 ((if aad = [] then 0 else 64) + 8 * ((t - 2) / 2) + (q - 1))] ++ nonce ++ beN q plain.length
  let a := if aad = [] then [] else beN 2 aad.length ++ aad
  let bs := (chunks 16 a.length a ++ chunks 16 plain.length plain).map (padTo 16)
  (out, (xorBytes (cbcMac e (zeros 16) (b0 :: bs)) (ctr 0)).take t)

/-! ### AES-KWP -/

/-- The rounds of wrapping, by step numbers: A and the semiblocks, of which the first moves to the end. -/
def kwSteps (e : Bytes → Bytes) : List Nat → Bytes → List Bytes → Bytes × List Bytes
  | [], a, r => (a, r)
  | t :: ts, a, r =>
    let b := e (a ++ r.headD [])
    kwSteps e ts (beN 8 (beVal (b.take 8) ^^^ t)) (r.tail ++ [b.drop 8])

/-- The rounds of unwrapping. -/
def kwUnsteps (d : Bytes → Bytes) : List Nat → Bytes → List Bytes → Bytes × List Bytes
  | [], a, r => (a, r)
  | t :: ts, a, r =>
    let b := d (beN 8 (beVal a ^^^ t) ++ r.getLastD [])
    kwUnsteps d ts (b.take 8) (b.drop 8 :: r.dropLast)

/-- AES-KWP of a plaintext: 8 bytes more than its length rounded up to 8. -/
def kwpWrap (key plain : Bytes) : Bytes :=
  let n := (plain.length + 7) / 8
  let a := [0xA6, 0x59, 0x59, 0xA6] ++ beN 4 plain.length
  let p := padTo (8 * n) plain
  let e := cipherOf 1 key false
  padTo (8 * n + 8) (if n ≤ 1 then e (a ++ p)
    else
      let r := kwSteps e ((List.range (6 * n)).map (· + 1)) a (chunks 8 n p)
      r.1 ++ r.2.flatten)

/-- Its opening: the plaintext where the integrity check passes. -/
def kwpOpen (key b : Bytes) : Option Bytes :=
  let n := b.length / 8 - 1
  if b.length % 8 ≠ 0 ∨ b.length < 16 then none
  else
    let d := cipherOf 1 key true
    let r : Bytes × Bytes :=
      if n = 1 then ((d b).take 8, (d b).drop 8)
      else
        let x := kwUnsteps d (((List.range (6 * n)).map (· + 1)).reverse) (b.take 8) (chunks 8 n (b.drop 8))
        (x.1, x.2.flatten)
    let len := beVal (r.1.drop 4)
    if r.1.take 4 = [0xA6, 0x59, 0x59, 0xA6] ∧ len ≤ 8 * n ∧ 8 * n < len + 8 ∧ allZero (r.2.drop len) then some (r.2.take len) else none

end Sys2Proof.Machine
end

