-- ==== Sys2Proof/Machine/Ctr.lean ====
section
/-! DEFINITION. CTR_DRBG of NIST SP 800-90A with AES-256 and the derivation function, as R334 names it (log 8). -/

namespace Sys2Proof.Machine

/-- The working state of an instance. -/
structure CtrState where
  key : BitVec 256 := 0
  v : BitVec 128 := 0
  deriving DecidableEq, Repr

/-- AES-256 under a key. -/
def aes256 (key : Bytes) : Bytes → Bytes := cipherOf 1 (padTo 32 key) false

/-- Block_Cipher_df: 384 bits from a byte string (10.3.2). -/
def drbgDf (b : Bytes) : Bytes :=
  let s := beN 4 b.length ++ beN 4 48 ++ b ++ [0x80]
  let s := padTo ((s.length + 15) / 16 * 16) s
  let e := aes256 ((List.range 32).map (BitVec.ofNat 8))
  let t := (List.range 3).flatMap fun i => cbcMac e (zeros 16) (chunks 16 (s.length + 16) (beN 4 i ++ zeros 12 ++ s))
  let f := aes256 (t.take 32)
  let x := f (slice t 32 16)
  let y := f x
  x ++ y ++ f y

/-- The next `n` output blocks. -/
def CtrState.blocks (c : CtrState) (n : Nat) : Bytes :=
  let e := aes256 (beN 32 c.key.toNat)
  (List.range n).flatMap fun j => e (beN 16 (c.v + BitVec.ofNat 128 (j + 1)).toNat)

/-- CTR_DRBG_Update (10.2.1.2). -/
def CtrState.update (c : CtrState) (data : Bytes) : CtrState :=
  let t := xorBytes (c.blocks 3) data
  { key := BitVec.ofNat 256 (beVal (t.take 32)), v := BitVec.ofNat 128 (beVal (t.drop 32)) }

/-- Instantiation from entropy input, nonce and personalization string (10.2.1.3.2). -/
def CtrState.init (entropy nonce pers : Bytes) : CtrState := ({} : CtrState).update (drbgDf (entropy ++ nonce ++ pers))

/-- A reseed from entropy input and additional input (10.2.1.4.2). -/
def CtrState.reseed (c : CtrState) (entropy ain : Bytes) : CtrState := c.update (drbgDf (entropy ++ ain))

/-- A generate of `n` bytes with additional input: the output and the state after it (10.2.1.5.2). -/
def CtrState.generate (c : CtrState) (n : Nat) (ain : Bytes) : Bytes × CtrState :=
  let a := if ain = [] then zeros 48 else drbgDf ain
  let c := if ain = [] then c else c.update a
  let m := (n + 15) / 16
  (padTo n (c.blocks m), ({ c with v := c.v + BitVec.ofNat 128 m } : CtrState).update a)

end Sys2Proof.Machine
end

