-- ==== Sys2Proof/Machine/Units/Engines.lean ====
section
/-! DEFINITION. The key and counter table, the symmetric engine, the public-key engine, the hash unit and
Mint (R267 to R342). -/

namespace Sys2Proof.Machine

/-! ### Key and counter table -/

/-- A KCT entry (Table 11-2). `live` is LIVE of the cached form; `lost`: the stored form fails its tag. -/
structure Entry where
  gen : Byte := 1
  owner : Byte := 0xFF
  cls : BitVec 4 := 0
  alg : BitVec 4 := 0
  mincm : BitVec 2 := 0
  vol : Bool := false
  usage : BitVec 16 := 0
  kcv : BitVec 24 := 0
  wcnt : BitVec 40 := 0
  expiry : Word := 0
  limit : BitVec 24 := 0
  rsv : BitVec 24 := 0
  secret : Bytes := []
  live : BitVec 48 := 0
  lost : Bool := false
  deriving DecidableEq, Repr

/-- An operation of the access page in progress (R286): what the tenant's registers held when it was
taken, the random bytes drawn for it, and whether it waits for Mint. -/
structure KctOp where
  op : Byte
  handle : Word
  arg : Word
  buf : Bytes
  draw : Bytes := []
  waiting : Bool := false
  deriving DecidableEq, Repr

/-- A KCT access page (Table 11-6). -/
structure KcPage where
  op : Byte := 0
  handle : Word := 0
  arg : Word := 0
  busy : Bool := false
  ignored : Byte := 0
  status : BitVec 16 := 0
  evt : Flag := {}
  out0 : Word := 0
  out1 : Word := 0
  out2 : Word := 0
  misses : BitVec 16 := 0
  buf : Bytes := List.replicate 128 0
  cur : Option KctOp := none
  deriving DecidableEq, Repr

/-- A group of the KCT journal: its place in the ring, its SEQ, and its entries by index (R275, R373). -/
structure KctGroup where
  off : Nat
  seq : BitVec 48
  items : List (Nat × Entry)
  deriving DecidableEq, Repr

/-- The key and counter table. Free entries are those of `freed`, oldest first, and, before them in the
order of becoming free, every index from `fresh` on, which has never been used (R268). -/
structure Kct where
  entries : Vector Entry 32768 := Vector.replicate 32768 {}
  fresh : Nat := 0
  freed : List Nat := []
  /-- Cached entries of each slot, most recently used first (R279); the device's after them. -/
  lru : Vector (List Nat) 128 := Vector.replicate 128 []
  lruDev : List Nat := []
  /-- The ring of journal groups in the main store, oldest first, where its head stands, and its next SEQ. -/
  jnl : List KctGroup := []
  jnlHead : Nat := 0
  jnlSeq : BitVec 48 := 0
  pages : Vector KcPage 128 := Vector.replicate 128 {}
  deriving DecidableEq, Repr

/-! ### Symmetric engine -/

/-- The open message of a cipher page (R298): the mode word of its FIRST, the IV then in force, what
it has taken so far. -/
structure MsgCtx where
  mode : Word
  iv : Bytes
  aad : Bytes := []
  data : Bytes := []
  deriving DecidableEq, Repr

/-- A RUN submission in progress (R298, R306): its operands, the passes left after the current one,
and the segments left in the current pass. -/
structure CipherJob where
  mode : Word
  src : Word
  dst : Word
  len : Nat
  aad : Word
  aadlen : Nat
  input : Bytes
  passes : Nat
  segs : Nat
  /-- Data bytes whose output has been written. -/
  out : Nat := 0
  deriving DecidableEq, Repr

/-- A cipher page (Table 12-1). -/
structure CipherPage where
  op : Byte := 0
  mode : Word := 0
  key : Word := 0
  /-- The key register: handle, entry class and algorithm, usage, key bytes. -/
  loaded : Option (Word × Entry) := none
  src : Word := 0
  dst : Word := 0
  len : BitVec 22 := 0
  aad : Word := 0
  aadlen : BitVec 22 := 0
  busy : Bool := false
  msg : Option MsgCtx := none
  frange : BitVec 2 := 0
  level : BitVec 2 := 0
  ignored : Byte := 0
  status : BitVec 16 := 0
  evt : Flag := {}
  fault : Word := 0
  iv : Bytes := List.replicate 16 0
  tag : Bytes := List.replicate 16 0
  prog : Word := 0
  job : Option CipherJob := none
  deriving DecidableEq, Repr

/-- The two kinds of cipher core (R292). -/
inductive CoreKind where
  | aes | tdea
  deriving DecidableEq, Repr

/-- A cipher core's grant: slot and page of the segment it works on. -/
structure Grant where
  slot : Fin 128
  page : Fin 32
  deriving DecidableEq, Repr

/-- The symmetric engine. -/
structure Cipher where
  pages : Vector (Vector CipherPage 32) 128 := Vector.replicate 128 (Vector.replicate 32 {})
  /-- The supervisor's 16 pages, for the device's own work (R219, R292). -/
  own : Vector CipherPage 16 := Vector.replicate 16 {}
  /-- Pages above their slot's count that a FORCE apply has left in use: they stay mapped up to the frame boundary after (R293). -/
  held : List Grant := []
  aes : Vector (Option Grant) 8 := Vector.replicate 8 none
  tdea : Vector (Option Grant) 2 := Vector.replicate 2 none
  /-- Last owner granted on each kind, and the last page granted of each slot (R306). -/
  lastAes : Option (Fin 128) := none
  lastTdea : Option (Fin 128) := none
  lastPage : Vector (Option (Fin 32)) 128 := Vector.replicate 128 none
  deriving DecidableEq, Repr

/-! ### Public-key engine and hash unit -/

/-- A PKE job (R313): operands as captured at taking, random draw, and whether it waits for its draw. -/
structure PkeJob where
  op : Byte
  cls : BitVec 2
  key : Word
  entry : Option Entry := none
  /-- The private key: the entry's, or the key material of its blob record (R316). -/
  secret : Bytes := []
  arg : Word
  input : Bytes
  dst : Word
  dstlen : Nat
  draw : Bytes := []
  waiting : Bool := false
  /-- An abort takes effect at the next slice boundary, with this status (R313). -/
  ending : Option (BitVec 16) := none
  deriving DecidableEq, Repr

/-- A hash context (R322). -/
structure HashCtx where
  alg : Nat
  key : Option Bytes := none
  /-- The handle of the HMAC key. -/
  handle : Word := 0
  verify : Bool := false
  data : Bytes := []
  deriving DecidableEq, Repr

/-- An UPDATE or FINAL in progress (R323). -/
structure HashJob where
  final : Bool
  tlen : Nat := 0
  input : Bytes := []
  /-- Segments not finished (R306, R323). -/
  segs : Nat := 1
  deriving DecidableEq, Repr

/-- A job page (Table 13-1): PKE half, then hash half. -/
structure JobPage where
  cmd : Word := 0
  key : Word := 0
  arg : Word := 0
  src : Word := 0
  srclen : BitVec 22 := 0
  dst : Word := 0
  dstlen : BitVec 22 := 0
  busy : Bool := false
  frange : BitVec 2 := 0
  ignored : Byte := 0
  status : BitVec 16 := 0
  evt : Flag := {}
  fault : Word := 0
  outlen : BitVec 17 := 0
  job : Option PkeJob := none
  hcmd : Word := 0
  hkey : Word := 0
  hsrc : Word := 0
  hlen : BitVec 22 := 0
  hbusy : Bool := false
  hfrange : BitVec 2 := 0
  hignored : Byte := 0
  hstatus : BitVec 16 := 0
  hevt : Flag := {}
  hfault : Word := 0
  hout : Bytes := List.replicate 64 0
  ctx : Option HashCtx := none
  hjob : Option HashJob := none
  deriving DecidableEq, Repr

/-- PKE and hash unit. -/
structure Pke where
  pages : Vector JobPage 128 := Vector.replicate 128 {}
  /-- The supervisor's page, for the device's own work (R309). -/
  own : JobPage := {}
  /-- The slot whose job has the current slice (R319). -/
  running : Option (Fin 128) := none
  credit : Vector Int 128 := Vector.replicate 128 0
  /-- The hash unit: the owner whose segment it works on, and the last owner granted (R323). -/
  hashOwner : Option (Fin 128) := none
  hashLast : Option (Fin 128) := none
  deriving DecidableEq, Repr

/-! ### Mint -/

/-- Mint states (Table 14-2). -/
inductive MintState where
  | startup | ready | restarting | failed | testSrc
  deriving DecidableEq, Repr

/-- A DRBG instance (R334) with its working state. -/
structure Drbg where
  inst : Bool := false
  /-- The working state of CTR_DRBG; zeros while not instantiated. -/
  ctr : CtrState := {}
  reseedReq : Bool := false
  uses : Nat := 0
  /-- Carrier-cycle count at the last instantiate or reseed (R337). -/
  since : BitVec 64 := 0
  deriving DecidableEq, Repr

/-- Who asked for a DRBG request (R335). -/
inductive DrbgClient where
  | page (slot : Fin 128) (i : Fin 4)
  | kct (slot : Fin 128)
  | pke (slot : Fin 128)
  | challenge
  | rekey
  | migrate (slot : Fin 128)
  deriving DecidableEq, Repr

/-- A DRBG request. -/
structure DrbgReq where
  client : DrbgClient
  inst : Fin 160
  reseed : Bool := false
  pr : Bool := false
  len : Nat := 0
  outreg : Bool := false
  dst : Word := 0
  /-- The additional input, as taken. -/
  ain : Bytes := []
  /-- The output of a generate that has been taken up. -/
  out : Bytes := []
  deriving DecidableEq, Repr

/-- A DRBG page (Table 14-6). -/
structure DpPage where
  cmd : Word := 0
  dst : Word := 0
  len : BitVec 17 := 0
  busy : Bool := false
  waiting : Bool := false
  split : Bool := false
  ignored : Byte := 0
  status : BitVec 16 := 0
  evt : Flag := {}
  fault : Word := 0
  ainlen : BitVec 6 := 0
  ain : Bytes := List.replicate 32 0
  out : Bytes := List.replicate 32 0
  deriving DecidableEq, Repr

/-- A failed health test (Table 14-14): 0 repetition count, 1 adaptive proportion, 2 known answer; its oscillator and
the count that reached the cutoff. -/
structure HealthFail where
  test : Fin 3
  source : Fin 64
  count : BitVec 16
  deriving DecidableEq, Repr

/-- The two statistical tests on one oscillator (Table 14-1): the run, and the window. -/
structure OscTest where
  last : Bool := false
  run : Nat := 0
  first : Bool := false
  pos : Nat := 0
  hits : Nat := 0
  deriving DecidableEq, Repr

/-- Mint. -/
structure Mint where
  state : MintState := .startup
  restarts : BitVec 8 := 0
  /-- A startup or restart test is running (R329). -/
  testing : Bool := false
  s : BitVec 256 := 0
  pool : List (BitVec 256) := []
  insts : Vector Drbg 160 := Vector.replicate 160 {}
  instCount : Nat := 0
  /-- The extra instances of each slot (R334, Table 14-3). -/
  extra : Vector (List (Fin 160)) 128 := Vector.replicate 128 []
  pages : Vector (Vector DpPage 4) 128 := Vector.replicate 128 (Vector.replicate 4 {})
  running : Option DrbgReq := none
  ready : List DrbgReq := []
  waitq : List DrbgReq := []
  hlth : Word := 0
  osc : Vector OscTest 64 := Vector.replicate 64 {}
  testSrc : Word := 0
  lfsr : BitVec 64 := 0
  rawHi : Word := 0
  lastFail : BitVec 48 := 0
  lastTest : BitVec 16 := 0
  deriving DecidableEq, Repr

end Sys2Proof.Machine
end

