-- ==== Sys2Proof/Machine/Units/Guard.lean ====
section
/-! DEFINITION. Tamper monitors and the battery domain (R435 to R456). -/

namespace Sys2Proof.Machine

/-- BBK states (Table 18-6). -/
inductive Bbk where
  | valid | erased | lost
  deriving DecidableEq, Repr

/-- A battery event log entry (Table 18-5). -/
structure BatEntry where
  cls : Byte
  source : Byte
  count : BitVec 16
  rtc : BitVec 48
  sub : BitVec 16
  deriving DecidableEq, Repr

/-- The unit of a monitor (Table 18-1): its class and its number. -/
structure Mon where
  cls : Fin 7
  unit : Byte
  deriving DecidableEq, Repr

/-- What a unit read in one sample (Table 18-1): the level at the far end of a lane or at ENCn_SNS, none where nothing drives it; lux,
mV, 0.1 % from nominal or °C; a rail's glitch in mV; no edge for 1 µs; Mint's FAILED. -/
inductive Reading where
  | level (v : Option Bool)
  | value (v : Int)
  | glitch (mv : Int)
  | noEdge
  | failed
  deriving DecidableEq, Repr

/-- A sample, by its age in milliseconds. -/
structure Sample where
  age : Nat
  reading : Reading
  deriving DecidableEq, Repr

/-- A REKEY record whose steps are not completed (R454): the request's FLAGS. -/
structure Rekey where
  wipe : Bool
  deriving DecidableEq, Repr

/-- Outcome of the built-in test of one unit (R445). -/
inductive TestOutcome where
  | pass | noDetect | noRelease
  deriving DecidableEq, Repr

/-- Battery domain and tamper controller. -/
structure Guard where
  /-- The battery domain has a rail at or above 1.60 V (R446). -/
  powered : Bool := false
  rtc : BitVec 48 := 0
  rtcSub : BitVec 15 := 0
  rtcSet : Bool := false
  bbk : Bbk := .lost
  /-- The BBK itself (R454), from which K_KCT and K_REC follow; 0 while it is not VALID. -/
  bbkKey : BitVec 256 := 0
  arm : Bool := false
  log : List BatEntry := []
  mark : BitVec 5 := 0
  ovf : BitVec 16 := 0
  omark : BitVec 16 := 0
  /-- The copy of the tamper parameters that differ from Table 18-2: number, index, value. -/
  copy : List (Nat × Nat × Word) := []
  /-- HRB_LC.TAMPERED: the sub-state of DEPLOYED (R451). -/
  tampered : Bool := false
  /-- The LFSR from which the mesh and the DYNAMIC loops take their pattern (R436), and the bit that each loop drove last. -/
  pattern : BitVec 32 := 0
  encBit : BitVec 8 := 0
  /-- Filters that are active (R439), none twice. -/
  active : List Mon := []
  /-- An unfinished REKEY record (R454). -/
  rekey : Option Rekey := none
  deriving DecidableEq, Repr

end Sys2Proof.Machine
end

