-- ==== Sys2Proof/Machine/Units/Hrb.lean ====
section
/-! DEFINITION. The state that the host register block holds itself (R173 to R188); the registers that
mirror another unit are computed from that unit. -/

namespace Sys2Proof.Machine

/-- Host register block. -/
structure Hrb where
  scratch : Word := 0
  dbSent : Vector Flag 4 := Vector.replicate 4 {}
  cl0MaxLat : BitVec 8 := 0
  cl0Over : BitVec 8 := 0
  msgErr : Pair := {}
  regErr : Pair := {}
  disc : Pair := {}
  nvErr : Pair := {}
  evtA : Vector Flag 6 := Vector.replicate 6 {}
  evtB : Vector Flag 6 := Vector.replicate 6 {}
  evtC : Vector Flag 6 := Vector.replicate 6 {}
  ienA : BitVec 6 := 0
  ienB : BitVec 6 := 0
  ienC : BitVec 6 := 0
  act : Flag := {}
  /-- Milliseconds from the main-side reset to the last recall that has finished (Table 07-20). -/
  elapsed : BitVec 16 := 0
  /-- Recall states of Table 07-20: 0 not started, 1 running, 2 done, 3 error. -/
  rclMain : BitVec 2 := 0
  rclBay : BitVec 2 := 0
  rclTagw : BitVec 2 := 0
  pagesMain : BitVec 17 := 0
  pagesBay : BitVec 17 := 0
  pagesTagw : BitVec 17 := 0
  saveValid : Bool := false
  saveBackstop : Bool := false
  saveDur : BitVec 16 := 0
  carryAge : BitVec 16 := 0
  carryValid : Bool := false
  uptime : Word := 0
  rstCause : BitVec 4 := 1
  fwver : Word := 0
  tampSeen : BitVec 8 := 0
  tampLevel : BitVec 4 := 0
  /-- Entries new at the last import of the battery log (Table 07-31). -/
  batNew : BitVec 5 := 0
  /-- The latch of HRB_RTC_HI (R187). -/
  rtcHi : Word := 0
  /-- Hottest of the 8 temperature sensors (Table 07-33). -/
  tmax : BitVec 8 := 0
  deriving DecidableEq, Repr

end Sys2Proof.Machine
end

