-- ==== Sys2Proof/Machine/Units/Regs.lean ====
section
/-! DEFINITION. Operand types of the register and supply commands: a register by its page and offset (R2,
R3), the supplies and pins of a start, a row write that did not verify. -/

namespace Sys2Proof.Machine

/-- A register: the page it lies in and its byte offset there. -/
inductive RegAddr where
  /-- The host register block (R173), through a REG block. -/
  | hrb (off : BitVec 16)
  /-- A port page, through its owner's path (R80). -/
  | port (p : Fin 512) (off : BitVec 12)
  /-- Two bytes (`half`) or one of a port page's buffer areas (R80). -/
  | portPart (p : Fin 512) (off : BitVec 12) (half : Bool)
  /-- A tenant's mailbox page (R252). -/
  | mbx (slot : Fin 128) (off : BitVec 12)
  /-- The device information page, as a core reads it (R251). -/
  | devInfo (core : Fin 8) (off : BitVec 12)
  /-- An MPU's registers (R260). -/
  | mpu (core : Fin 8) (off : BitVec 12)
  /-- A KCT access page (R285). -/
  | kc (slot : Fin 128) (off : BitVec 12)
  /-- A cipher page (R294). -/
  | cp (slot : Fin 128) (page : Fin 32) (off : BitVec 8)
  /-- A job page of the PKE and hash unit (R312). -/
  | pk (slot : Fin 128) (off : BitVec 12)
  /-- A DRBG page (R338). -/
  | dp (slot : Fin 128) (page : Fin 4) (off : BitVec 8)
  /-- Mint's own registers (R341, R342). -/
  | mint (off : BitVec 8)
  /-- A meter port's registers (R411). -/
  | meter (n : Fin 64) (off : BitVec 4)
  /-- The battery domain's registers (R449). -/
  | bat (off : BitVec 4)
  deriving DecidableEq, Repr

/-- A tag-window row write whose read-back differed (R137): its index in the write, V_ST at the repeat,
and whether the repeat compared equal. -/
structure RowFail where
  row : Nat
  vst : Nat
  repeatOk : Bool
  deriving DecidableEq, Repr

end Sys2Proof.Machine
end

