-- ==== Sys2Proof/Machine/Units/Lc.lean ====
section
/-! DEFINITION. OTP, life cycle, debug and the test access port (R457 to R479). -/

namespace Sys2Proof.Machine

/-- Life-cycle states (Table 19-2), INVALID among them. -/
inductive LcState where
  | blank | factoryTest | provisioning | deployed | returned | terminated | invalid
  deriving DecidableEq, Repr

/-- A transition slot (Table 19-4). -/
structure LcSlot where
  digest : Bytes := List.replicate 32 0
  target : Byte := 0
  defer : Bool := false
  done : BitVec 16 := 0
  void : BitVec 16 := 0
  deriving DecidableEq, Repr

/-- Roles of a signed request (Table 19-6). -/
inductive Role where
  | mfg | owner | tenant | bay
  deriving DecidableEq, Repr

/-- A debug session (R475). -/
structure Debug where
  scope : BitVec 16
  slot : Byte
  role : Role
  granted : Nat
  left : Nat
  deriving DecidableEq, Repr

/-- The LC nonce: its bytes and the seconds since it was issued (R470). -/
structure LcNonce where
  bytes : Bytes
  age : Nat := 0
  deriving DecidableEq, Repr

/-- The data register that the TAP instruction selects (Table 19-13). -/
inductive TapSel where
  | idcode | bypass | boundary | lcmb | dbg | scan | enrol | otpw | lcprog
  deriving DecidableEq, Repr

/-- What drives the balls (R476): the device, the boundary-scan register, held, or nothing. -/
inductive TapDrive where
  | device | boundary | held | highz
  deriving DecidableEq, Repr

/-- The test access port. -/
structure Tap where
  ir : Byte := 0x01
  sel : TapSel := .idcode
  drive : TapDrive := .device
  /-- The boundary-scan register, as levels of the balls in its own order. -/
  bsr : List Bool := []
  /-- What the selected register shifts out: IDCODE value, mailbox response, debug data. -/
  out : Bytes := []
  /-- Status of the debug transport (R475). -/
  dbgStatus : BitVec 16 := 0
  deriving DecidableEq, Repr

/-- The access a debugger asks for through DBG (Table 19-9). -/
inductive DbgAccess where
  | tenantHalt (slot : Fin 128) | tenantResume (slot : Fin 128) | tenantStep (slot : Fin 128)
  | tenantReg (slot : Fin 128) (r : Fin 32)
  | tenantRegWrite (slot : Fin 128) (r : Fin 32) (v : Word)
  | tenantRead (slot : Fin 128) (addr : Word)
  | tenantWrite (slot : Fin 128) (addr : Word) (v : Word)
  | supervisor (addr : Word)
  | supervisorWrite (addr v : Word)
  | thyme (port : Fin 512)
  | reg (r : RegAddr)
  | regWrite (r : RegAddr) (v : Word)
  | store (addr : Word)
  deriving DecidableEq, Repr

/-- Where a run of OTP programming stops before its end (R458): after so many words, because a main-side
reset or a save cuts it off, or because the next word does not verify. -/
structure OtpStop where
  words : Nat
  cut : Bool
  deriving DecidableEq, Repr

/-- Life-cycle controller, OTP, debug session and TAP. -/
structure Lc where
  /-- The state that governs: decoded from the words at reset, changed by a transition (R459). -/
  state : LcState := .blank
  words : Vector (BitVec 16) 16 := Vector.replicate 16 0
  slots : Vector LcSlot 16 := Vector.replicate 16 {}
  era : Nat := 0
  unitId : Bytes := List.replicate 16 0
  uid : Bytes := List.replicate 7 0
  mfgHash : Bytes := List.replicate 32 0
  imgHash : Bytes := List.replicate 32 0
  ownerHash : Bytes := List.replicate 32 0
  /-- DUK seed and fingerprint helper data (R457); none until ENROL. -/
  dukSeed : Option Bytes := none
  helper : Bytes := []
  /-- The administrator key list (R469), a DEV_REC record. -/
  admins : Vector Bytes 4 := Vector.replicate 4 (List.replicate 32 0)
  nonce : Option LcNonce := none
  dbgSession : Option Debug := none
  /-- A slot halted by the debugger (R474). -/
  halted : List (Fin 128) := []
  tap : Tap := {}
  deriving DecidableEq, Repr

end Sys2Proof.Machine
end

