-- ==== Sys2Proof/Machine/Symbols.lean ====
section
/-! DEFINITION. The 8b/10b code of the sprig link and of the host link (R30, R31, R152): symbols, running disparity, coding and
decoding. Bit 0 of a symbol is bit a, the first on the line. -/

namespace Sys2Proof.Machine

/-- What a symbol stands for: a data byte, or a control symbol K.x.y with its byte. -/
structure Code where
  ctrl : Bool := false
  byte : Byte := 0
  deriving DecidableEq, Repr

/-- K28.5. -/
def k28_5 : Code := ⟨true, 0xBC⟩
/-- A data symbol. -/
def dataCode (b : Byte) : Code := ⟨false, b⟩

/-- The 5b/6b sub-blocks of D.0 to D.31 at negative disparity, bit a lowest. -/
def sixBits : List Nat :=
  [57, 46, 45, 35, 43, 37, 38, 7, 39, 41, 42, 11, 44, 13, 14, 58, 54, 49, 50, 19, 52, 21, 22, 23, 51, 25, 26, 27, 28, 29, 30, 53]

/-- The 3b/4b sub-blocks of data bytes at negative disparity, bit f lowest; the last is the primary one of .7. -/
def fourBits : List Nat := [13, 9, 10, 3, 11, 5, 6, 7]
/-- The 3b/4b sub-blocks of control symbols at negative disparity. -/
def fourCtrl : List Nat := [13, 6, 5, 3, 11, 10, 9, 14]

/-- Ones of a number below 64. -/
def onesOf (n : Nat) : Nat := n % 2 + n / 2 % 2 + n / 4 % 2 + n / 8 % 2 + n / 16 % 2 + n / 32 % 2

/-- A sub-block of `w` bits at disparity `rd` (true: positive), given its form at negative disparity: one of unequal ones and
zeros, and the balanced D.7 and .3, are complemented at positive disparity. -/
def subBlock (w : Nat) (special rd : Bool) (n : Nat) : Nat := if rd && (special || 2 * onesOf n != w) then 2 ^ w - 1 - n else n

/-- The disparity after a sub-block. -/
def dispAfter (w n : Nat) (rd : Bool) : Bool := if 2 * onesOf n = w then rd else decide (w < 2 * onesOf n)

/-- The 5b/6b sub-block of a code. -/
def sixOf (c : Code) (rd : Bool) : Nat :=
  let x := c.byte.toNat % 32
  if c.ctrl && x == 28 then subBlock 6 true rd 60 else subBlock 6 (x == 7) rd (sixBits.getD x 0)

/-- The alternate 3b/4b sub-block of D.x.7 is used. -/
def altSeven (x : Nat) (rd : Bool) : Bool := if rd then x == 11 || x == 13 || x == 14 else x == 17 || x == 18 || x == 20

/-- The 3b/4b sub-block of a code, at the disparity after its first sub-block. -/
def fourOf (c : Code) (rd : Bool) : Nat :=
  let x := c.byte.toNat % 32
  let y := c.byte.toNat / 32
  if c.ctrl then subBlock 4 true rd (fourCtrl.getD y 0)
  else if y = 7 ∧ altSeven x rd then subBlock 4 true rd 14
  else subBlock 4 (y == 3) rd (fourBits.getD y 0)

/-- A code as 10 bits, and the disparity after it. -/
def encodeSym (rd : Bool) (c : Code) : BitVec 10 × Bool :=
  let six := sixOf c rd
  let r1 := dispAfter 6 six rd
  let four := fourOf c r1
  (BitVec.ofNat 10 (six + 64 * four), dispAfter 4 four r1)

/-- A code is a data byte or one of the twelve control symbols. -/
def Code.exists_ (c : Code) : Bool :=
  let n := c.byte.toNat
  !c.ctrl || n % 32 == 28 || n == 0xF7 || n == 0xFB || n == 0xFD || n == 0xFE

/-- The code that a symbol spells at a disparity, with the disparity after it; none for a code violation or a disparity error. -/
def decodeSym (rd : Bool) (v : BitVec 10) : Option (Code × Bool) :=
  let six := v.toNat % 64
  let four := v.toNat / 64
  let r1 := dispAfter 6 six rd
  let try_ (c : Code) : Option (Code × Bool) :=
    let e := encodeSym rd c
    if c.exists_ && e.1 == v then some (c, e.2) else none
  let ys (ctrl : Bool) (x : Nat) : List Code :=
    ((List.range 8).filter fun y => fourOf ⟨ctrl, BitVec.ofNat 8 (x + 32 * y)⟩ r1 == four).map fun y => ⟨ctrl, BitVec.ofNat 8 (x + 32 * y)⟩
  if six = 60 ∨ six = 3 then (ys true 28).findSome? try_
  else
    let n := if rd && !sixBits.contains six || six == 56 then 63 - six else six
    match sixBits.findIdx? (· == n) with
    | none => none
    | some x => (ys false x ++ ys true x).findSome? try_

/-- Codes one after another, from a disparity on. -/
def encodeSyms (rd : Bool) : List Code → List (BitVec 10)
  | [] => []
  | c :: r => let e := encodeSym rd c; e.1 :: encodeSyms e.2 r

/-- Symbols one after another; none where one breaks the code. -/
def decodeSyms (rd : Bool) : List (BitVec 10) → Option (List Code)
  | [] => some []
  | v :: r => match decodeSym rd v with
    | none => none
    | some (c, rd) => (decodeSyms rd r).map (c :: ·)

end Sys2Proof.Machine
end

