-- ==== Sys2Proof/Machine/Units/Link.lean ====
section
/-! DEFINITION. The state of the Treor link ports U and D (R151 to R172). -/

namespace Sys2Proof.Machine

/-- Where a message in a transmit queue comes from: it decides what its sending does (R180, R208). -/
inductive OutSrc where
  | response | devEvent | mbxMsg | bayRecord | envOut | regAnswer | enumReply | notice
  deriving DecidableEq, Repr

/-- A message (or single block) of the device's own waiting in a transmit queue: its source, its
block kind (Table 06-5), its class, its bytes, and how many of them already travelled. -/
structure OutMsg where
  src : OutSrc
  kind : BitVec 3 := 0
  cls : BitVec 2 := 3
  bytes : Bytes := []
  sent : Nat := 0
  /-- Its first block has begun on the port. -/
  begun : Bool := false
  /-- It is the REG answer that a retrain ordered by the host waits for (R178). -/
  order : Bool := false
  deriving DecidableEq, Repr

/-- A block sent and kept until it is acknowledged (R162): `slot` marks one that still holds a buffer slot on the
port that it came in by (R163). -/
structure SentBlock where
  blk : LinkBlock
  sends : Nat := 1
  slot : Bool := false
  /-- Its first transmission since the last UP has been counted in SENTc (R163). -/
  counted : Bool := true
  order : Bool := false
  deriving DecidableEq, Repr

/-- The block on the wire. `first`: its first transmission, which alone may be nullified (R166). -/
structure WireBlock where
  blk : LinkBlock
  first : Bool := true
  forwarded : Bool := false
  slot : Bool := false
  counted : Bool := false
  order : Bool := false
  deriving DecidableEq, Repr

/-- A block that waits to be forwarded: the first 16 bytes of its message, whether a NOTICE has told that the message is
lost (R167), and whether it holds a slot on the port that it came in by. -/
structure FwdBlock where
  blk : LinkBlock
  head : Bytes := []
  told : Bool := false
  slot : Bool := true
  deriving DecidableEq, Repr

/-- A downstream message of a class whose last block has not come: its first 16 bytes, and whether a NOTICE has told that
it is lost (R167). -/
structure Passing where
  head : Bytes
  told : Bool := false
  deriving DecidableEq, Repr

/-- A link control word (R160): ACK or NAK, its ASEQ and the FREEc it carries. -/
structure Lcw where
  nak : Bool := false
  aseq : BitVec 12 := 0
  free : Vector (BitVec 8) 4 := Vector.replicate 4 0
  deriving DecidableEq, Repr

/-- A message under reassembly (R169). -/
structure OpenMsg where
  bytes : Bytes := []
  deriving DecidableEq, Repr

/-- What a receive lane in training has seen (R154, R155): the last set, how many identical ones in a row, and how many sets
since the port entered its step, which is how many it has sent itself. -/
structure LaneRx where
  set : Bytes := []
  run : Nat := 0
  since : Nat := 0
  deriving DecidableEq, Repr

/-- The fields of a training set (Table 06-2). -/
structure TrainSet where
  step : BitVec 8 := 0
  lane : BitVec 8 := 0
  lmin : BitVec 8 := 1
  lmax : BitVec 8 := 2
  role : BitVec 8 := 0
  upaddr : BitVec 8 := 0x7F
  laneMask : BitVec 8 := 0x0F
  width : BitVec 8 := 0
  lsel : BitVec 8 := 0
  fresh : Bool := false
  ordered : Bool := false
  nextSeq : BitVec 12 := 0
  deriving DecidableEq, Repr

/-- One link port. -/
structure LinkPort where
  /-- Table 06-3. -/
  state : BitVec 3 := 0
  width : BitVec 3 := 0
  used : BitVec 4 := 0
  lsel : BitVec 2 := 0
  laneMask : BitVec 4 := 0
  failed : BitVec 4 := 0
  l2bar : Bool := false
  fresh : Bool := true
  /-- Step of the training in progress (Table 06-2, STEP). -/
  step : BitVec 2 := 0
  rx : Vector LaneRx 4 := Vector.replicate 4 {}
  /-- The training in progress was ordered by the host (R165). -/
  ordered : Bool := false
  /-- A set with ORDERED has been accepted in this training, and the marks are cleared (R165). -/
  cleared : Bool := false
  /-- An ordered retrain that waits for the REG answer to be acknowledged (R178). -/
  orderPend : Bool := false
  seq : BitVec 12 := 0
  expect : BitVec 12 := 0
  unacked : List SentBlock := []
  /-- Index in `unacked` of the next block of a go-back re-send in progress. -/
  goBack : Option Nat := none
  /-- FREEc as the partner last reported it, and SENTc (R163). -/
  free : Vector (BitVec 8) 4 := Vector.replicate 4 0
  sent : Vector (BitVec 8) 4 := Vector.replicate 4 0
  /-- FREEc that this port reports. -/
  freed : Vector (BitVec 8) 4 := Vector.replicate 4 0
  /-- Receive-buffer slots of each class that are taken (R163). -/
  taken : Vector Nat 4 := Vector.replicate 4 0
  own : Vector (List OutMsg) 4 := Vector.replicate 4 []
  fwd : Vector (List FwdBlock) 4 := Vector.replicate 4 []
  /-- Within a class port U alternates: the next block comes from the forwarded queue. -/
  fwdTurn : Vector Bool 4 := Vector.replicate 4 false
  /-- Blocks left in the turn of classes 1, 2 and 3 of the weighted round robin (R166). -/
  robin : Nat := 0
  wire : Option WireBlock := none
  /-- The class of the block that was nullified and goes next of classes 1 to 3, and whether it is a forwarded one
  (R166). -/
  nullified : Option (Fin 4 × Bool) := none
  /-- An ACK and a NAK wait to be sent; each takes its ASEQ when it goes (R160, R161). -/
  ackDue : Bool := false
  nakDue : Bool := false
  /-- The last LCW put on the wire. -/
  lastLcw : Option Lcw := none
  /-- What the port has put on the lanes of its width last while UP, a block or an LCW: the codes of each lane, bit
  patterns by R152. -/
  line : List (List Code) := []
  cnt0 : Pair := {}
  cnt1 : Pair := {}
  cnt2 : Pair := {}
  cnt3 : Pair := {}
  evUp : Flag := {}
  evDown : Flag := {}
  evCause : Flag := {}
  evLane : Flag := {}
  evDiscard : Flag := {}
  openMsg : Vector (Option OpenMsg) 4 := Vector.replicate 4 none
  /-- The downstream messages that are still coming, by class (R167). -/
  passing : Vector (Option Passing) 4 := Vector.replicate 4 none
  deriving DecidableEq, Repr

/-- What the link delivered whole (R169, R170, R171). -/
inductive Delivered where
  | message (opcode : BitVec 16) (r : Req)
  | reg (b : LinkBlock)
  | enumer (b : LinkBlock)
  deriving DecidableEq, Repr

/-- Both ports and what they share. -/
structure Link where
  /-- U trains from reset; D is DOWN until U is UP (Table 06-3, R177). -/
  u : LinkPort := { state := 1 }
  d : LinkPort := {}
  /-- The chain address, the same in both status registers (R156). -/
  addr : BitVec 6 := 0
  /-- The address held when the last training began; none before the first one (R156). -/
  addrHeld : Option (BitVec 6) := none
  /-- An ADDRESS notice waits for U to be UP: the address held before (R156). -/
  addrNote : Option (Option (BitVec 6)) := none
  /-- U has been UP since the last main-side reset (R172). -/
  everUp : Bool := false
  etag : Option Word := none
  delivered : List Delivered := []
  deriving DecidableEq, Repr

end Sys2Proof.Machine
end

