-- ==== Sys2Proof/Machine/Units/Power.lean ====
section
/-! DEFINITION. Supplies, clocks, pins, reset and the run state of the main side (R376 to R398, R495 to
R507, R516). -/

namespace Sys2Proof.Machine

/-- Supply levels in mV. -/
structure Levels where
  core : Nat := 0
  phy : Nat := 0
  io : Nat := 0
  deriving DecidableEq, Repr

/-- What a start finds: supplies, pins and what the macros report. -/
structure PowerUp where
  levels : Levels := {}
  pwrFailN : Bool := true
  resetN : Bool := true
  nvWpN : Bool := false
  carLock : Bool := true
  coreLock : Bool := true
  cellOk : Bool := true
  /-- VBAT in mV and the hottest sensor in °C, as HRB_ENV shows them from then on (Table 07-33). -/
  vbatMv : Nat := 0
  tmax : BitVec 8 := 0
  deriving DecidableEq, Repr

/-- The supplies of Table 16-1. -/
inductive MainSupply where
  | core | phy | io
  deriving DecidableEq, Repr

/-- Where the main side stands (R376, R379, R394). `serviceOnly`: no supervisor image verifies. -/
inductive Run where
  | held | bootRom | running | serviceOnly | saving | saveDone
  deriving DecidableEq, Repr

/-- A supervisor image in area A or B of the main store: its version, whether its header
authenticates under the Aelku image key, whether its body verifies (R379). -/
structure SupImage where
  version : Word := 0
  header : Bool := false
  body : Bool := false
  deriving DecidableEq, Repr

/-- Supplies, pins, clocks and the start-up sequence. -/
structure Power where
  levels : Levels := {}
  bayMv : Nat := 0
  vbatMv : Nat := 0
  pwrFailN : Bool := false
  resetN : Bool := true
  nvWpN : Bool := false
  run : Run := .held
  /-- Recall phases of Table 15-10 completed since the main-side reset. -/
  phase : Nat := 0
  /-- A supply of Table 16-1 fell below its hold threshold since the previous release (R377). -/
  fell : Bool := true
  /-- The previous run ended in the save (R377). -/
  savedRun : Bool := false
  /-- The save in progress was begun by the backstop detector (R392). -/
  backstop : Bool := false
  /-- The save in progress is limited (R396). -/
  limited : Bool := false
  imgA : SupImage := { version := 1, header := true, body := true }
  imgB : SupImage := {}
  carLock : Bool := false
  coreLock : Bool := false
  /-- Ports that were not OFF when CAR_LOCK fell (R500). -/
  lostPorts : List Nat := []
  /-- Main-side source of the battery domain: TAMP_BAT_STAT.MAINPWR (R498). -/
  mainPwr : Bool := false
  /-- Countermeasure generators 0 to 12 (R305, R318, R504): what each was last mixed with. -/
  cmGen : Vector Bytes 13 := Vector.replicate 13 []
  /-- The start seed refresh of R388 has been made at this start. -/
  seedDone : Bool := false
  /-- Slots to cold-start after recall, in slot order (R386). -/
  coldStarts : List (Fin 128) := []
  deriving DecidableEq, Repr

end Sys2Proof.Machine
end

