-- ==== Sys2Proof/Machine/Units/Sprig.lean ====
section
/-! DEFINITION. Sprig ports, the sprig link, Thyme's context and the port page (R29 to R119). -/

namespace Sys2Proof.Machine

/-- Port states (Table 02-13). -/
inductive PortState where
  | off | training | idleSense | active | fault
  deriving DecidableEq, Repr

/-- Downlink items (Table 02-5). -/
inductive DownItem where
  | txs (t : Word) (prof : Byte) (cont sof15 eof15 : Bool) (syms : List (BitVec 2))
  | fld (t : Word) (on : Bool) (ant : Bool)
  | png (t : Word) (dur : BitVec 16) (ant : BitVec 2)
  | rxc (tOpen tClose : Word) (prof : Byte)
  | can
  | cfg (key : Byte) (value : BitVec 16)
  | stq
  deriving DecidableEq, Repr

/-- Uplink items (Table 02-6). -/
inductive UpItem where
  | rxb (sof eof err : Bool) (tsof : Word) (bits : List Bool) (mask : List Bool)
  | prp (t : Word) (ant : Bool) (amp : BitVec 16) (phs : BitVec 16)
  | lte (t : Word) (c : Word) (itype : Byte)
  | hst (flags : Byte) (temp : Byte)
  deriving DecidableEq, Repr

/-- Block kinds on the sprig link (Table 02-4). -/
inductive SprigKind where
  | idle | data | train | stop
  deriving DecidableEq, Repr

/-- A downlink window as the device sent it: the header fields of Table 02-3 and the payload. -/
structure DownWindow where
  ftag : BitVec 6
  try_ : BitVec 2 := 0
  kind : SprigKind := .idle
  nak : Bool := false
  av : Bool := false
  aseq : BitVec 4 := 0
  seq : BitVec 4 := 0
  more : Bool := false
  payload : Bytes := []
  deriving DecidableEq, Repr

/-- An uplink window as it arrives: its 90 symbols (R30), and the loop delay D that its arrival shows (R33). -/
structure UpWindow where
  syms : List (BitVec 10) := []
  delay : Int := 0
  deriving DecidableEq, Repr

/-- An outstanding downlink DATA block (R37, R38). -/
structure DownData where
  seq : BitVec 4
  tries : BitVec 2 := 0
  items : List DownItem
  deriving DecidableEq, Repr

/-- The acknowledgement that the next downlink block carries (R37). -/
structure SprigAck where
  av : Bool := false
  nak : Bool := false
  aseq : BitVec 4 := 0
  deriving DecidableEq, Repr

/-- A head's report (Table 02-11). -/
structure HeadReport where
  gmin : Byte := 1
  gmax : Byte := 1
  txlat : Byte := 0
  rxlat : Byte := 0
  nant : Byte := 1
  txbuf : BitVec 16 := 1024
  rxbuf : BitVec 16 := 128
  model : Word := 0
  serial : BitVec 64 := 0
  deriving DecidableEq, Repr

/-- The baseline of one antenna, with 8 fractional bits (R52). -/
structure Baseline where
  amp : Nat := 0
  phs : Int := 0
  deriving DecidableEq, Repr

/-- Thyme's steps: what was last sent, or what the port waits for. -/
inductive Step where
  | none
  /-- FLD on not yet written; then the field guard runs. -/
  | fieldOn | guard
  /-- The gap before a pass; the carrier-off time after an ABORT; carrier off until a POLL; PROFILE_END is due. -/
  | gap | resetOff | dark | endDue
  /-- A round without a pass waits for the next gap to end (R92). -/
  | noPass
  | reqA | antA | selA | hltA (again : Bool) | rats | pps
  | reqB | markB | attrib | hltB
  | inv | slot15 | stayQuiet
  /-- I-block, R(ACK), R(NAK), S(WTX) response, S(DESELECT); the same as a last word before an error. -/
  | iblk | rack | rnak | wtxResp | desel | deselLast
  | raw
  deriving DecidableEq, Repr

/-- PHASE (Table 03-12). -/
inductive Phase where
  | idle | polling | found | activating | ready | exchange | raw | closing
  deriving DecidableEq, Repr

/-- Error classes (Table 03-7). -/
inductive ErrClass where
  | timeout | transmission | bccOnly | timing | protocol | late | link
  deriving DecidableEq, Repr

/-- Technology of a pass or card (Table 03-12). -/
inductive Tech where
  | none | a | b | v
  deriving DecidableEq, Repr

/-- The polling parameters that a round runs under (Table 04-2): read at its start. -/
structure PollCfg where
  gap : Nat := 6780
  empty : Nat := 8
  removal : Bool := true
  first : Bool := true
  afi : Byte := 0
  slots : Nat := 1
  deriving DecidableEq, Repr

/-- Thyme's context of a port (Table 03-3), as fields. Carrier-cycle values are the low 32 bits of the count. -/
structure Ctx where
  owner : Byte := 0xFF
  epoch : BitVec 16 := 0
  phase : Phase := .idle
  step : Step := .none
  /-- The whole command of `step` has been written and its reply is awaited. -/
  sent : Bool := false
  /-- R, E, L and T_CLOSE of the last command sent (Table 03-3). -/
  r : Word := 0
  e : Word := 0
  l : Word := 0
  tClose : Word := 0
  /-- The card frame being received: TSOF, bits and collision mask in air order. -/
  tsof : Option Word := Option.none
  bits : List Bool := []
  mask : List Bool := []
  teof : Option Word := Option.none
  /-- A card frame was reported in this round (R92). -/
  roundFrame : Bool := false
  /-- The frame being sent: symbol groups still to be queued as CONT items, its profile, the start of its first symbol, the
  symbols queued. -/
  txLeft : List (List (BitVec 2)) := []
  prof : Byte := 0
  txStart : Word := 0
  txSent : Nat := 0
  txEof15 : Bool := false
  /-- Type A anticollision: level, known bits, bits of the levels done, positions resolved with their values on the path to this
  card and to the one before (R104), ATQA, SAK. -/
  level : Nat := 1
  known : List Bool := []
  levels : List (List Bool) := []
  path : List (Nat × Bool) := []
  lastPath : List (Nat × Bool) := []
  atqa : Bytes := []
  sak : Byte := 0
  /-- Type B: N, slot, a collided slot seen, sequences run, the ATQB. -/
  bN : Nat := 1
  bSlot : Nat := 1
  bColl : Bool := false
  bSeqs : Nat := 0
  atqb : Bytes := []
  /-- ISO/IEC 15693: mask, slot, masks of this sequence's collided slots, masks still to run, UID. -/
  vMask : List Bool := []
  vSlot : Nat := 0
  vColl : List (List Bool) := []
  vTodo : List (List Bool) := []
  vUid : Bytes := []
  /-- ISO/IEC 14443-4. -/
  iso4 : Bool := false
  bn : Bool := false
  cidUsed : Bool := false
  nadUsed : Bool := false
  cid : BitVec 4 := 0
  cardCid : Bool := false
  cardNad : Bool := false
  fsc : Nat := 32
  fsdi : BitVec 4 := 0
  fwi : Nat := 4
  sfgi : Nat := 0
  rate : Nat := 0
  wantRate : Nat := 0
  wtxm : Nat := 1
  ans : Bytes := []
  /-- TX bytes not yet sent, NAD, the last block's INF with its chaining and NAD bits, blocks received, bytes placed. -/
  txRest : Bytes := []
  nad : Byte := 0
  lastInf : Bytes := []
  /-- The block number that the last I-block carried. -/
  lastBn : Bool := false
  lastChain : Bool := false
  lastNad : Bool := false
  rxChain : Nat := 0
  rxOff : Nat := 0
  oversize : Bool := false
  /-- Profile state: the profile that a POLL named, the one in force, the passes left in the round, the pass that runs. -/
  named : Option Nat := Option.none
  profile : Nat := 2
  passes : List Tech := []
  tech : Tech := .none
  cfg : PollCfg := {}
  cards : Nat := 0
  empty : Nat := 0
  haltedA : Bool := false
  haltedB : Bool := false
  removal : Bool := false
  /-- A POLL has replaced the profile from the next round on (R93). -/
  repoll : Bool := false
  /-- T of the last REQA or WUPA (R91); end of what was last on the air; earliest T of the next command. -/
  lastReq : Option Word := Option.none
  quiet : Word := 0
  notBefore : Option Word := Option.none
  /-- STATUS of the PROFILE_END that is due. -/
  endStatus : BitVec 16 := 0
  /-- Retries used in this step, per limit of Table 03-7. -/
  rTimeout : Nat := 0
  rTrans : Nat := 0
  rTiming : Nat := 0
  rProto : Nat := 0
  rBcc : Nat := 0
  rLate : Nat := 0
  rIso4 : Nat := 0
  /-- The limits of this step (Tables 03-17 and 04-2), read when it starts. -/
  limTimeout : Nat := 1
  limTrans : Nat := 1
  limLate : Nat := 1
  limIso4 : Nat := 2
  /-- ARG of the command in progress. -/
  arg : BitVec 16 := 0
  wakeCause : BitVec 2 := 0
  /-- CARD_FOUND events not yet counted in the SAVE_ON_FAIL values (R366). -/
  tick : Nat := 0
  deriving DecidableEq, Repr

/-- The port page from offset 0x010 (Tables 03-8 to 03-12). -/
structure Page where
  cmd : Word := 0
  cmdArg : Word := 0
  cmdRes : Word := 0
  busy : Bool := false
  op : Byte := 0
  evqWr : BitVec 16 := 0
  evqRd : BitVec 16 := 0
  evqLost : BitVec 16 := 0
  rxLen : Word := 0
  fence : BitVec 16 := 0
  errcnt : Word := 0
  lastTsof : Word := 0
  ring : Vector Bytes 16 := Vector.replicate 16 []
  /-- Card record, TX area and RX area: canonical sparse bytes over offsets 0x140 to 0xFFF. -/
  mem : List Host.Cell := []
  deriving DecidableEq, Repr

/-- A reassignment of a port (Table 03-16): the old owner, whether it was forced, the epoch before it, the
frame B, and the events discarded. -/
structure PortMove where
  old : Option (Fin 128)
  forced : Bool
  epoch : BitVec 16
  frame : BitVec 24
  discarded : Nat
  deriving DecidableEq, Repr

/-- A change of owner or epoch that waits for the next frame boundary (R87): a slot's reset renews the epoch, the end of a
slot's life also frees the port. -/
inductive PortDue where
  | renew | free
  deriving DecidableEq, Repr

/-- The ping parameters in force at a port (Table 02-12), as its last ping frame latched them. -/
structure PingPar where
  interval : Nat := 250
  burst : Nat := 217
  ampTh : Nat := 8
  phsTh : Nat := 182
  shift : Nat := 4
  limit : Nat := 4
  deriving DecidableEq, Repr

/-- One sprig port with its page and context. -/
structure Port where
  genLimit : Bool := false
  antSel : Bool := false
  holdActive : Bool := false
  wakeEn : Bool := true
  autoRetrain : Bool := true
  en : Bool := false
  /-- HOLD_ACTIVE and WAKE_EN as the last boundary took them (R54), and GEN_LIMIT as the last training did (R58). -/
  hold : Bool := false
  wakeOn : Bool := true
  limited : Bool := false
  /-- EN, GEN_LIMIT and AUTO_RETRAIN as their DEV_REC record holds them (R385). -/
  recEn : Bool := false
  recGen : Bool := false
  recAuto : Bool := true
  /-- Requests of the next boundary (R54, R55). -/
  askRetrain : Bool := false
  askWake : Bool := false
  askRelease : Bool := false
  askPing : Bool := false
  askPoll : Bool := false
  askEnd : Bool := false
  /-- The lowest fault cause pending for the next boundary; 0 none (R57). -/
  pendCause : BitVec 3 := 0
  /-- The retrain delay has passed (R57). -/
  delayOver : Bool := false
  /-- Training has completed and IDLE_SENSE is due. -/
  trained : Bool := false
  state : PortState := .off
  cause : BitVec 3 := 0
  gen : BitVec 2 := 0
  delay : BitVec 7 := 0
  /-- The trained value of D (R33). -/
  delay0 : Int := 0
  ant : Bool := false
  evWake : Flag := {}
  evLate : Flag := {}
  evResend : Flag := {}
  evFault : Flag := {}
  evTrained : Flag := {}
  evHead : Flag := {}
  /-- Owner; a reassignment whose boundary B + 1 is still to come, until which the page is not mapped
  (Table 03-16). -/
  owner : Option (Fin 128) := none
  moved : Option PortMove := none
  due : Option PortDue := none
  /-- Uplink items that arrive belong to the old owner's exchange, until the port enters ACTIVE again; the events discarded with
  them that are still to be counted (Table 03-16). -/
  stale : Bool := false
  dropped : Nat := 0
  /-- Link. -/
  seq : BitVec 4 := 0
  out : Option DownData := none
  expect : BitVec 4 := 0
  ack : SprigAck := {}
  fails : Nat := 0
  lteFrame : Option Nat := none
  downq : List DownItem := []
  /-- The uplink queue: items with the frame of the window that carried them (R66). -/
  upq : List (Nat × UpItem) := []
  /-- An uplink window has been received in this frame. -/
  gotUp : Bool := false
  sent : Option DownWindow := none
  /-- The symbols that the device drives in this frame's downlink window; none while it holds the pair at high impedance (R29,
  R30). -/
  line : List (BitVec 10) := []
  /-- PROF of the last receive window put in a block: it says whether reports carry collision masks. -/
  rxProf : Byte := 0x10
  /-- The downlink window of this frame carried a DATA block with this TRY (R62, R70). -/
  view : Option (BitVec 2) := none
  stopDue : Bool := false
  canDue : Bool := false
  /-- The antenna of the last FLD on, which the FLD off names. -/
  offAnt : Bool := false
  /-- Training. -/
  trainStart : Nat := 0
  trainStep : Nat := 0
  gsel : BitVec 2 := 0
  good : Nat := 0
  head : HeadReport := {}
  badTrain : Nat := 0
  faultFrame : Nat := 0
  /-- Pings: baselines, seeding pings still to judge, frame of the last seeding ping, false wakes. -/
  base : Vector Baseline 2 := Vector.replicate 2 {}
  seeding : Nat := 0
  seedSum : Vector Baseline 2 := Vector.replicate 2 {}
  /-- Frame of the last ping sent, and the ping parameters in force (R51, R53). -/
  lastPing : Nat := 0
  ping : PingPar := {}
  falseWakes : Nat := 0
  pingWake : Bool := false
  /-- A run of bits from SOF without ERR is being reported; a complete card frame has been (R53). -/
  cardRun : Bool := false
  cardFrame : Bool := false
  page : Page := {}
  ctx : Ctx := {}
  /-- The frame whose slice has run (R60). -/
  sliceDone : Option Nat := none
  deriving DecidableEq, Repr

/-- The 512 ports and the device-wide frame count (R32). `phase` is the fc cycle within the frame. -/
structure Sprig where
  ports : Vector Port 512 := Vector.replicate 512 {}
  frame : BitVec 56 := 0
  phase : BitVec 8 := 0
  deriving DecidableEq, Repr

end Sys2Proof.Machine
end

