-- ==== Sys2Proof/Machine/Units/Store.lean ====
section
/-! DEFINITION. The main store as records (R343 to R375): what each identity holds, the granule map,
the rings, the save banks and the controller's queue. -/

namespace Sys2Proof.Machine

/-- The identity of a record (R352): OWNER (0xFE the device), class, TAG. -/
structure RecId where
  owner : Byte
  cls : BitVec 5
  tag : BitVec 16
  deriving DecidableEq, Repr

/-- One written version of a record (Table 15-4). `commit`: the commit word is present; `crc`: the
CRC-32C matches. -/
structure Copy where
  seq : BitVec 48 := 0
  secret : Bool := false
  del : Bool := false
  nctr : BitVec 64 := 0
  body : Bytes := []
  commit : Bool := true
  crc : Bool := true
  deriving DecidableEq, Repr

/-- A JOURNAL version: its granule and its offset there (R355). -/
structure JEntry where
  id : RecId
  granule : Nat
  off : Nat
  copy : Copy
  deriving DecidableEq, Repr

/-- A DUAL pair: its granule and number there, its size code (2 to 5 for Z of 64, 256, 1,024, 2,048) and the copies in
slots A and B (R357, R358). -/
structure DPair where
  id : RecId
  granule : Nat
  idx : Nat
  size : Nat
  a : Option Copy := none
  b : Option Copy := none
  deriving DecidableEq, Repr

/-- A granule of the record journals (R361): OWNER 0xFF is free; KIND 0 free, 1 journal, 2 to 5 DUAL. -/
structure Granule where
  owner : Byte := 0xFF
  kind : Nat := 0
  deriving DecidableEq, Repr

/-- A write the controller has taken from a tenant (R347, R364). -/
structure PendingWrite where
  id : RecId
  del : Bool := false
  body : Bytes := []
  slot : Fin 128
  deriving DecidableEq, Repr

/-- An event log entry (Table 15-11). -/
structure LogEntry where
  seq : BitVec 48
  code : Byte
  sub : Byte
  rtc : BitVec 48
  boot : BitVec 16
  data : Bytes
  deriving DecidableEq, Repr

/-- A save bank (R367). -/
structure SaveBank where
  seq : BitVec 48 := 0
  valid : Bool := false
  vals : List (BitVec 64) := []
  deriving DecidableEq, Repr

/-- The stored partition table against the layout that is built in (R349): equal to it, lost, or another. -/
inductive PTable where
  | good | lost | differs
  deriving DecidableEq, Repr

/-- The power-down commit record (Table 15-3, PDC). -/
structure Pdc where
  boot : BitVec 64
  bank : BitVec 48
  dur : BitVec 16
  backstop : Bool
  deriving DecidableEq, Repr

/-- The carry-over seed (Table 16-3). -/
structure Carry where
  seed : Bytes
  boot : BitVec 64
  rtc : BitVec 48
  reason : Byte
  deriving DecidableEq, Repr

/-- The main store and its controller. Fields down to `epochs` survive a main-side reset. -/
structure Store where
  journal : List JEntry := []
  dual : List DPair := []
  granules : List Granule := List.replicate 512 {}
  /-- The next SEQ of each owner's JOURNAL identities (R356). -/
  journalSeq : List (Byte × BitVec 48) := []
  log : List LogEntry := []
  logSeq : BitVec 48 := 0
  bankA : SaveBank := {}
  bankB : SaveBank := {}
  pdc : Option Pdc := none
  carry : Option Carry := none
  /-- BOOT record: bits [47:0] of the boot counter; none where it reads as lost (R381). -/
  bootRec : Option (BitVec 48) := some 0
  /-- The stored partition table (R349). -/
  ptable : PTable := .good
  /-- The first start in PROVISIONING, which zeroes the main store, is still to come (R344). -/
  zeroDue : Bool := false
  /-- Reservation of the nonce counter (R353). -/
  nctrRes : BitVec 64 := 0
  /-- Slot epochs, port epochs and Bay channel epochs (EPOCH record). -/
  slotEpoch : Vector (BitVec 16) 128 := Vector.replicate 128 1
  portEpoch : Vector (BitVec 16) 512 := Vector.replicate 512 1
  chanEpoch : Vector (BitVec 16) 4 := Vector.replicate 4 1
  /-- The BBK that gave the keys under which the macro's ciphertexts were made: the last one written (R16, R17). -/
  sealBbk : BitVec 256 := 0
  /-- The reference-cell check of the macro passes (R371). -/
  cellOk : Bool := true
  /-- The read-back of a write compares equal (R345); false while the macro fails its writes. -/
  writeOk : Bool := true
  /-- Volatile from here on: the nonce counter in use. -/
  nctr : BitVec 64 := 0
  vals : Vector (BitVec 64) 4096 := Vector.replicate 4096 0
  queue : List PendingWrite := []
  refreshPage : BitVec 16 := 0
  readsLost : BitVec 32 := 0
  parityRejects : BitVec 32 := 0
  /-- Identities whose loss has been logged since the main-side reset (R360). -/
  lostLogged : List RecId := []
  /-- Copies rejected for parity and already reported (R359): identity and SEQ. -/
  parityLogged : List (RecId × BitVec 48) := []
  ptableAwait : Bool := false
  /-- Save: the SEQ that names the bank written by the save in progress. -/
  saveBankSeq : Option (BitVec 48) := none
  deriving DecidableEq, Repr

end Sys2Proof.Machine
end

