-- ==== Sys2Proof/Machine/Units/Tag.lean ====
section
/-! DEFINITION. The tag island, the tag window and its arbiter (R120 to R150). -/

namespace Sys2Proof.Machine

/-- ISO/IEC 14443-3 card states (R123); `active` also holds the layer-4 protocol once RATS is answered. -/
inductive TagL3 where
  | idle | ready | active | halt
  deriving DecidableEq, Repr

/-- Applications of Table 05-11. -/
inductive TagApp where
  | none | inspector | ndef
  deriving DecidableEq, Repr

/-- The files of the NDEF application (R148). -/
inductive TagFile where
  | none | cc | ndef
  deriving DecidableEq, Repr

/-- A command APDU as layer 4 delivers it (R148): the row gives the INS, or `ins` one that no row has. `blocks` is
the number of I-blocks that carried it, `cid` the CID they carried, `nad` whether one carried a NAD. `lastBit` is the
last bit of the last frame and `n` the first grid step at which the answer is ready (R126). -/
structure Apdu where
  cla : Byte := 0x80
  ins : Option Byte := none
  p1 : Byte := 0
  p2 : Byte := 0
  data : Bytes := []
  /-- Le: none for no Le field, 0 for 256 (short). -/
  le : Option Byte := some 0
  blocks : Nat := 1
  cid : Option (BitVec 4) := none
  nad : Bool := false
  lastBit : Bool := true
  n : Nat := 9
  deriving DecidableEq, Repr

/-- The memory part of a field command (R143): a read of `len` bytes whose answer follows `pre`, or the
write of an acknowledgement. -/
inductive FieldJob where
  | read (pre : Bytes) (off len : Nat)
  | putAck (slot : Nat) (seq : BitVec 48) (ack : Bytes)
  deriving DecidableEq, Repr

/-- What the main side asks the arbiter for, granule by granule (R143): a read of the window for the host with the
bytes it has, the processed marker, the identity rows with the outcome of their writing, or the update that runs. -/
inductive MainJob where
  | read (off len : Nat) (got : Bytes)
  | marker (q : BitVec 48)
  | identity (ok : Bool)
  | update
  deriving DecidableEq, Repr

/-- Who holds the current granule (R146). -/
inductive Holder where
  | none | field | main
  deriving DecidableEq, Repr

/-- A host update that has not started (R142): configuration bytes, site area, and whether it has been
answered TAGW_DEFERRED. -/
structure HostUpdate where
  cfg : Bytes
  site : Bytes
  deferred : Bool := false
  deriving DecidableEq, Repr

/-- The window update that runs (R140): the bank and GEN it writes, the image from offset 0x0010 on, how many of its
granules have ended (1 to clear, 44 to write, 44 to read back, R145), whether this is the one rewrite, whether it
carries a host update, and whether that was answered TAGW_DEFERRED. -/
structure TagUpdate where
  bank : Bool
  gen : Word
  image : Bytes
  step : Nat := 0
  again : Bool := false
  host : Bool := false
  deferred : Bool := false
  deriving DecidableEq, Repr

/-- The tag island, the window and what the supervisor keeps for it. -/
structure Tag where
  /-- The 64 KiB store macro: canonical sparse bytes (R128). Non-volatile. -/
  mem : List Host.Cell := []
  /-- The island runs; V_ST as last measured, in units of 10 mV (R121, R150). -/
  running : Bool := false
  vst : Nat := 0
  /-- A field is present; a session is open (R122). -/
  field : Bool := false
  session : Bool := false
  l3 : TagL3 := .idle
  /-- READY or ACTIVE was entered from HALT, which an error then leads back to (ISO/IEC 14443-3, log 5). -/
  star : Bool := false
  /-- Cascade level reached in READY (1, or 2 after the level-1 SELECT of a fixed UID). -/
  level : Nat := 1
  /-- The mode and UID drawn at the start of the session (R124). -/
  random : Bool := false
  rid : BitVec 24 := 0
  /-- Layer 4: RATS answered, PPS still allowed, bit rate index, reader's FSD, CID (R125, R127). -/
  iso4 : Bool := false
  ppsDue : Bool := false
  /-- RATE_MAX behind the TA(1) that was sent. -/
  ppsMax : Nat := 0
  rate : Nat := 0
  fsd : Nat := 256
  cid : BitVec 4 := 0
  bn : Bool := true
  /-- The last block sent, and the rest of a chained response (R127). -/
  lastBlock : Bytes := []
  txRest : Bytes := []
  /-- The R(ACK)s sent for the chained I-blocks of the last command (R127). -/
  acks : List Bytes := []
  /-- The frame last sent on the air (none: silence), the bits of it that the reader knew already
  (anticollision), and its delay in fc after the reader's last pause (R126). -/
  reply : Option Bytes := none
  replySkip : Nat := 0
  replyDelay : Nat := 0
  app : TagApp := .none
  file : TagFile := .none
  /-- The latch (R144): the bank, none for a blank window. -/
  latch : Option (Option Bool) := none
  /-- GEN at a release for idle or maximum time (R144). -/
  releasedGen : Option Word := none
  /-- 6F03 answers every command until a SELECT (R144). -/
  changed : Bool := false
  /-- The reply of a field command is not ready yet; the CID its answer carries, the reader's last bit and the grid
step at which it is ready (R126); whether nothing is answered any more, since layer 4 has closed. -/
  job : Option FieldJob := none
  jobCid : Option (BitVec 4) := none
  jobLast : Bool := true
  jobN : Nat := 9
  jobQuiet : Bool := false
  /-- Arbiter (R143, R144, R146), and the main side's jobs in their order: the first one is at the arbiter (R145). -/
  holder : Holder := .none
  fieldCount : Nat := 0
  mainJobs : List MainJob := []
  maxWait : Byte := 0
  /-- The image that the supervisor keeps (R140): site area, configuration bytes, Bay's last summary record
  and the ring records published with it, newest first. -/
  site : Bytes := []
  cfg : Bytes := [0, 0, 0]
  summary : Bytes := []
  logCopy : List Bytes := []
  /-- An update without a host request is due: Bay's summary, or a start (R141). -/
  due : Bool := false
  hostDue : Option HostUpdate := none
  update : Option TagUpdate := none
  /-- The identity rows await writing, and TAG_FAULT has said so since the main-side start (R134). -/
  rowsAwait : Bool := false
  rowsTold : Bool := false
  /-- The supervisor has yet to ask Bay for the fresh summary of this main-side start (R141). -/
  askDue : Bool := true
  /-- The inbox record handed to Bay whose PSEQ is not yet written: its SEQ (R139). -/
  inboxBusy : Option (BitVec 48) := none
  /-- Bay's answer to it (Table 08-13, TAG_INBOX), until the supervisor takes it. -/
  inboxAnswer : Option Byte := none
  deriving DecidableEq, Repr

end Sys2Proof.Machine
end

