-- ==== Sys2Proof/Machine/Units/Tenant.lean ====
section
/-! DEFINITION. Tenant slots, their mailboxes and the tenant cores (R213 to R266). -/

namespace Sys2Proof.Machine

/-- Slot states, coded as Table 07-42. -/
inductive SlotState where
  | free | assigned | running | quiescing | quiesced | retired
  deriving DecidableEq, Repr

/-- The staged resources of a slot (Table 09-5), in the order of their parameter numbers. -/
structure Resources where
  weight : Nat := 0
  sram : Nat := 0
  store : Nat := 0
  kct : Nat := 0
  cipher : Nat := 0
  drbg : Nat := 0
  pke : Nat := 0
  class0 : Nat := 0
  ports : Vector Word 16 := Vector.replicate 16 0
  deriving DecidableEq, Repr

/-- A staged image (R235): its size by its header, and the pieces written, newest first. -/
structure Staged where
  size : Nat
  pieces : List (Nat × Bytes)
  deriving DecidableEq, Repr

/-- An apply in progress: record committed, waiting for its boundary (R225). -/
structure Apply where
  force : Bool
  target : Resources
  deriving DecidableEq, Repr

/-- A retirement record (R233). -/
structure Retirement where
  tenant : BitVec 64
  member : BitVec 14
  slot : Byte
  digest : Bytes
  deriving DecidableEq, Repr

/-- A quiesce in progress (R228): jobs aborted and ports closed so far. -/
structure Quiesce where
  jobs : Nat := 0
  ports : Nat := 0
  deriving DecidableEq, Repr

/-- A supervisor notice (Table 09-10): its code and the body after the code byte. -/
structure Notice where
  code : Byte
  body : Bytes
  deriving DecidableEq, Repr

/-- An inbound descriptor and the body it names (Table 10-6). -/
structure InEntry where
  kind : Byte := 0
  cls : Byte := 0
  len : BitVec 16 := 0
  offset : Word := 0
  tag : Word := 0
  /-- Ring bytes that the entry takes, a skipped tail included (R253). -/
  used : Nat := 0
  deriving DecidableEq, Repr

/-- An outbound descriptor (Table 10-7). -/
structure OutEntry where
  tag : Word := 0
  cls : Byte := 0
  len : BitVec 16 := 0
  addr : Word := 0
  deriving DecidableEq, Repr

/-- The mailbox page (Table 10-5); PEND is computed from the port pages. -/
structure Mailbox where
  ringBase : Word := 0
  ringSize : Word := 0
  inWr : BitVec 16 := 0
  inRd : BitVec 16 := 0
  outWr : BitVec 16 := 0
  outRd : BitVec 16 := 0
  inPos : Word := 0
  errWrites : BitVec 16 := 0
  errDrops : BitVec 16 := 0
  ins : Vector InEntry 16 := Vector.replicate 16 {}
  outs : Vector OutEntry 16 := Vector.replicate 16 {}
  notes : Vector Bytes 16 := Vector.replicate 16 []
  /-- Notices waiting for an entry (R238), and how many were dropped. -/
  noteQueue : List Notice := []
  notesLost : Nat := 0
  deriving DecidableEq, Repr

/-- A tenant region of the MPU (R259): access 0 none, 1 read, 3 read and write. -/
structure Region where
  base : Word
  last : Word
  access : Nat
  deriving DecidableEq, Repr

/-- How a slot waits (R248, R364). -/
structure WaitState where
  mask : BitVec 4
  us : Word
  deriving DecidableEq, Repr

/-- One tenant slot. -/
structure Slot where
  state : SlotState := .free
  tenantId : BitVec 64 := 0
  authHash : Bytes := []
  role : Byte := 0xFF
  version : Word := 0
  importing : Bool := false
  run : Resources := {}
  stage : Resources := {}
  /-- The committed image, from the start of its header (Table 09-9), and the staged one. -/
  image : Option Bytes := none
  staged : Option Staged := none
  /-- The committed image passes its check (R386). -/
  imageOk : Bool := true
  /-- The next start is cold (R227). -/
  cold : Bool := true
  /-- The slot was RUNNING before the reset and waits for the supervisor's cold start (R386). -/
  restart : Bool := false
  /-- The last reset stopped the slot, and its change to QUIESCED is still to be told (R216, Table 09-4). -/
  stopped : Bool := false
  apply : Option Apply := none
  removing : Bool := false
  retired : Option Retirement := none
  quiesce : Option Quiesce := none
  mbox : Mailbox := {}
  /-- Class-0 messages accepted and not yet taken: the IN_WR value of each (R198). -/
  class0 : List (BitVec 16) := []
  /-- Data window contents, canonical sparse form over offsets from 0x1000_0000. -/
  sram : List Host.Cell := []
  stopCause : Byte := 0
  stopCount : BitVec 16 := 0
  stopEpc : Word := 0
  stopTval : Word := 0
  splits : Word := 0
  regions : Vector (Option Region) 4 := Vector.replicate 4 none
  /-- Saved integer registers x1 to x31, program counter and counters (R242). -/
  regs : Vector Word 31 := Vector.replicate 31 0
  pc : Word := 0
  cycle : BitVec 64 := 0
  instret : BitVec 64 := 0
  /-- Virtual time (R243), as a multiple of 64 ÷ `vUnit`. -/
  vtime : Nat := 0
  waiting : Option WaitState := none
  /-- A store or KCT call keeps the slot waiting (R364). -/
  inCall : Bool := false
  /-- A job completed since the last return from WAIT (R248). -/
  jobDone : Bool := false
  /-- Core time since the last environment call, in microseconds (R262). -/
  sinceCall : Nat := 0
  deriving DecidableEq, Repr

/-- A core's MPU (Tables 10-11 to 10-16). -/
structure Mpu where
  en : Bool := false
  faults : BitVec 16 := 0
  ignored : BitVec 16 := 0
  faultAddr : Word := 0
  faultInfo : Word := 0
  rbase : Vector Word 16 := Vector.replicate 16 0
  rlim : Vector Word 16 := Vector.replicate 16 0
  deriving DecidableEq, Repr

/-- A memory access of a core (Table 10-14). -/
inductive AccessKind where
  | load | store | fetch
  deriving DecidableEq, Repr

/-- What a core raises (R247, R257, R261, R262): an access of user mode or of machine mode, which the MPU judges; an illegal
instruction word; a misaligned jump target; a breakpoint with the `mtval` that it reports; an environment call by its function
number. -/
inductive TenantTrap where
  | access (kind : AccessKind) (addr : Word) (size : Fin 5)
  | machine (kind : AccessKind) (addr : Word) (size : Fin 5)
  | call (fn : Word)
  | illegal (instr : Word)
  | misaligned (target : Word)
  | breakpoint (tval : Word)
  deriving DecidableEq, Repr

/-- One tenant core. -/
structure Core where
  slot : Option (Fin 128) := none
  urgent : Bool := false
  rtcHi : Word := 0
  carrierHi : Word := 0
  mpu : Mpu := {}
  deriving DecidableEq, Repr

/-- Slots, cores and the urgent queue (R245). -/
structure Tenants where
  slots : Vector Slot 128 := Vector.replicate 128 {}
  cores : Vector Core 8 := Vector.replicate 8 {}
  urgent : List (Fin 128) := []
  deriving DecidableEq, Repr

end Sys2Proof.Machine
end

