-- ==== Sys2Proof/Machine/Units/Treor.lean ====
section
/-! DEFINITION. The supervisor's Treor state (R189 to R212). -/

namespace Sys2Proof.Machine

/-- A request taken and not yet answered whose answer waits on another step (R195). -/
inductive WaitKind where
  | quiesce (slot : Fin 128)
  | remove (slot : Fin 128)
  | apply (slot : Fin 128)
  /-- A host update of the tag window that has not started, and one that runs (R142). -/
  | tagUpdate
  | tagRunning
  /-- A read of the tag window whose granules have not all ended (R143). -/
  | tagRead
  | bay (chan : Fin 4)
  | migrate (slot : Fin 128)
  | nonceDraw
  | rekey
  deriving DecidableEq, Repr

/-- An outstanding request: what the response must carry. -/
structure Waiting where
  what : WaitKind
  req : Req
  opcode : BitVec 16
  /-- The version in force when it was taken (R200). -/
  major : Byte := 2
  deriving DecidableEq, Repr

/-- Treor protocol state of the supervisor. -/
structure Treor where
  /-- Negotiated version, major 0 for none (R199). -/
  verMaj : Nat := 0
  verMin : Nat := 0
  hostCaps : Word := 0
  /-- A HELLO has succeeded since the main-side reset (Table 07-5). -/
  helloOk : Bool := false
  waiting : List Waiting := []
  /-- The administrator session: the index of its key (R203). -/
  session : Option (BitVec 2) := none
  nonce : Option Bytes := none
  fails : Nat := 0
  lockout : Bool := false
  /-- DEV_EVENTs discarded while the queue was full (R208). -/
  evLost : Nat := 0
  /-- Committed parameters that differ from their reset value: number, index, value (R210). -/
  params : List (Nat × Nat × Word) := []
  deriving DecidableEq, Repr

end Sys2Proof.Machine
end

