-- ==== Sys2Proof/Syntax.lean ====
section
/-! DEFINITION. The commands: one constructor for each row of spec/opcode_table.json, with the operands that
the outside world supplies (log 2). Each constructor names the rule that its row names. -/

namespace Sys2Proof

open Machine

/-- The commands of the block. -/
inductive Instr where
  /-- `MAIN_RESET_RELEASE`, R376. -/
  | mainResetRelease (pins : PowerUp)
  /-- `SUPPLY_LOSS`, R376. -/
  | supplyLoss (lv : Levels)
  /-- `RESET_N_ASSERT`, R378. -/
  | resetNAssert
  /-- `SUPERVISOR_IMAGE_START`, R379. -/
  | supervisorImageStart
  /-- `MAIN_RECALL_DONE`, R369. -/
  | mainRecallDone (ms : Nat) (lost : List Nat)
  /-- `SLOT_COLD_START`, R386. -/
  | slotColdStart (slot : Fin 128)
  /-- `TAGW_RECALL_DONE`, R142. -/
  | tagwRecallDone (ok rowsOk : Bool) (ms : Nat)
  /-- `START_SEED_REFRESH`, R388. -/
  | startSeedRefresh
  /-- `HOURLY_SAVE`, R367. -/
  | hourlySave
  /-- `POWER_FAIL_SAVE`, R394. -/
  | powerFailSave
  /-- `BACKSTOP_SAVE`, R392. -/
  | backstopSave
  /-- `SAVE_DONE`, R394. -/
  | saveDone (dur : BitVec 16)
  /-- `STORE_REFRESH`, R372. -/
  | storeRefresh
  /-- `NV_WP_RISE`, R134. -/
  | nvWpRise (rowsOk tableOk : Bool)
  /-- `FRAME_BOUNDARY`, R54. -/
  | frameBoundary
  /-- `UPLINK_BLOCK`, R37. -/
  | uplinkBlock (port : Fin 512) (w : UpWindow)
  /-- `TRAINING_COMPLETE`, R49. -/
  | trainingComplete (port : Fin 512)
  /-- `TRAINING_TIMEOUT`, R49. -/
  | trainingTimeout (port : Fin 512)
  /-- `DATA_BLOCK_UNDELIVERED`, R38. -/
  | dataBlockUndelivered (port : Fin 512)
  /-- `UPLINK_LOSS`, R39. -/
  | uplinkLoss (port : Fin 512)
  /-- `AUTO_RETRAIN_DELAY`, R57. -/
  | autoRetrainDelay (port : Fin 512)
  /-- `PING`, R51. -/
  | ping (port : Fin 512)
  /-- `PORT_ENABLE`, R55. -/
  | portEnable (port : Fin 512) (en : Bool)
  /-- `RETRAIN`, R55. -/
  | retrain (port : Fin 512)
  /-- `WAKE`, R55. -/
  | wake (port : Fin 512)
  /-- `RELEASE`, R55. -/
  | release (port : Fin 512)
  /-- `HOLD_ACTIVE`, R55. -/
  | holdActive (port : Fin 512) (on : Bool)
  /-- `THYME_SLICE`, R61. -/
  | thymeSlice (port : Fin 512)
  /-- `RECEIVE_TIMEOUT`, R74. -/
  | receiveTimeout (port : Fin 512)
  /-- `CMD_POLL`, R93. -/
  | cmdPoll (port : Fin 512)
  /-- `CMD_ACTIVATE`, R106. -/
  | cmdActivate (port : Fin 512)
  /-- `CMD_EXCHANGE`, R110. -/
  | cmdExchange (port : Fin 512)
  /-- `CMD_RAW`, R97. -/
  | cmdRaw (port : Fin 512)
  /-- `CMD_HALT`, R105. -/
  | cmdHalt (port : Fin 512)
  /-- `CMD_DESELECT`, R113. -/
  | cmdDeselect (port : Fin 512)
  /-- `CMD_ABORT`, R117. -/
  | cmdAbort (port : Fin 512)
  /-- `FIELD_GUARD_END`, R89. -/
  | fieldGuardEnd (port : Fin 512)
  /-- `TECH_GAP_END`, R90. -/
  | techGapEnd (port : Fin 512)
  /-- `RESET_OFF_END`, R117. -/
  | resetOffEnd (port : Fin 512)
  /-- `PROFILE_END`, R92. -/
  | profileEnd (port : Fin 512)
  /-- `EVQ_RD_WRITE`, R85. -/
  | evqRdWrite (port : Fin 512) (v : BitVec 16)
  /-- `APPLY_BOUNDARY`, R225. -/
  | applyBoundary (slot : Fin 128)
  /-- `PAGE_MAP_NEW_OWNER`, R88. -/
  | pageMapNewOwner (port : Fin 512)
  /-- `ISLAND_START`, R121. -/
  | islandStart (vst : Nat)
  /-- `ISLAND_RESET`, R121. -/
  | islandReset (rows : Nat)
  /-- `FIELD_DETECTED`, R122. -/
  | fieldDetected
  /-- `FIELD_LOSS_TIMEOUT`, R122. -/
  | fieldLossTimeout
  /-- `TAG_REQA`, R123. -/
  | tagReqa
  /-- `TAG_WUPA`, R123. -/
  | tagWupa
  /-- `TAG_ANTICOLLISION`, R123. -/
  | tagAnticollision (level : Nat) (known : List Bool) (lastBit : Bool)
  /-- `TAG_SELECT`, R123. -/
  | tagSelect (level : Nat) (uid : Bytes) (lastBit : Bool)
  /-- `TAG_HLTA`, R123. -/
  | tagHlta
  /-- `TAG_RATS`, R125. -/
  | tagRats (fsdi cid : BitVec 4) (lastBit : Bool) (n : Nat)
  /-- `TAG_PPS`, R125. -/
  | tagPps (cid dri dsi : BitVec 4) (lastBit : Bool) (n : Nat)
  /-- `TAG_S_DESELECT`, R127. -/
  | tagSDeselect (cid : Option (BitVec 4)) (lastBit : Bool) (n : Nat)
  /-- `TAG_WTX_TIMER`, R127. -/
  | tagWtxTimer (lastBit : Bool) (n : Nat)
  /-- `SELECT_BY_AID`, R147. -/
  | selectByAid (c : Apdu)
  /-- `SELECT_FILE`, R148. -/
  | selectFile (c : Apdu)
  /-- `READ_BINARY`, R148. -/
  | readBinary (c : Apdu)
  /-- `UPDATE_BINARY`, R148. -/
  | updateBinary (c : Apdu)
  /-- `GET_IDENTITY`, R148. -/
  | getIdentity (c : Apdu)
  /-- `GET_SUMMARY`, R148. -/
  | getSummary (c : Apdu)
  /-- `READ_LOG`, R148. -/
  | readLog (c : Apdu)
  /-- `PUT_ACK`, R137. -/
  | putAck (c : Apdu) (vst : Nat)
  /-- `INBOX_STATUS`, R148. -/
  | inboxStatus (c : Apdu)
  /-- `GRANULE_END`, R144. -/
  | granuleEnd (fails : List RowFail) (waited : Nat)
  /-- `LATCH_IDLE_EXPIRY`, R144. -/
  | latchIdleExpiry
  /-- `LATCH_MAX_EXPIRY`, R144. -/
  | latchMaxExpiry
  /-- `WINDOW_UPDATE_START`, R140. -/
  | windowUpdateStart
  /-- `WINDOW_UPDATE_COMMIT`, R140. -/
  | windowUpdateCommit (bad : List Nat) (waited : Nat)
  /-- `TAGW_DEFER_TIMEOUT`, R142. -/
  | tagwDeferTimeout
  /-- `INBOX_ACK_ANSWER`, R139. -/
  | inboxAckAnswer
  /-- `LINK_TRAINING_SET`, R155. -/
  | linkTrainingSet (side : LinkSide) (lane : Fin 4) (set : LaneSyms) (count : Nat)
  /-- `LINK_TRAINING_TIMEOUT`, R155. -/
  | linkTrainingTimeout (side : LinkSide)
  /-- `LINK_RATE_TIMEOUT`, R155. -/
  | linkRateTimeout (side : LinkSide)
  /-- `LINK_BLOCK`, R161. -/
  | linkBlock (side : LinkSide) (rx : List LaneSyms)
  /-- `REG_BLOCK`, R170. -/
  | regBlock
  /-- `ENUM_BLOCK`, R171. -/
  | enumBlock
  /-- `LCW_ACK`, R162. -/
  | lcwAck (side : LinkSide) (rx : List LaneSyms)
  /-- `LCW_NAK`, R162. -/
  | lcwNak (side : LinkSide) (rx : List LaneSyms)
  /-- `RESEND_TIMER`, R162. -/
  | resendTimer (side : LinkSide)
  /-- `LCW_SEND_TIMER`, R160. -/
  | lcwSendTimer (side : LinkSide)
  /-- `BLOCK_SENT`, R166. -/
  | blockSent (side : LinkSide) (atEnd : Bool) (latency : Nat)
  /-- `LANE_ERROR_RETRAIN`, R165. -/
  | laneErrorRetrain (side : LinkSide) (lane : Fin 4)
  /-- `LANE_FAIL`, R165. -/
  | laneFail (side : LinkSide) (lane : Fin 4)
  /-- `HOST_ORDERED_RETRAIN`, R178. -/
  | hostOrderedRetrain (side : LinkSide) (late : Bool)
  /-- `W1C_CLEAR`, R6. -/
  | w1cClear (r : RegAddr) (v : Word) (simultaneous : Word)
  /-- `CLEARING_READ`, R7. -/
  | clearingRead (r : RegAddr)
  /-- `HRB_IEN_WRITE`, R182. -/
  | hrbIenWrite (bank : Fin 3) (v : Word)
  /-- `RTC_LO_READ`, R187. -/
  | rtcLoRead
  /-- `CARRIER_READ`, R251. -/
  | carrierRead (core : Fin 8)
  /-- `REGISTER_WRITE`, R5. -/
  | registerWrite (r : RegAddr) (v : Word)
  /-- `HELLO`, R199. -/
  | hello (r : Req)
  /-- `ECHO`, R205. -/
  | echo (r : Req)
  /-- `DEV_INFO`, R205. -/
  | devInfo (r : Req)
  /-- `ADMIN_CHALLENGE`, R203. -/
  | adminChallenge (r : Req)
  /-- `ADMIN_OPEN`, R203. -/
  | adminOpen (r : Req)
  /-- `ADMIN_LOCKOUT`, R203. -/
  | adminLockout (r : Req)
  /-- `ADMIN_LOCKOUT_END`, R203. -/
  | adminLockoutEnd
  /-- `ADMIN_CLOSE`, R203. -/
  | adminClose (r : Req)
  /-- `ADMIN_IDLE_TIMEOUT`, R203. -/
  | adminIdleTimeout
  /-- `PARAM_GET`, R209. -/
  | paramGet (r : Req)
  /-- `PARAM_SET`, R210. -/
  | paramSet (r : Req)
  /-- `PARAM_LIST`, R209. -/
  | paramList (r : Req)
  /-- `SLOT_STATUS`, R205. -/
  | slotStatus (r : Req)
  /-- `SLOT_ASSIGN`, R240. -/
  | slotAssign (r : Req)
  /-- `SLOT_APPLY`, R223. -/
  | slotApply (r : Req)
  /-- `SLOT_DISCARD_STAGE`, R222. -/
  | slotDiscardStage (r : Req)
  /-- `SLOT_QUIESCE`, R228. -/
  | slotQuiesce (r : Req)
  /-- `QUIESCE_COMPLETE`, R228. -/
  | quiesceComplete (slot : Fin 128) (us : Word)
  /-- `QUIESCE_JOB_TIMEOUT`, R228. -/
  | quiesceJobTimeout (slot : Fin 128)
  /-- `SLOT_START`, R227. -/
  | slotStart (r : Req)
  /-- `SLOT_RESET`, R231. -/
  | slotReset (r : Req)
  /-- `SLOT_REMOVE`, R232. -/
  | slotRemove (r : Req)
  /-- `SLOT_REMOVE_DONE`, R232. -/
  | slotRemoveDone (slot : Fin 128)
  /-- `IMAGE_WRITE`, R235. -/
  | imageWrite (r : Req)
  /-- `IMAGE_COMMIT`, R235. -/
  | imageCommit (r : Req)
  /-- `MBX_SEND`, R237. -/
  | mbxSend (r : Req)
  /-- `MBX_IN_RD_WRITE`, R253. -/
  | mbxInRdWrite (slot : Fin 128) (v : BitVec 16)
  /-- `MBX_OUT_WR_WRITE`, R254. -/
  | mbxOutWrWrite (slot : Fin 128) (v : BitVec 16)
  /-- `STORE_STATUS`, R375. -/
  | storeStatus (r : Req)
  /-- `LOG_READ`, R375. -/
  | logRead (r : Req)
  /-- `MINT_STATUS`, R342. -/
  | mintStatus (r : Req)
  /-- `PORT_STATUS`, R205. -/
  | portStatus (r : Req)
  /-- `PORT_CTRL_ENABLE`, R206. -/
  | portCtrlEnable (r : Req)
  /-- `PORT_CTRL_DISABLE`, R206. -/
  | portCtrlDisable (r : Req)
  /-- `PORT_CTRL_RETRAIN`, R206. -/
  | portCtrlRetrain (r : Req)
  /-- `PORT_CTRL_GEN_LIMIT_SET`, R206. -/
  | portCtrlGenLimitSet (r : Req)
  /-- `PORT_CTRL_GEN_LIMIT_CLEAR`, R206. -/
  | portCtrlGenLimitClear (r : Req)
  /-- `PORT_CTRL_AUTO_RETRAIN_SET`, R206. -/
  | portCtrlAutoRetrainSet (r : Req)
  /-- `PORT_CTRL_AUTO_RETRAIN_CLR`, R206. -/
  | portCtrlAutoRetrainClr (r : Req)
  /-- `TAGW_READ`, R142. -/
  | tagwRead (r : Req)
  /-- `TAGW_UPDATE`, R142. -/
  | tagwUpdate (r : Req)
  /-- `TAGW_STATUS`, R142. -/
  | tagwStatus (r : Req)
  /-- `LC_STATUS`, R472. -/
  | lcStatus (r : Req)
  /-- `LC_TRANSITION_REQUEST`, R464. -/
  | lcTransitionRequest (r : Req) (stop : Option OtpStop)
  /-- `ADMIN_KEY_LIST`, R469. -/
  | adminKeyList (r : Req)
  /-- `DEBUG_TOKEN`, R475. -/
  | debugToken (r : Req)
  /-- `DEBUG_SESSION_EXPIRY`, R475. -/
  | debugSessionExpiry
  /-- `RTC_SET`, R455. -/
  | rtcSet (r : Req)
  /-- `BBK_REKEY`, R454. -/
  | bbkRekey (r : Req)
  /-- `TAMPER_LOG_READ`, R455. -/
  | tamperLogRead (r : Req)
  /-- `BAY_STATUS`, R434. -/
  | bayStatus (r : Req)
  /-- `BQT_STATUS`, R494. -/
  | bqtStatus (r : Req)
  /-- `BQT_JOIN`, R481. -/
  | bqtJoin (r : Req)
  /-- `BQT_LEAVE`, R481. -/
  | bqtLeave (r : Req)
  /-- `BQT_REVOKE`, R484. -/
  | bqtRevoke (r : Req)
  /-- `ENV_DELIVER`, R486. -/
  | envDeliver (r : Req)
  /-- `ENV_PART`, R491. -/
  | envPart (r : Req)
  /-- `ENV_CONFIRM`, R490. -/
  | envConfirm (r : Req)
  /-- `ENV_REFUSE`, R490. -/
  | envRefuse (r : Req)
  /-- `ENV_CANCEL`, R490. -/
  | envCancel (r : Req)
  /-- `MIGRATE_EXPORT`, R489. -/
  | migrateExport (r : Req)
  /-- `BAY_REQUEST`, R432. -/
  | bayRequest (r : Req)
  /-- `BAY_SUMMARY`, R433. -/
  | baySummary
  /-- `BAY_IDENTITY`, R432. -/
  | bayIdentity
  /-- `BAY_READ`, R432. -/
  | bayRead
  /-- `BAY_CONFIRM`, R420. -/
  | bayConfirm
  /-- `BAY_NONCE`, R432. -/
  | bayNonce
  /-- `BAY_SEAL`, R424. -/
  | baySeal
  /-- `BAY_STAGE`, R432. -/
  | bayStage
  /-- `BAY_CONFIG_COMMIT`, R428. -/
  | bayConfigCommit
  /-- `BAY_FW_COMMIT`, R429. -/
  | bayFwCommit
  /-- `BAY_APP`, R432. -/
  | bayApp
  /-- `BAY_APP_TIMEOUT`, R432. -/
  | bayAppTimeout
  /-- `BAY_ACK`, R430. -/
  | bayAck
  /-- `BAY_RESET_RELEASE`, R402. -/
  | bayResetRelease (mv : Nat) (sealHigh : Bool)
  /-- `BAY_POWER_LOW`, R403. -/
  | bayPowerLow (mv : Nat)
  /-- `BAY_PERIODIC_BANK`, R403. -/
  | bayPeriodicBank
  /-- `BAY_BRIDGE_START`, R431. -/
  | bayBridgeStart (ms : Nat)
  /-- `BAY_RECORD_ARRIVAL`, R431. -/
  | bayRecordArrival
  /-- `BAY_SUMMARY_INTERVAL`, R433. -/
  | baySummaryInterval
  /-- `BAY_WAIT`, R407. -/
  | bayWait (mask : BitVec 4) (us : Word)
  /-- `MEASURE`, R407. -/
  | measure (port addr : Word)
  /-- `RECDONE`, R407. -/
  | recdone
  /-- `BAY_TOTAL`, R407. -/
  | bayTotal (port : Word)
  /-- `BAY_TIME`, R407. -/
  | bayTime
  /-- `APP_RECV`, R407. -/
  | appRecv (dst room : Word)
  /-- `APP_REPLY`, R407. -/
  | appReply (src len : Word)
  /-- `CFG_READ`, R407. -/
  | cfgRead (off dst len : Word)
  /-- `BAY_FW_STOP`, R408. -/
  | bayFwStop (cause : Byte) (access : AccessKind) (pc mtval : Word)
  /-- `BAY_FW_RESTART`, R408. -/
  | bayFwRestart
  /-- `METER_PULSE`, R409. -/
  | meterPulse (n : Fin 64) (a b : Bool)
  /-- `METER_UART_BYTE`, R409. -/
  | meterUartByte (n : Fin 64) (byte : Byte) (ok : Bool)
  /-- `FREQ_GATE_END`, R409. -/
  | freqGateEnd (n : Fin 64)
  /-- `MP_TX_WRITE`, R411. -/
  | mpTxWrite (n : Fin 64) (byte : Byte)
  /-- `TOTAL_INTERVAL`, R413. -/
  | totalInterval
  /-- `BAY_SIGN_DONE`, R417. -/
  | baySignDone
  /-- `BAY_TIME_CHECK`, R415. -/
  | bayTimeCheck (expected : BitVec 48)
  /-- `SEAL_PIN_CHANGE`, R423. -/
  | sealPinChange (high : Bool)
  /-- `BAY_STORE_REFRESH`, R420. -/
  | bayStoreRefresh
  /-- `WAIT`, R248. -/
  | wait (slot : Fin 128) (mask : Word) (us : Word)
  /-- `TENANT_WAKE`, R248. -/
  | tenantWake (slot : Fin 128) (cause : BitVec 4)
  /-- `WAIT_TIMEOUT`, R248. -/
  | waitTimeout (slot : Fin 128)
  /-- `YIELD`, R248. -/
  | yield (slot : Fin 128)
  /-- `REGION_SET`, R259. -/
  | regionSet (slot : Fin 128) (a0 a1 a2 a3 : Word)
  /-- `QUANTUM_END`, R244. -/
  | quantumEnd (core : Fin 8) (us n : Nat)
  /-- `TENANT_TRAP`, R262. -/
  | tenantTrap (slot : Fin 128) (pc : Word) (t : TenantTrap)
  /-- `TENANT_WATCHDOG`, R262. -/
  | tenantWatchdog (slot : Fin 128) (pc : Word)
  /-- `MPU_REGION_WRITE`, R260. -/
  | mpuRegionWrite (core : Fin 8) (n : Fin 16) (lim : Bool) (v : Word)
  /-- `REC_PUT`, R364. -/
  | recPut (slot : Fin 128) (a0 a1 a2 : Word)
  /-- `REC_GET`, R364. -/
  | recGet (slot : Fin 128) (a0 a1 a2 : Word)
  /-- `REC_DEL`, R364. -/
  | recDel (slot : Fin 128) (a0 : Word)
  /-- `STORE_USE`, R363. -/
  | storeUse (slot : Fin 128)
  /-- `VAL_ADD`, R366. -/
  | valAdd (slot : Fin 128) (a0 a1 : Word)
  /-- `VAL_GET`, R366. -/
  | valGet (slot : Fin 128) (a0 : Word)
  /-- `GENERATE`, R287. -/
  | generate (slot : Fin 128)
  /-- `UNWRAP`, R289. -/
  | unwrap (slot : Fin 128)
  /-- `WRAP`, R289. -/
  | wrap (slot : Fin 128)
  /-- `DERIVE`, R287. -/
  | derive (slot : Fin 128)
  /-- `DELETE`, R284. -/
  | delete (slot : Fin 128)
  /-- `RESTRICT`, R284. -/
  | restrict (slot : Fin 128)
  /-- `INFO`, R287. -/
  | info (slot : Fin 128)
  /-- `CTR_CREATE`, R288. -/
  | ctrCreate (slot : Fin 128)
  /-- `CTR_INCR`, R288. -/
  | ctrIncr (slot : Fin 128)
  /-- `CTR_READ`, R288. -/
  | ctrRead (slot : Fin 128)
  /-- `DUKPT_LOAD`, R290. -/
  | dukptLoad (slot : Fin 128)
  /-- `DUKPT_NEXT`, R291. -/
  | dukptNext (slot : Fin 128)
  /-- `KCT_OP_DONE`, R286. -/
  | kctOpDone (slot : Fin 128)
  /-- `LOAD_KEY`, R296. -/
  | loadKey (slot : Fin 128) (page : Fin 32)
  /-- `CIPHER_RUN`, R298. -/
  | cipherRun (slot : Fin 128) (page : Fin 32)
  /-- `CIPHER_CLEAR`, R294. -/
  | cipherClear (slot : Fin 128) (page : Fin 32)
  /-- `CIPHER_ABORT`, R308. -/
  | cipherAbort (slot : Fin 128) (page : Fin 32)
  /-- `CIPHER_SEGMENT_END`, R306. -/
  | cipherSegmentEnd (kind : CoreKind) (core : Fin 8)
  /-- `CIPHER_RUN_DONE`, R301. -/
  | cipherRunDone (slot : Fin 128) (page : Fin 32)
  /-- `CM_GENERATOR_RESEED`, R305. -/
  | cmGeneratorReseed
  /-- `EC_SIGN`, R311. -/
  | ecSign (slot : Fin 128) (cls : BitVec 2)
  /-- `EC_VERIFY`, R311. -/
  | ecVerify (slot : Fin 128) (cls : BitVec 2)
  /-- `EC_AGREE`, R311. -/
  | ecAgree (slot : Fin 128) (cls : BitVec 2)
  /-- `ED_SIGN`, R311. -/
  | edSign (slot : Fin 128) (cls : BitVec 2)
  /-- `ED_VERIFY`, R311. -/
  | edVerify (slot : Fin 128) (cls : BitVec 2)
  /-- `RSA_PUBLIC`, R311. -/
  | rsaPublic (slot : Fin 128) (cls : BitVec 2)
  /-- `RSA_PRIVATE`, R311. -/
  | rsaPrivate (slot : Fin 128) (cls : BitVec 2)
  /-- `EXT_GENERATE`, R316. -/
  | extGenerate (slot : Fin 128) (cls : BitVec 2)
  /-- `EXT_IMPORT`, R316. -/
  | extImport (slot : Fin 128) (cls : BitVec 2)
  /-- `PUBLIC_KEY`, R311. -/
  | publicKey (slot : Fin 128) (cls : BitVec 2)
  /-- `PKE_ABORT`, R313. -/
  | pkeAbort (slot : Fin 128)
  /-- `PKE_SLICE_END`, R319. -/
  | pkeSliceEnd (finished ok : Bool)
  /-- `HASH_INIT`, R322. -/
  | hashInit (slot : Fin 128) (halg : BitVec 4)
  /-- `HMAC_INIT`, R322. -/
  | hmacInit (slot : Fin 128) (vfy : Bool)
  /-- `HASH_UPDATE`, R322. -/
  | hashUpdate (slot : Fin 128)
  /-- `HASH_FINAL`, R322. -/
  | hashFinal (slot : Fin 128) (tlen : BitVec 7)
  /-- `HASH_ABORT`, R322. -/
  | hashAbort (slot : Fin 128)
  /-- `HASH_OP_DONE`, R323. -/
  | hashOpDone (slot : Fin 128)
  /-- `MINT_BLOCK_READY`, R326. -/
  | mintBlockReady (words : List (BitVec 64))
  /-- `MINT_STARTUP_TEST_END`, R329. -/
  | mintStartupTestEnd (fail : Option HealthFail) (dur : BitVec 16)
  /-- `HEALTH_FAILURE`, R332. -/
  | healthFailure (f : HealthFail)
  /-- `MINT_RESTART_TIMER`, R333. -/
  | mintRestartTimer
  /-- `DRBG_GENERATE`, R339. -/
  | drbgGenerate (slot : Fin 128) (page : Fin 4) (wait pr outreg : Bool)
  /-- `DRBG_RESEED`, R336. -/
  | drbgReseed (slot : Fin 128) (page : Fin 4) (wait : Bool)
  /-- `DRBG_ABORT`, R339. -/
  | drbgAbort (slot : Fin 128) (page : Fin 4)
  /-- `DRBG_WAIT_SERVED`, R336. -/
  | drbgWaitServed
  /-- `DRBG_WAIT_TIMEOUT`, R336. -/
  | drbgWaitTimeout
  /-- `TEST_SRC_ENABLE`, R341. -/
  | testSrcEnable (v : Word)
  /-- `TEST_SRC_DISABLE`, R341. -/
  | testSrcDisable (v : Word)
  /-- `MINT_RAW_READ`, R340. -/
  | mintRawRead (raw : BitVec 64)
  /-- `TAMPER_ALARM`, R441. -/
  | tamperAlarm (m : Mon) (raw : List Sample)
  /-- `BATTERY_MODE_ALARM`, R442. -/
  | batteryModeAlarm (m : Mon) (raw : List Sample)
  /-- `BUILTIN_TEST`, R445. -/
  | builtinTest (m : Mon) (out : TestOutcome)
  /-- `BATTERY_SOURCE_SWITCH`, R498. -/
  | batterySourceSwitch (main : Bool)
  /-- `BATTERY_DOMAIN_LOSS`, R446. -/
  | batteryDomainLoss
  /-- `CARRIER_LOCK_LOSS`, R500. -/
  | carrierLockLoss
  /-- `CARRIER_RELOCK`, R500. -/
  | carrierRelock
  /-- `CORE_LOCK_LOSS`, R501. -/
  | coreLockLoss
  /-- `CORE_RELOCK`, R501. -/
  | coreRelock
  /-- `TAP_RESET`, R476. -/
  | tapReset
  /-- `EXTEST`, R476. -/
  | extest (drive : List Bool)
  /-- `IDCODE`, R476. -/
  | idcode
  /-- `SAMPLE_PRELOAD`, R476. -/
  | samplePreload (capture load : List Bool)
  /-- `CLAMP`, R476. -/
  | clamp
  /-- `HIGHZ`, R476. -/
  | highz
  /-- `BYPASS`, R476. -/
  | bypass (ir : Byte)
  /-- `LCMB`, R477. -/
  | lcmb (func : BitVec 16) (payload : Bytes) (stop : Option OtpStop) (now : SupImage)
  /-- `IMAGE_LOAD`, R477. -/
  | imageLoad (payload : Bytes) (now : SupImage)
  /-- `DBG`, R474. -/
  | dbg (access : DbgAccess)
  /-- `SCAN`, R476. -/
  | scan
  /-- `ENROL`, R476. -/
  | enrol
  /-- `OTPW`, R476. -/
  | otpw (unitId uid mfg img : Bytes)
  /-- `LCPROG`, R476. -/
  | lcprog (stop : Option OtpStop)
  /-- `TAMPER_FILTER_RELEASE`, R439. -/
  | tamperFilterRelease (m : Mon) (raw : List Sample)
  /-- `BATTERY_DOMAIN_POWER_ON`, R446. -/
  | batteryDomainPowerOn (main : Bool)
  /-- `BAY_SUPPLY_LOSS`, R402. -/
  | baySupplyLoss (mv : Nat)
  /-- `DRBG_REQUEST_DONE`, R335. -/
  | drbgRequestDone
  /-- `STORE_COMMIT_DONE`, R347. -/
  | storeCommitDone (ok : Bool)
  /-- `TAG_R_BLOCK`, R127. -/
  | tagRBlock (nak : Bool) (bn : Bool) (cid : Option (BitVec 4)) (lastBit : Bool) (n : Nat)
  deriving DecidableEq, Repr

end Sys2Proof
end

