-- ==== Sys2Proof/Config.lean ====
section
/-! DEFINITION. What the spec leaves open, and the derivations it names without giving: free values, constants
without a body, of which no proof can see a value. -/

namespace Sys2Proof

/-- Byte `i` of random draw `n` (log 6): nothing constrains it. -/
opaque Config.randomByte : Nat → Nat → Byte
/-- The scalar that random data gives (R314, log 6): bits of the curve, data, attempt. -/
opaque Config.scalarFrom : Nat → Bytes → Nat → Nat
/-- MAJOR of an answer sent while no version is negotiated, by the request's MAJOR (log 7). -/
opaque Config.preHelloMajor : Byte → Byte

/-- The device unique key, from the OTP seed and helper data (R14, log 8). -/
opaque Config.duk : Bytes → Bytes → BitVec 256

/-- The derivation of DERIVE, which the spec does not give (log 11): class and key, label, byte number. -/
opaque Config.deriveByte : Nat → Bytes → Bytes → Nat → Byte
/-- The key usage of the standard that a 4-bit code names, and the usage bits that it implies (R291, log 12); none outside them. -/
opaque Config.dukptUsage : Nat → Option (Nat × BitVec 16)

/-- A prime of half the length that EXT_GENERATE draws (R314, R316, log 6): modulus length, data, the second of the two. -/
opaque Config.primeFrom : Nat → Bytes → Bool → Nat
/-- Bytes that a job cut short has written beyond whole segments (R308), by free-value number. -/
opaque Config.cutBytes : Nat → Nat

/-- Instructions that a slot retires in a quantum (log 13), by free-value number. -/
opaque Config.retired : Nat → Nat
/-- What `mtval` holds at an `ebreak` (log 67), by its address. -/
opaque Config.breakTval : Word → Word
/-- Core time in microseconds that a slot has run since it was last charged, where no command tells it (log 74), by free-value number. -/
opaque Config.ran : Nat → Nat

/-- The member public key of a bouquet's member that no certificate has shown yet (log 16): BQT_ID, member, byte number. -/
opaque Config.memberPub : Nat → Nat → Nat → Byte
/-- STATUS of a REFUSE that the spec does not give (log 17): 0 a part that does not parse, 1 a digest mismatch. -/
opaque Config.refuseStatus : Nat → BitVec 16

/-- Steps that the test pattern's register makes for each raw word, and the biased word of MODE 2 that it gives (R340,
log 15). -/
opaque Config.patternSteps : Nat
/-- The biased word. -/
opaque Config.patternBiased : BitVec 64 → BitVec 64

/-- The LFSR of the battery domain after it, which the spec does not give (R436, log 76). -/
opaque Config.patternNext : BitVec 32 → BitVec 32
/-- The bit of the pattern that a lane or loop of a number takes from it. -/
opaque Config.patternBit : BitVec 32 → Nat → Bool

/-- A countermeasure generator after it has mixed 32 bytes in (R305, log 19): what it held, the bytes, byte number. -/
opaque Config.mixGen : Bytes → Bytes → Nat → Byte

end Sys2Proof
end

