-- ==== Sys2Proof/Machine/Flags.lean ====
section
/-! DEFINITION. W1C flags with their REPEAT counts, and counter pairs (R6, R7, R179). -/

namespace Sys2Proof.Machine

/-- Hardware sets a flag (R6): REPEAT counts a set of a flag already set, up to 15. -/
def Flag.hit (f : Flag) : Flag :=
  if f.set then { f with rep := if f.rep = 15 then 15 else f.rep + 1 } else { f with set := true }

/-- A write of 1 (`w`) to a flag, with a hardware set in the same cycle (`sim`): the set wins (R6). -/
def Flag.clear (f : Flag) (w sim : Bool) : Flag :=
  if sim then f.hit else if w then { f with set := false } else f

/-- A read of the register returns and clears REPEAT (R6, R7). -/
def Flag.read (f : Flag) : Flag := { f with rep := 0 }

/-- `n` more on the first count (R179). -/
def Pair.incHi (p : Pair) (n : Nat := 1) : Pair := { p with hi := sat16 p.hi n }
/-- `n` more on the second count. -/
def Pair.incLo (p : Pair) (n : Nat := 1) : Pair := { p with lo := sat16 p.lo n }
/-- The register's value (Table 07-11). -/
def Pair.word (p : Pair) : Word := p.hi ++ p.lo

end Sys2Proof.Machine
end

