-- ==== Sys2Proof/Machine/State.lean ====
section
/-! DEFINITION. The whole state of the block, its faults and refusals, and the state after reset. -/

namespace Sys2Proof.Machine

/-- No command stops the block with a fault: every outcome the spec gives is a state. -/
inductive Fault where
  /-- Raised by nothing. Safe. -/
  | none
  deriving DecidableEq, Repr

/-- Why a command has no meaning. -/
inductive Refusal where
  /-- A row of the table without a meaning yet. Safe: the model stops. -/
  | notModelled (mnemonic : String)
  deriving DecidableEq, Repr

/-- The state: one structure per unit, the free-value counter, and the commands waiting. -/
structure State where
  power : Power := {}
  sprig : Sprig := {}
  link : Link := {}
  hrb : Hrb := {}
  treor : Treor := {}
  tenants : Tenants := {}
  kct : Kct := {}
  cipher : Cipher := {}
  pke : Pke := {}
  mint : Mint := {}
  store : Store := {}
  guard : Guard := {}
  lc : Lc := {}
  tag : Tag := {}
  bay : Bay := {}
  bqt : Bqt := {}
  /-- How many free values have been taken (the model's own). -/
  free : Nat := 0
  /-- Commands waiting, first in first out. -/
  pending : List Instr := []
  deriving DecidableEq, Repr

/-- The state after reset: every field at the value its structure gives. -/
def State.reset : State := {}

/-- What a meaning answers. -/
abbrev Res := Host.Outcome State Fault Refusal

end Sys2Proof.Machine
end

