-- ==== Sys2Proof/Machine/Params.lean ====
section
/-! DEFINITION. The parameter index (R211, Table 08-12) with the ranges and reset values of the tables it
names. -/

namespace Sys2Proof.Machine

/-- A parameter: its type (Table 08-11), scope (0 device, 1 tenant, 2 port), whether it is STAGED or
read-only, its allowed ranges and its reset value. -/
structure Param where
  type : Nat
  scope : Nat := 0
  staged : Bool := false
  readOnly : Bool := false
  ranges : List (Int × Int)
  reset : Int
  deriving DecidableEq, Repr

/-- MIN and MAX of a descriptor (Table 08-10). -/
def Param.min (p : Param) : Int := match p.ranges with | [] => 0 | (a, _) :: _ => a
/-- MAX. -/
def Param.max (p : Param) : Int := match p.ranges.getLast? with | none => 0 | some (_, b) => b

/-- A U8, U16 or U32 parameter of one range. -/
def Param.num (type scope : Nat) (lo hi reset : Int) : Param := { type, scope, ranges := [(lo, hi)], reset }
/-- A parameter that may be 0 as well as in a range. -/
def Param.orZero (type : Nat) (lo hi reset : Int) : Param := { type, ranges := [(0, 0), (lo, hi)], reset }

/-- The tamper parameters (Table 18-2), by number from 0x0800. -/
def tamperParam (n : Nat) : Option Param :=
  if n < 0x830 then some (.num 5 0 0 1 1)
  else if n < 0x860 then some (.num 2 0 1 10000 20)
  else if n < 0x8F0 then some (.num 5 0 0 1 1)
  else if n < 0x8FF then
    let r := (n - 0x8F0) / 3
    match (n - 0x8F0) % 3 with
    | 0 => match r with
      | 0 => some (.orZero 2 740 776 0)
      | 1 => some (.orZero 2 920 970 0)
      | 2 => some (.orZero 2 1620 1740 0)
      | 3 => some (.orZero 2 1650 1740 0)
      | _ => some (.orZero 2 1900 2200 2000)
    | 1 => match r with
      | 0 => some (.orZero 2 830 900 860)
      | 1 => some (.orZero 2 1040 1150 1100)
      | 2 => some (.orZero 2 1880 2100 1980)
      | 3 => some (.orZero 2 1880 2100 1980)
      | _ => some (.orZero 2 3700 4000 3800)
    | _ => some (.orZero 2 20 400 ([100, 120, 200, 200, 0].getD r 0))
  else if 0x900 ≤ n ∧ n < 0x90E then
    some { type := 2, ranges := [(0, 0), (1, 500)], reset := [20, 120, 50, 50, 50, 200, 150].getD ((n - 0x900) / 2) 0 }
  else if 0x910 ≤ n ∧ n < 0x920 then
    if n % 2 = 0 then some (.num 4 0 (-60) 0 (-50)) else some (.num 4 0 90 150 125)
  else if 0x920 ≤ n ∧ n < 0x930 then
    if n % 2 = 0 then some (.num 5 0 0 1 0) else some (.num 6 0 0 1 1)
  else if 0x930 ≤ n ∧ n < 0x93E then
    if n % 2 = 0 then some (.num 1 0 1 255 ([3, 2, 1, 2, 3, 2, 1].getD ((n - 0x930) / 2) 1))
    else some (.num 2 0 1 65535 ([1, 100, 1, 10, 5000, 20, 1].getD ((n - 0x930) / 2) 1))
  else if 0x940 ≤ n ∧ n < 0x947 then
    some (.num 6 0 0 3 ([3, 3, 3, 2, 1, 3, 2].getD (n - 0x940) 0))
  else if 0x948 ≤ n ∧ n < 0x94F then
    some { type := 2, ranges := [(0, 0), (60, 65535)], reset := if n = 0x94E then 0 else 3600 }
  else if n = 0x950 then some (.num 6 0 1 4 2)
  else none

/-- The parameter of a number (Table 08-12). -/
def param? (n : Nat) : Option Param :=
  if n = 0x0001 then some (.num 2 0 10 3600 300)
  else if n = 0x0002 then some (.num 2 0 1 600 10)
  else if n = 0x0100 then some (.num 2 2 32 2000 250)
  else if n = 0x0101 then some (.num 2 2 64 1024 217)
  else if n = 0x0102 then some (.num 1 2 1 64 8)
  else if n = 0x0103 then some (.num 2 2 0 4095 182)
  else if n = 0x0104 then some (.num 1 2 2 8 4)
  else if n = 0x0105 then some (.num 1 2 1 16 4)
  else if n = 0x0200 then some (.num 1 2 0 3 1)
  else if n = 0x0201 then some (.num 1 2 0 3 1)
  else if n = 0x0202 then some (.num 1 2 0 1 1)
  else if n = 0x0300 then some (.num 6 2 0 4 2)
  else if n = 0x0301 then some (.num 3 2 13560 135600 67800)
  else if n = 0x0302 then some (.num 3 2 1280 67800 6780)
  else if n = 0x0303 then some (.num 1 2 1 255 8)
  else if n = 0x0304 then some (.num 5 2 0 1 1)
  else if n = 0x0305 then some (.num 3 2 13560 271200 67800)
  else if n = 0x0306 then some (.num 5 2 0 1 1)
  else if n = 0x0307 then some (.num 1 2 0 255 0)
  else if n = 0x0308 then some { type := 6, scope := 2, ranges := [(1, 2), (4, 4), (8, 8), (16, 16)], reset := 1 }
  else if n = 0x0309 then some (.num 6 2 0 3 0)
  else if n = 0x030A then some (.num 1 2 0 3 2)
  else if n = 0x0400 then some (.num 2 0 100 10000 2000)
  else if n = 0x0401 then some (.num 3 0 1000 120000 30000)
  else if n = 0x0500 then some (.num 3 1 16 65536 256)
  else if 0x0510 ≤ n ∧ n < 0x0520 then
    some (.num 6 0 0 1 (if (n - 0x510) / 4 % 2 = 0 then 0 else 1))
  else if 0x0520 ≤ n ∧ n < 0x052E then
    some { type := 6, readOnly := true, ranges := [(0, 1)],
           reset := if n = 0x520 ∨ n = 0x523 ∨ n = 0x524 then 0 else 1 }
  else if 0x052E ≤ n ∧ n < 0x0530 then some { type := 6, readOnly := true, ranges := [(0, 0)], reset := 0 }
  else if n = 0x0600 then some (.num 3 0 1 16777216 65536)
  else if n = 0x0601 then some (.num 3 0 1 86400 3600)
  else if 0x0700 ≤ n ∧ n < 0x0708 then
    some { type := if n = 0x702 ∨ n = 0x703 then 2 else 1, scope := 1, staged := true,
           ranges := [(0, [64, 32, 512, 8192, 32, 3, 100, 32].getD (n - 0x700) 0)], reset := 0 }
  else if 0x0710 ≤ n ∧ n < 0x0720 then
    some { type := 3, scope := 1, staged := true, ranges := [(0, 0xFFFFFFFF)], reset := 0 }
  else if 0x0800 ≤ n ∧ n ≤ 0x0950 then tamperParam n
  else if n = 0x0A00 then some (.num 6 0 0 3 1)
  else if n = 0x0A01 then some (.num 6 0 0 3 2)
  else if n = 0x0B00 then some (.num 6 0 1 3 2)
  else if n = 0x0B01 then some (.orZero 2 60 65535 900)
  else if n = 0x0C00 then some (.num 5 0 0 1 1)
  else if n = 0x0C01 then some (.num 2 0 10 3600 300)
  else if n = 0x0C02 then some (.num 3 0 60 604800 86400)
  else if n = 0x0C03 then some (.num 6 0 1 3 2)
  else if n = 0x0D00 then some (.num 3 0 60 86400 3600)
  else none

/-- The rows of Table 08-12, first and last number: one PARAM record each (Table 15-5). -/
def paramRows : List (Nat × Nat) :=
  [(0x0001, 0x0001), (0x0002, 0x0002), (0x0100, 0x0105), (0x0200, 0x0202), (0x0300, 0x030A), (0x0400, 0x0401), (0x0500, 0x0500)] ++
  [(0x0510, 0x052F), (0x0600, 0x0601), (0x0700, 0x0707), (0x0710, 0x071F), (0x0800, 0x082F), (0x0830, 0x085F), (0x0860, 0x088F)] ++
  [(0x0890, 0x08BF), (0x08C0, 0x08EF), (0x08F0, 0x08FE), (0x0900, 0x090D), (0x0910, 0x091F), (0x0920, 0x092F), (0x0930, 0x093D)] ++
  [(0x0940, 0x0946), (0x0948, 0x094E), (0x0950, 0x0950), (0x0A00, 0x0A00), (0x0A01, 0x0A01), (0x0B00, 0x0B01), (0x0C00, 0x0C03)] ++
  [(0x0D00, 0x0D00)]

/-- The row of a parameter number, counted from 0 (log 73). -/
def paramRow (n : Nat) : Option Nat := paramRows.findIdx? fun r => decide (r.1 ≤ n ∧ n ≤ r.2)

/-- A parameter word as a number: sign-extended for S16 (R209). -/
def Param.val (p : Param) (w : Word) : Int := if p.type = 4 then w.toInt else w.toNat

/-- The word of a number. -/
def paramWord (v : Int) : Word := BitVec.ofInt 32 v

/-- A value that the type and the ranges allow (R209). -/
def Param.allows (p : Param) (w : Word) : Bool :=
  p.ranges.any fun (a, b) => decide (a ≤ p.val w ∧ p.val w ≤ b)

/-- The value held for a number and index in a sparse list, newest first. -/
def paramFind (l : List (Nat × Nat × Word)) (n i : Nat) : Option Word :=
  match l with
  | [] => none
  | (a, b, w) :: r => if a = n ∧ b = i then some w else paramFind r n i

/-- A value put into a sparse list of the values that differ from their reset value. -/
def paramPut (l : List (Nat × Nat × Word)) (n i : Nat) (w : Word) : List (Nat × Nat × Word) :=
  let l' := l.filter fun (a, b, _) => !(a == n && b == i)
  match param? n with
  | some p => if paramWord p.reset = w then l' else (n, i, w) :: l'
  | none => l'

/-- The value in force of a parameter that is not a tenant resource. -/
def State.param (s : State) (n : Nat) (i : Nat := 0) : Nat :=
  match paramFind s.treor.params n i with
  | some w => w.toNat
  | none => match param? n with
    | some p => (paramWord p.reset).toNat
    | none => 0

end Sys2Proof.Machine
end

