-- ==== Sys2Proof/Machine/Curve.lean ====
section
/-! DEFINITION. Elliptic curves: P-256, P-384 and P-521 with ECDSA (FIPS 186-5), X25519 (RFC 7748) and Ed25519 (RFC 8032), as
R311 and R315 name them (log 8). -/

namespace Sys2Proof.Machine

/-- x^e mod n, over the bits of e. -/
def powMod (x n : Nat) : Nat → Nat → Nat
  | 0, _ => 1 % n
  | f + 1, e =>
    let h := powMod (x * x % n) n f (e / 2)
    if e % 2 = 1 then x * h % n else h

/-- The inverse modulo a prime of at most 521 bits. -/
def invMod (x p : Nat) : Nat := powMod x p 521 (p - 2)

/-- A difference modulo `p` of numbers below it. -/
def subMod (p a b : Nat) : Nat := (a + p - b) % p

/-! ### Curves y² = x³ - 3x + b -/

/-- A curve: its prime, b, base point, order, bytes of a coordinate and bits of the order. -/
structure Curve where
  p : Nat
  b : Nat
  gx : Nat
  gy : Nat
  n : Nat
  len : Nat
  bits : Nat

/-- P-256. -/
def p256 : Curve where
  p := 0xFFFFFFFF00000001000000000000000000000000FFFFFFFFFFFFFFFFFFFFFFFF
  b := 0x5AC635D8AA3A93E7B3EBBD55769886BC651D06B0CC53B0F63BCE3C3E27D2604B
  gx := 0x6B17D1F2E12C4247F8BCE6E563A440F277037D812DEB33A0F4A13945D898C296
  gy := 0x4FE342E2FE1A7F9B8EE7EB4A7C0F9E162BCE33576B315ECECBB6406837BF51F5
  n := 0xFFFFFFFF00000000FFFFFFFFFFFFFFFFBCE6FAADA7179E84F3B9CAC2FC632551
  len := 32
  bits := 256

/-- P-384. -/
def p384 : Curve where
  p := 0xFFFFFFFFFFFFFFFFFFFFFFFFFFFFFFFFFFFFFFFFFFFFFFFFFFFFFFFFFFFFFFFEFFFFFFFF0000000000000000FFFFFFFF
  b := 0xB3312FA7E23EE7E4988E056BE3F82D19181D9C6EFE8141120314088F5013875AC656398D8A2ED19D2A85C8EDD3EC2AEF
  gx := 0xAA87CA22BE8B05378EB1C71EF320AD746E1D3B628BA79B9859F741E082542A385502F25DBF55296C3A545E3872760AB7
  gy := 0x3617DE4A96262C6F5D9E98BF9292DC29F8F41DBD289A147CE9DA3113B5F0B8C00A60B1CE1D7E819D7A431D7C90EA0E5F
  n := 0xFFFFFFFFFFFFFFFFFFFFFFFFFFFFFFFFFFFFFFFFFFFFFFFFC7634D81F4372DDF581A0DB248B0A77AECEC196ACCC52973
  len := 48
  bits := 384

/-- P-521. -/
def p521 : Curve where
  p := 0x1FFFFFFFFFFFFFFFFFFFFFFFFFFFFFFFFFFFFFFFFFFFFFFFFFFFFFFFFFFFFFFFFFFFFFFFFFFFFFFFFFFFFFFFFFFFFFFFFFFFFFFFFFFFFFFFFFFFFFFFFFFFFFFFFFF
  b := 0x51953EB9618E1C9A1F929A21A0B68540EEA2DA725B99B315F3B8B489918EF109E156193951EC7E937B1652C0BD3BB1BF073573DF883D2C34F1EF451FD46B503F00
  gx := 0xC6858E06B70404E9CD9E3ECB662395B4429C648139053FB521F828AF606B4D3DBAA14B5E77EFE75928FE1DC127A2FFA8DE3348B3C1856A429BF97E7E31C2E5BD66
  gy := 0x11839296A789A3BC0045C8A5FB42C7D1BD998F54449579B446817AFBD17273E662C97EE72995EF42640C550B9013FAD0761353C7086A272C24088BE94769FD16650
  n := 0x1FFFFFFFFFFFFFFFFFFFFFFFFFFFFFFFFFFFFFFFFFFFFFFFFFFFFFFFFFFFFFFFFFA51868783BF2F966B7FCC0148F709A5D03BB5C9B8899C47AEBB6FB71E91386409
  len := 66
  bits := 521

/-- The curve of a code: 1 P-256, 2 P-384, 3 P-521. -/
def curveOf (c : Nat) : Curve := if c = 2 then p384 else if c = 3 then p521 else p256

/-- A point: x and y in Jacobian coordinates; z is 0 at the identity. -/
structure Point where
  x : Nat
  y : Nat
  z : Nat

/-- A point with its coordinates worked out. -/
def Point.made (x y z : Nat) : Point := strict x fun x => strict y fun y => strict z fun z => ⟨x, y, z⟩

/-- Twice a point. -/
def Curve.double (c : Curve) (a : Point) : Point :=
  strict (a.z * a.z % c.p) fun d => strict (a.y * a.y % c.p) fun g => strict (a.x * g % c.p) fun b =>
  strict (3 * subMod c.p a.x d * (a.x + d) % c.p) fun m =>
  strict (subMod c.p (m * m % c.p) (8 * b % c.p)) fun x =>
  .made x (subMod c.p (m * subMod c.p (4 * b % c.p) x % c.p) (8 * g * g % c.p))
    (subMod c.p ((a.y + a.z) * (a.y + a.z) % c.p) ((g + d) % c.p))

/-- The sum of two points. -/
def Curve.add (c : Curve) (a b : Point) : Point :=
  if a.z = 0 then b
  else if b.z = 0 then a
  else
    strict (a.z * a.z % c.p) fun za => strict (b.z * b.z % c.p) fun zb =>
    strict (a.x * zb % c.p) fun ua => strict (b.x * za % c.p) fun ub =>
    strict (a.y * zb % c.p * b.z % c.p) fun sa => strict (b.y * za % c.p * a.z % c.p) fun sb =>
    strict (subMod c.p ub ua) fun h => strict (subMod c.p sb sa) fun r =>
    if h = 0 then (if r = 0 then c.double a else ⟨1, 1, 0⟩)
    else
      strict (h * h % c.p) fun hh => strict (h * hh % c.p) fun hc => strict (ua * hh % c.p) fun v =>
      strict (subMod c.p (r * r % c.p) ((hc + 2 * v) % c.p)) fun x =>
      .made x (subMod c.p (r * subMod c.p v x % c.p) (sa * hc % c.p)) (h * a.z % c.p * b.z % c.p)

/-- `k` times a point, over `f` bits of `k`, added to `t`. -/
def Curve.times (c : Curve) : Nat → Nat → Point → Point → Point
  | 0, _, _, t => t
  | f + 1, k, a, t => c.times f (k / 2) (c.double a) (if k % 2 = 1 then c.add t a else t)

/-- `k` times a point. -/
def Curve.mul (c : Curve) (k : Nat) (a : Point) : Point := c.times 521 k a ⟨1, 1, 0⟩

/-- x of a point; none at the identity. -/
def Curve.affine (c : Curve) (a : Point) : Option (Nat × Nat) :=
  if a.z % c.p = 0 then none
  else
    strict (invMod a.z c.p) fun i => strict (i * i % c.p) fun ii => some (a.x * ii % c.p, a.y * (ii * i % c.p) % c.p)

/-- The base point. -/
def Curve.base (c : Curve) : Point := ⟨c.gx, c.gy, 1⟩

/-- x ‖ y, big-endian (Table 13-11). -/
def Curve.encode (c : Curve) (a : Point) : Bytes := match c.affine a with
  | some (x, y) => beN c.len x ++ beN c.len y
  | none => zeros (2 * c.len)

/-- The point that x ‖ y spells. -/
def Curve.decode (c : Curve) (q : Bytes) : Point := ⟨beVal (q.take c.len), beVal (q.drop c.len), 1⟩

/-- A point that R315 accepts: coordinates below p, on the curve. -/
def Curve.pointOk (c : Curve) (q : Bytes) : Bool :=
  let a := c.decode q
  decide (q.length = 2 * c.len ∧ a.x < c.p ∧ a.y < c.p ∧ a.y * a.y % c.p = (a.x * a.x % c.p * a.x + (c.p - 3) * a.x + c.b) % c.p)

/-- The number that the leftmost bits of a digest give (FIPS 186-5). -/
def Curve.digestNum (c : Curve) (d : Bytes) : Nat :=
  if c.bits < 8 * d.length then beVal d / 2 ^ (8 * d.length - c.bits) else beVal d

/-- The public key of a private scalar. -/
def Curve.public (c : Curve) (d : Nat) : Bytes := c.encode (c.mul (d % c.n) c.base)

/-- A random scalar, 1 to n - 1: which one random data gives, the spec does not say (log 6). -/
def Curve.scalar (c : Curve) (data : Bytes) (attempt : Nat) : Nat := Config.scalarFrom c.bits data attempt % (c.n - 1) + 1

/-- ECDSA under a nonce; none where r or s is 0. -/
def Curve.signWith (c : Curve) (d : Nat) (digest : Bytes) (k : Nat) : Option Bytes :=
  match c.affine (c.mul k c.base) with
  | none => none
  | some (x, _) =>
    let r := x % c.n
    let s := powMod k c.n 521 (c.n - 2) * ((c.digestNum digest + r * d) % c.n) % c.n
    if r = 0 ∨ s = 0 then none else some (beN c.len r ++ beN c.len s)

/-- ECDSA: r ‖ s, under the first nonce that gives one. -/
def Curve.sign (c : Curve) (d : Nat) (digest data : Bytes) : Bytes :=
  (((List.range 8).findSome? fun j => c.signWith d digest (c.scalar data j)).getD (zeros (2 * c.len)))

/-- ECDSA verification of r ‖ s. -/
def Curve.verify (c : Curve) (q digest sig : Bytes) : Bool :=
  let r := beVal (sig.take c.len)
  let s := beVal (sig.drop c.len)
  if r = 0 ∨ s = 0 ∨ c.n ≤ r ∨ c.n ≤ s ∨ sig.length ≠ 2 * c.len then false
  else
    strict (powMod s c.n 521 (c.n - 2)) fun w =>
    let a := c.add (c.mul (c.digestNum digest * w % c.n) c.base) (c.mul (r * w % c.n) (c.decode q))
    match c.affine a with
    | none => false
    | some (x, _) => decide (x % c.n = r)

/-- ECDH: the x-coordinate. -/
def Curve.shared (c : Curve) (d : Nat) (q : Bytes) : Bytes := (c.encode (c.mul (d % c.n) (c.decode q))).take c.len

/-! ### Curve25519 -/

/-- 2^255 - 19. -/
def p25519 : Nat := 2 ^ 255 - 19

/-- One bit of the ladder: the two points as x and z. -/
def ladder (u : Nat) : Nat → Nat → Nat → Nat → Nat → Nat → Nat × Nat
  | 0, _, x2, z2, _, _ => (x2, z2)
  | f + 1, k, x2, z2, x3, z3 =>
    let p := p25519
    let bit := k.testBit f
    strict (if bit then x3 else x2) fun xa => strict (if bit then z3 else z2) fun za =>
    strict (if bit then x2 else x3) fun xb => strict (if bit then z2 else z3) fun zb =>
    strict ((xa + za) % p) fun a => strict (subMod p xa za) fun b => strict (a * a % p) fun aa => strict (b * b % p) fun bb =>
    strict (subMod p aa bb) fun e =>
    strict ((xb + zb) % p * b % p) fun cb => strict (subMod p xb zb * a % p) fun da =>
    strict ((da + cb) * (da + cb) % p) fun x5 => strict (subMod p da cb) fun t => strict (u * (t * t % p) % p) fun z5 =>
    strict (aa * bb % p) fun x4 => strict (e * ((aa + 121665 * e) % p) % p) fun z4 =>
    if bit then ladder u f k x5 z5 x4 z4 else ladder u f k x4 z4 x5 z5

/-- The scalar of a private key. -/
def clamp (k : Bytes) : Nat := leVal (k.take 32) % 2 ^ 254 / 8 * 8 + 2 ^ 254

/-- X25519 of a private key and a u-coordinate. -/
def x25519 (key u : Bytes) : Bytes :=
  let x := leVal (u.take 32) % 2 ^ 255 % p25519
  let r := ladder x 255 (clamp key) 1 0 x 1
  leN 32 (r.1 * invMod r.2 p25519 % p25519)

/-! ### Ed25519 -/

/-- d of the curve. -/
def edD : Nat := 0x52036CEE2B6FFE738CC740797779E89800700A4D4141D8AB75EB4DCA135978A3
/-- The order of the base point. -/
def edL : Nat := 2 ^ 252 + 27742317777372353535851937790883648493

/-- A point in extended coordinates. -/
structure EdPoint where
  x : Nat
  y : Nat
  z : Nat
  t : Nat

/-- A point with its coordinates worked out. -/
def EdPoint.made (x y z t : Nat) : EdPoint := strict x fun x => strict y fun y => strict z fun z => strict t fun t => ⟨x, y, z, t⟩

/-- The base point. -/
def edBase : EdPoint :=
  let x := 0x216936D3CD6E53FEC0A4E231FDD6DC5C692CC7609525A7B2C9562D608F25D51A
  let y := 0x6666666666666666666666666666666666666666666666666666666666666658
  .made x y 1 (x * y % p25519)

/-- The sum of two points. -/
def EdPoint.add (a b : EdPoint) : EdPoint :=
  let p := p25519
  strict (subMod p a.y a.x * subMod p b.y b.x % p) fun u => strict ((a.y + a.x) * (b.y + b.x) % p) fun v =>
  strict (a.t * 2 % p * edD % p * b.t % p) fun c => strict (a.z * 2 * b.z % p) fun d =>
  strict (subMod p v u) fun e => strict (subMod p d c) fun f => strict ((d + c) % p) fun g => strict ((v + u) % p) fun h =>
  .made (e * f % p) (g * h % p) (f * g % p) (e * h % p)

/-- `k` times a point, over `f` bits of `k`, added to `t`. -/
def edTimes : Nat → Nat → EdPoint → EdPoint → EdPoint
  | 0, _, _, t => t
  | f + 1, k, a, t => edTimes f (k / 2) (a.add a) (if k % 2 = 1 then t.add a else t)

/-- `k` times a point. -/
def EdPoint.mul (k : Nat) (a : EdPoint) : EdPoint := edTimes 256 k a ⟨0, 1, 1, 0⟩

/-- A point as 32 bytes. -/
def EdPoint.encode (a : EdPoint) : Bytes :=
  let p := p25519
  strict (invMod a.z p) fun i => leN 32 (a.y * i % p + 2 ^ 255 * (a.x * i % p % 2))

/-- The point that 32 bytes spell, where they do (RFC 8032, 5.1.3). -/
def edDecode (b : Bytes) : Option EdPoint :=
  let p := p25519
  let n := leVal (b.take 32)
  let y := n % 2 ^ 255
  let sign := n / 2 ^ 255 % 2
  let u := subMod p (y * y % p) 1
  let v := (edD * (y * y % p) + 1) % p
  let c := u * (v * v % p * v % p) % p * powMod (u * powMod v p 3 7 % p) p 255 ((p - 5) / 8) % p
  let r : Option Nat :=
    if v * (c * c % p) % p = u then some c
    else if v * (c * c % p) % p = (p - u) % p then some (c * powMod 2 p 255 ((p - 1) / 4) % p)
    else none
  if b.length < 32 ∨ p ≤ y then none
  else match r with
    | none => none
    | some x =>
      if x = 0 ∧ sign = 1 then none
      else
        let x := if x % 2 = sign then x else (p - x) % p
        some (.made x y 1 (x * y % p))

/-- The public key of a private key. -/
def edPublic (key : Bytes) : Bytes := (EdPoint.mul (clamp (digest 3 (key.take 32))) edBase).encode

/-- Ed25519: the signature of a message. -/
def edSign (key m : Bytes) : Bytes :=
  let h := digest 3 (key.take 32)
  let a := clamp h
  let pub := edPublic key
  let r := leVal (digest 3 (h.drop 32 ++ m)) % edL
  let rr := (EdPoint.mul r edBase).encode
  rr ++ leN 32 ((r + leVal (digest 3 (rr ++ pub ++ m)) % edL * a) % edL)

/-- Ed25519 verification, with the cofactor (RFC 8032, 5.1.7). -/
def edVerify (pub m sig : Bytes) : Bool :=
  let s := leVal (sig.drop 32)
  match edDecode pub, edDecode (sig.take 32) with
  | some a, some r =>
    let k := leVal (digest 3 (sig.take 32 ++ pub ++ m)) % edL
    let eight (x : EdPoint) : EdPoint := EdPoint.mul 8 x
    decide (sig.length = 64 ∧ s < edL ∧ (eight (EdPoint.mul s edBase)).encode = (eight (r.add (EdPoint.mul k a))).encode)
  | _, _ => false

end Sys2Proof.Machine
end

