-- ==== Sys2Proof/Machine/Rsa.lean ====
section
/-! DEFINITION. RSA with the paddings of PKCS#1 v2.2 (RFC 8017), as R311 names them (log 8), and the checks of private keys
(R316). -/

namespace Sys2Proof.Machine

/-- MGF1 over the hash of a code. -/
def mgf1 (h : Nat) (seed : Bytes) (n : Nat) : Bytes :=
  ((List.range ((n + digestLen h - 1) / digestLen h)).flatMap fun j => digest h (seed ++ beN 4 j)).take n

/-- The DigestInfo of a hash, before the digest. -/
def digestInfo (h : Nat) : Bytes :=
  let n := digestLen h
  [0x30, BitVec.ofNat 8 (17 + n), 0x30, 0x0D, 0x06, 0x09, 0x60, 0x86, 0x48, 0x01, 0x65, 0x03, 0x04, 0x02, BitVec.ofNat 8 h, 0x05, 0x00, 0x04,
    BitVec.ofNat 8 n]

/-- EMSA-PKCS1-v1_5: the encoded digest in `k` bytes; none where they are too few. -/
def emsaV15 (h : Nat) (d : Bytes) (k : Nat) : Option Bytes :=
  let t := digestInfo h ++ d
  if k < t.length + 11 then none else some ([0, 1] ++ List.replicate (k - t.length - 3) 0xFF ++ [0] ++ t)

/-- The hash that EMSA-PSS makes of a digest and a salt. -/
def pssHash (h : Nat) (d salt : Bytes) : Bytes := digest h (zeros 8 ++ d ++ salt)

/-- The mask of the leftmost byte for a modulus of `bits` bits. -/
def pssTop (bits : Nat) : Byte := BitVec.ofNat 8 (2 ^ (8 - (8 * ((bits + 6) / 8) - (bits - 1))) - 1)

/-- The leftmost byte cleared outside its mask. -/
def pssClear (bits : Nat) (b : Bytes) : Bytes := (b.headD 0 &&& pssTop bits) :: b.tail

/-- EMSA-PSS with MGF1 over the same hash: none where the modulus of `bits` bits is too short. -/
def emsaPss (h : Nat) (d salt : Bytes) (bits : Nat) : Option Bytes :=
  let n := (bits + 6) / 8
  if n < digestLen h + salt.length + 2 then none
  else
    let hh := pssHash h d salt
    let db := zeros (n - salt.length - digestLen h - 2) ++ [1] ++ salt
    some (pssClear bits (xorBytes db (mgf1 h hh db.length)) ++ hh ++ [0xBC])

/-- EMSA-PSS verification, with a salt as long as the hash. -/
def pssOk (h : Nat) (d em : Bytes) (bits : Nat) : Bool :=
  let l := digestLen h
  let n := em.length
  if n < 2 * l + 2 then false
  else
    let masked := em.take (n - l - 1)
    let hh := slice em (n - l - 1) l
    let db := pssClear bits (xorBytes masked (mgf1 h hh masked.length))
    decide (em.getLastD 0 = 0xBC ∧ masked = pssClear bits masked ∧ db.take (n - 2 * l - 2) = zeros (n - 2 * l - 2) ∧
      byteAt db (n - 2 * l - 2) = 1 ∧ hh = pssHash h d (db.drop (n - 2 * l - 1)))

/-- Bits of a number. -/
def bitLen (n : Nat) : Nat := if n = 0 then 0 else Nat.log2 n + 1

/-- Verification of a signature under PAD 1 or 2 and a hash: modulus, exponent, signature, digest. -/
def rsaVerify (pad h : Nat) (n e sig d : Bytes) : Bool :=
  let m := beVal n
  let x := powMod (beVal sig) m (8 * e.length) (beVal e)
  if pad = 2 then
    let len := (bitLen m + 6) / 8
    decide (x < 2 ^ (8 * len)) && pssOk h d (beN len x) (bitLen m)
  else match emsaV15 h d n.length with
    | none => false
    | some em => decide (beN n.length x = em)

/-- Modulus length of an RSA key in the layout of R316. -/
def rsaLen (key : Bytes) : Nat := 2 * (key.length - 4) / 7

/-- The fields of an RSA key in that layout. -/
structure RsaKey where
  n : Nat
  e : Nat
  p : Nat
  q : Nat
  dp : Nat
  dq : Nat
  qinv : Nat
  deriving DecidableEq, Repr

/-- The key that a blob record spells. -/
def rsaKey (key : Bytes) : RsaKey :=
  let k := rsaLen key
  let half (j : Nat) : Nat := beVal (slice key (k + 4 + j * (k / 2)) (k / 2))
  { n := beVal (key.take k), e := beVal (slice key k 4), p := half 0, q := half 1, dp := half 2, dq := half 3, qinv := half 4 }

/-- The private operation with the factors (RFC 8017, 5.1.2). -/
def RsaKey.apply (r : RsaKey) (c : Nat) : Nat :=
  let m1 := powMod (c % r.p) r.p 2048 r.dp
  let m2 := powMod (c % r.q) r.q 2048 r.dq
  m2 + r.q * (subMod r.p (m1 % r.p) (m2 % r.p) * r.qinv % r.p)

/-- The private key's parts agree with one another (R316). -/
def RsaKey.ok (r : RsaKey) : Bool :=
  decide (r.p * r.q = r.n ∧ 1 < r.p ∧ 1 < r.q ∧ r.dp < r.p ∧ r.dq < r.q ∧ r.qinv < r.p ∧
    r.dp * r.e % (r.p - 1) = 1 % (r.p - 1) ∧ r.dq * r.e % (r.q - 1) = 1 % (r.q - 1) ∧ r.qinv * r.q % r.p = 1)

/-- A signature of a digest under PAD 1 or 2, with the salt of PAD 2; none where the modulus is too short. -/
def rsaSign (pad h : Nat) (key d salt : Bytes) : Option Bytes :=
  let r := rsaKey key
  let k := rsaLen key
  (if pad = 2 then emsaPss h d salt (bitLen r.n) else emsaV15 h d k).map fun em => beN k (r.apply (beVal em))

/-- EME-OAEP decoding with an empty label: the plaintext where the padding checks. -/
def oaepOpen (h : Nat) (key c : Bytes) : Option Bytes :=
  let k := rsaLen key
  let l := digestLen h
  if k < 2 * l + 2 then none
  else
    let em := beN k ((rsaKey key).apply (beVal c))
    let seed := xorBytes (slice em 1 l) (mgf1 h (em.drop (1 + l)) l)
    let db := xorBytes (em.drop (1 + l)) (mgf1 h seed (k - l - 1))
    let rest := (db.drop l).dropWhile (· == 0)
    if em.headD 0 = 0 ∧ db.take l = digest h [] ∧ rest.headD 0 = 1 then some rest.tail else none

/-- The inverse of `a` modulo `m`, over at most `f` steps of Euclid's algorithm. -/
def euclid : Nat → Int → Int → Int → Int → Int
  | 0, _, _, x, _ => x
  | f + 1, a, b, x, y => if b = 0 then x else euclid f b (a % b) y (x - a / b * y)

/-- The inverse of `a` modulo `m`, where there is one. -/
def invNat (a m : Nat) : Nat := ((euclid 8192 a m 1 0) % m).toNat

/-- The layout of R316 from two primes and the exponent 65537: `k` bytes of modulus. -/
def rsaLayout (k p q : Nat) : Bytes :=
  beN k (p * q) ++ beN 4 65537 ++ beN (k / 2) p ++ beN (k / 2) q ++ beN (k / 2) (invNat 65537 (p - 1)) ++ beN (k / 2) (invNat 65537 (q - 1)) ++
    beN (k / 2) (invNat q p)

end Sys2Proof.Machine
end

