-- ==== Sys2Proof/Machine/Ops.lean ====
section
/-! DEFINITION. Named operations that every family shares: updates of one unit, flags and pins of the HRB,
the event log, event messages, responses, and the checks on a request (Table 08-3). -/

namespace Sys2Proof.Machine

/-! ### Updates of one unit -/

abbrev State.updSlot (s : State) (i : Fin 128) (f : Slot → Slot) : State :=
  { s with tenants := { s.tenants with slots := modify s.tenants.slots i f } }
abbrev State.updCore (s : State) (i : Fin 8) (f : Core → Core) : State :=
  { s with tenants := { s.tenants with cores := modify s.tenants.cores i f } }
abbrev State.updPort (s : State) (p : Fin 512) (f : Port → Port) : State :=
  { s with sprig := { s.sprig with ports := modify s.sprig.ports p f } }
abbrev State.updLink (s : State) (side : LinkSide) (f : LinkPort → LinkPort) : State :=
  match side with
  | .u => { s with link := { s.link with u := f s.link.u } }
  | .d => { s with link := { s.link with d := f s.link.d } }
/-- The link port of a side. -/
def State.linkPort (s : State) : LinkSide → LinkPort
  | .u => s.link.u
  | .d => s.link.d

/-! ### HRB flags and pins -/

/-- The cause of flag `i` of HRB_EVT_A occurs (Table 07-16). -/
def State.evA (i : Fin 6) (s : State) : State := { s with hrb := { s.hrb with evtA := modify s.hrb.evtA i Flag.hit } }
/-- The same for HRB_EVT_B. -/
def State.evB (i : Fin 6) (s : State) : State := { s with hrb := { s.hrb with evtB := modify s.hrb.evtB i Flag.hit } }
/-- The same for HRB_EVT_C. -/
def State.evC (i : Fin 6) (s : State) : State := { s with hrb := { s.hrb with evtC := modify s.hrb.evtC i Flag.hit } }

/-- An enabled flag is set (R182). -/
def flagsOn (fs : Vector Flag 6) (en : BitVec 6) : Bool :=
  (fs[0].set && en.getLsbD 0) || (fs[1].set && en.getLsbD 1) || (fs[2].set && en.getLsbD 2) ||
  (fs[3].set && en.getLsbD 3) || (fs[4].set && en.getLsbD 4) || (fs[5].set && en.getLsbD 5)

/-- The main side is out of reset and no save has begun. -/
def State.live (s : State) : Bool :=
  match s.power.run with
  | .bootRom | .running | .serviceOnly => true
  | .held | .saving | .saveDone => false

/-- The main side is out of reset, in the save or not: the HRB answers (R173). -/
def State.released (s : State) : Bool := s.power.run != .held

/-- The supervisor image runs. -/
def State.supervisor (s : State) : Bool := s.power.run == .running

/-- IRQ_N is driven low (R182). -/
def State.irqLow (s : State) : Bool :=
  s.live && (flagsOn s.hrb.evtA s.hrb.ienA || flagsOn s.hrb.evtB s.hrb.ienB || flagsOn s.hrb.evtC s.hrb.ienC)

/-- Main-store recall is done (R370). -/
def State.recalled (s : State) : Bool := s.hrb.rclMain == 2

/-- TAMPER_OUT_N is driven low (R183). -/
def State.tamperLow (s : State) : Bool :=
  s.released && (s.hrb.rclMain == 2 || s.hrb.rclMain == 3) && (s.hrb.act.set || s.guard.tampered)

/-! ### Numbers of the device -/

/-- The boot counter (R381). -/
def State.boots (s : State) : Nat := s.lc.era * 2 ^ 48 + (s.store.bootRec.getD 0).toNat
/-- The boot epoch: the low 16 bits of the boot counter (R191). -/
def State.bootEpoch (s : State) : BitVec 16 := BitVec.ofNat 16 s.boots
/-- The transition counter: slots that are used (R463). -/
def LcSlot.used (k : LcSlot) : Bool := k.done == 0x5A5A || k.void == 0xA5A5
/-- TCNT. -/
def State.tcnt (s : State) : Nat := s.lc.slots.toList.countP LcSlot.used
/-- The life-cycle code (Table 07-27). -/
def LcState.code : LcState → Nat
  | .blank => 0 | .factoryTest => 1 | .provisioning => 2 | .deployed => 3 | .returned => 4 | .terminated => 5
  | .invalid => 15
/-- The state code of a slot (Table 07-42). -/
def SlotState.code : SlotState → Nat
  | .free => 0 | .assigned => 1 | .running => 2 | .quiescing => 3 | .quiesced => 4 | .retired => 5
/-- The code of a seal state. -/
def SealState.code : SealState → Nat
  | .unsealed => 0 | .sealed => 1 | .broken => 2
/-- A new slot epoch (R18). -/
def State.bumpSlot (i : Fin 128) (s : State) : State :=
  { s with store := { s.store with slotEpoch := modify s.store.slotEpoch i nextEpoch } }
/-- A new port epoch (R18). -/
def State.bumpPort (p : Fin 512) (s : State) : State :=
  { s with store := { s.store with portEpoch := modify s.store.portEpoch p nextEpoch } }

/-- `n` bytes of randomness, and the state that has drawn them (log 6). -/
def State.random (n : Nat) (s : State) : Bytes := (List.range n).map (Config.randomByte s.free)
/-- The state after a draw. -/
def State.drawn (s : State) : State := { s with free := s.free + 1 }

/-- SHA-256 as 32 bytes, in the standard's byte order. -/
def sha (b : Bytes) : Bytes := digest 1 b

/-! ### Keys (R14 to R16) -/

/-- HMAC-SHA-256. -/
def hmac256 (key data : Bytes) : Bytes := hmac 1 key data

/-- KDF in counter mode of an output of 256 bits (R15). -/
def kdfBytes (key label context : Bytes) : Bytes :=
  hmac256 key (beN 4 1 ++ label ++ [0] ++ context ++ beN 4 256)

/-- The device unique key; zeros while nothing is enrolled. -/
def State.duk (s : State) : Bytes :=
  match s.lc.dukSeed with
  | none => zeros 32
  | some d => beN 32 (Config.duk d s.lc.helper).toNat

/-- A key of Table 01-3 that follows from the DUK alone. -/
def State.dukKey (s : State) (label : String) : Bytes := kdfBytes s.duk (ascii label) (padTo 16 s.lc.unitId)

/-- The private scalar that a key gives (R416, R472, R480). -/
def keyScalar (key : Bytes) : Nat := beVal (hmac256 key (ascii "SIGN")) % (p256.n - 1) + 1

/-- A P-256 public key, x ‖ y. -/
def pubKey (d : Nat) : Bytes := p256.public d

/-- An ECDSA signature with SHA-256, r ‖ s, with its random data. -/
def signP256 (d : Nat) (msg extra : Bytes) : Bytes := p256.sign d (sha msg) extra

/-- A P-256 public key x ‖ y verifies an ECDSA signature with SHA-256 over a message. -/
def ecdsaVerify (pub msg sig : Bytes) : Bool := p256.pointOk pub && p256.verify pub (sha msg) sig

/-! ### The store's own writes -/

/-- A record that the device writes now commits: its read-back compares equal (R345) and the macro works
(R371). -/
def State.commits (s : State) : Bool := s.store.writeOk && s.store.cellOk

/-- An event log entry (R374, Table 15-11). The log has room for 8,192, and the page that its head enters is zeroed first (R373). -/
def State.log (code sub : Byte) (data : Bytes) (s : State) : State :=
  if s.commits then
    { s with store := { s.store with
        log := (s.store.log ++ [LogEntry.mk (s.store.logSeq + 1) code sub s.guard.rtc s.bootEpoch (padTo 40 data)]).drop
          (s.store.log.length + 1 - (8189 + s.store.logSeq.toNat % 4))
        logSeq := s.store.logSeq + 1 } }
  else s

/-! ### Messages -/

/-- The current epoch of a unit (Table 08-2). -/
def State.unitEpoch (s : State) (kind : BitVec 2) (index : BitVec 14) : BitVec 16 :=
  if kind = 1 then
    if h : index.toNat < 128 then s.store.slotEpoch[index.toNat] else 0
  else if kind = 2 then
    if h : index.toNat < 4 then s.store.chanEpoch[index.toNat] else 0
  else if s.power.phase < 2 then 0 else s.bootEpoch

/-- The header of Table 08-1 in front of a payload. -/
def message (major : Byte) (cls : BitVec 2) (rsp evt : Bool) (kind : BitVec 2) (index : BitVec 14)
    (epoch : BitVec 16) (tag : Word) (op status : BitVec 16) (payload : Bytes) : Bytes :=
  [major, BitVec.ofNat 8 (cls.toNat + 4 * b2n rsp + 8 * b2n evt)] ++ leN 2 (16 + payload.length) ++
    leN 2 (kind ++ index).toNat ++ leN 2 epoch.toNat ++ leN 4 tag.toNat ++ leN 2 op.toNat ++
    leN 2 status.toNat ++ payload

/-- A message or block of the device's own joins the transmit queue of its class on port U (R166). -/
def State.send (m : OutMsg) (s : State) : State :=
  s.updLink .u fun l => { l with own := l.own.set m.cls.toNat (l.own[m.cls.toNat] ++ [m]) }

/-- MAJOR of an answer taken now (R199). -/
def State.major (s : State) (r : Req) : Byte :=
  if s.treor.verMaj = 0 then Config.preHelloMajor r.major else BitVec.ofNat 8 s.treor.verMaj

/-- A response under a given major version (R190, R195). -/
def State.respondAs (major : Byte) (r : Req) (op status : BitVec 16) (payload : Bytes) (s : State) : State :=
  if s.live then
    let s := if status = 0x0203 then { s with hrb := { s.hrb with msgErr := s.hrb.msgErr.incLo } } else s
    s.send { src := .response, cls := r.cls, bytes :=
      message major r.cls true false r.kind r.index (s.unitEpoch r.kind r.index) r.tag op status payload }
  else s

/-- The response to a request answered in the step that takes it. -/
def State.respond (r : Req) (op status : BitVec 16) (payload : Bytes) (s : State) : State :=
  s.respondAs (s.major r) r op status payload

/-- The response to a request whose effects have been made in `s`: it goes before any event that they
queued after `s₀` (R196). -/
def State.respondFirst (s₀ : State) (r : Req) (op status : BitVec 16) (payload : Bytes) (s : State) : State :=
  let n := (s₀.link.u.own[r.cls.toNat]).length
  let bytes := message (s₀.major r) r.cls true false r.kind r.index (s.unitEpoch r.kind r.index) r.tag op status payload
  if s.live then
    let m : OutMsg := { src := .response, cls := r.cls, bytes }
    s.updLink .u fun l => { l with own := l.own.set r.cls.toNat (l.own[r.cls.toNat].take n ++ m :: l.own[r.cls.toNat].drop n) }
  else s

/-- The host accepts events of a family (R202) and the supervisor still sends (R195). -/
def State.accepts (s : State) (family : Nat) : Bool := s.live && s.treor.hostCaps.getLsbD family

/-- DEV_EVENT messages whose sending has not begun (R208). -/
def State.devEvents (s : State) : Nat :=
  (s.link.u.own.toList.map fun q => q.countP fun m => m.src == .devEvent && !m.begun).sum

/-- The DEV_EVENT message (Table 08-9). -/
def State.devEventMsg (s : State) (cls : BitVec 2) (code sub : Byte) (subject value : Nat) : OutMsg :=
  { src := .devEvent, cls, bytes :=
      message (BitVec.ofNat 8 s.treor.verMaj) cls false true 0 0 (s.unitEpoch 0 0) 0 0x0C01 0
        ([code, sub] ++ leN 2 subject ++ leN 8 value ++ zeros 4) }

/-- The class of a DEV_EVENT (Table 08-13). -/
def devClass (code : Byte) : BitVec 2 :=
  if code = 0x01 ∨ code = 0x09 ∨ code = 0x0A ∨ code = 0x0B ∨ code = 0x0F then 3 else 1

/-- A DEV_EVENT (R208): not generated while the host does not accept the family, counted while 256 wait. -/
def State.devEvent (code sub : Byte) (subject value : Nat) (s : State) : State :=
  if s.accepts 0x0C then
    if s.devEvents ≥ 256 then { s with treor := { s.treor with evLost := s.treor.evLost + 1 } }
    else s.send (s.devEventMsg (devClass code) code sub subject value)
  else s

/-- A place in the DEV_EVENT queue is free: EVENTS_LOST tells what was discarded (R208). -/
def State.eventsLost (s : State) : State :=
  if s.treor.evLost ≠ 0 ∧ s.devEvents < 256 ∧ s.accepts 0x0C then
    { s.send (s.devEventMsg 1 0x0D 0 0 s.treor.evLost) with treor := { s.treor with evLost := 0 } }
  else s

/-- EVT_C.SLOT and the DEV_EVENT SLOT_STATE of a slot's present state. -/
def State.slotEvent (i : Fin 128) (s : State) : State :=
  (s.evC 4).devEvent 0x08 (BitVec.ofNat 8 (s.tenants.slots[i]).state.code) i.val (s.store.slotEpoch[i]).toNat

/-- HRB_RECALL [5:0]. -/
def State.recallBits (s : State) : Nat := s.hrb.rclMain.toNat * 16 + s.hrb.rclBay.toNat * 4 + s.hrb.rclTagw.toNat

/-- A recall has just finished, as done or error, `ms` milliseconds after the main-side reset: the last of the three sets
EVT_A.RECALL, freezes ELAPSED and raises RECALL_DONE. -/
def State.recallEnd (ms : Nat) (s : State) : State :=
  let s := { s with hrb := { s.hrb with elapsed := BitVec.ofNat 16 (min 0xFFFF ms) } }
  if 2 ≤ s.hrb.rclMain ∧ 2 ≤ s.hrb.rclBay ∧ 2 ≤ s.hrb.rclTagw then
    (s.evA 3).devEvent 0x01 (BitVec.ofNat 8 s.recallBits) 0 s.hrb.elapsed.toNat
  else s

/-! ### Checks on a request (Table 08-3) -/

/-- Requests that need the administrator session (Table 08-6; BAY_REQUEST as its bridge request). -/
def needsAdmin (op : BitVec 16) (r : Req) : Bool :=
  match op.toNat with
  | 0x0103 | 0x0202 | 0x0302 | 0x0303 | 0x0304 | 0x0305 | 0x0306 | 0x0307 | 0x0308 | 0x0309 | 0x030A
  | 0x0502 | 0x0902 | 0x0A02 | 0x0B02 | 0x0B03 | 0x0B06 => true
  | 0x0801 => match fld r.body 0 2 with
    | 4 | 7 | 8 | 9 => true
    | _ => false
  | _ => false

/-- The class-0 list (R197). -/
def classZero (op : BitVec 16) : Bool := op = 0x0002 ∨ op = 0x0301 ∨ op = 0x0401 ∨ op = 0x0901

/-- Target KIND of a request opcode, and the first version with it (Table 08-6): 10, 11 or 20. -/
def opTarget (op : BitVec 16) : Option (Nat × Nat) :=
  match op.toNat with
  | 0x0001 | 0x0002 | 0x0003 | 0x0101 | 0x0102 | 0x0103 | 0x0201 | 0x0202 | 0x0301 | 0x0302 | 0x0501 | 0x0502
  | 0x0701 | 0x0702 | 0x0703 | 0x0704 | 0x0705 | 0x0706 | 0x0803 | 0x0901 | 0x0902 | 0x0A01 | 0x0A02
  | 0x0A03 => some (0, 10)
  | 0x0203 | 0x0601 => some (0, 11)
  | 0x0303 | 0x0304 | 0x0305 | 0x0306 | 0x0307 | 0x0308 | 0x0309 | 0x030A | 0x0401 => some (1, 10)
  | 0x0801 => some (2, 10)
  | 0x0B01 | 0x0B02 | 0x0B03 => some (0, 20)
  | 0x0B04 => some (3, 20)
  | 0x0B06 => some (1, 20)
  | _ => none

/-- Requests that INVALID still serves (R194). -/
def servedInvalid (op : BitVec 16) : Bool :=
  op = 0x0001 ∨ op = 0x0002 ∨ op = 0x0003 ∨ op = 0x0701 ∨ op = 0x0702

/-- Table 19-5: the life-cycle state serves the request. -/
def lcServes (st : LcState) (op : BitVec 16) : Bool :=
  match st with
  | .blank | .invalid => servedInvalid op
  | .factoryTest | .provisioning | .deployed | .returned | .terminated =>
    if servedInvalid op then true
    else match op.toNat with
    | 0x0703 | 0x0902 | 0x0A02 => st != .terminated
    | 0x0101 | 0x0102 | 0x0103 | 0x0201 | 0x0202 | 0x0203 | 0x0501 | 0x0502 | 0x0601 | 0x0706 | 0x0901
    | 0x0A01 | 0x0A03 | 0x0803 | 0x0801 => true
    | 0x0306 | 0x0401 | 0x0B01 | 0x0B02 | 0x0B03 | 0x0B04 | 0x0B06 => st == .deployed
    | _ => st == .provisioning || st == .deployed

/-- Requests that need the main store (R370, log 9). -/
def needsMain (op : BitVec 16) : Bool :=
  match op.toNat with
  | 0x0001 | 0x0002 | 0x0003 | 0x0101 | 0x0103 | 0x0203 | 0x0501 | 0x0601 | 0x0701 | 0x0702 | 0x0703 | 0x0706
  | 0x0801 | 0x0803 | 0x0901 | 0x0A01 | 0x0A02 | 0x0A03 => false
  | _ => true

/-- Requests that need the tag window (R142). -/
def needsTag (op : BitVec 16) : Bool := op = 0x0A01 ∨ op = 0x0A02 ∨ op = 0x0A03

/-- A request that the link has delivered. -/
def Delivered.msg? : Delivered → Option (BitVec 16 × Req)
  | .message op r => some (op, r)
  | .reg _ => none
  | .enumer _ => none

/-- Requests taken and not yet answered: those that wait, and responses whose first block has not begun. -/
def State.unanswered (s : State) (p : Req → Bool) (q : Fin 4 → Bool) : Nat :=
  (s.treor.waiting.countP fun w => p w.req) +
  ((List.finRange 4).map fun c => if q c then s.link.u.own[c].countP fun m => m.src == .response && !m.begun else 0).sum

/-- Requests outstanding (R195): accepted ones not yet taken, and those not yet answered. -/
def State.outstanding (s : State) (p : Req → Bool) (q : Fin 4 → Bool) : Nat :=
  ((s.link.delivered.filterMap Delivered.msg?).countP fun d => p d.2) + s.unanswered p q

/-- Requests outstanding in all. -/
def State.outAll (s : State) : Nat := s.outstanding (fun _ => true) (fun _ => true)
/-- Requests of one class outstanding. -/
def State.outClass (s : State) (c : Fin 4) : Nat := s.outstanding (fun r => r.cls.toNat = c.val) (· = c)
/-- Requests of one class taken and not yet answered. -/
def State.takenClass (s : State) (c : Fin 4) : Nat := s.unanswered (fun r => r.cls.toNat = c.val) (· = c)

/-- What the checks of Table 08-3 decide. -/
inductive Verdict where
  | refuse (status : BitVec 16) (payload : Bytes)
  | take
  deriving DecidableEq, Repr

/-- The bouquet relay exists for this INDEX (R486). -/
def State.relay (s : State) (index : BitVec 14) : Bool :=
  match s.bqt.member with
  | none => false
  | some m => m.member == index && s.param 0x0C00 != 0

/-- Step 4: the unit exists. -/
def State.unitExists (s : State) (r : Req) : Bool :=
  if r.kind = 0 then true
  else if r.kind = 1 then
    if h : r.index.toNat < 128 then
      !s.recalled || ((s.tenants.slots[r.index.toNat]).state != .free && (s.tenants.slots[r.index.toNat]).state != .retired)
    else false
  else if r.kind = 2 then s.bay.bridge == 1
  else s.relay r.index

/-- Steps 1 to 10 of Table 08-3, the first that fails. -/
def State.admitHead (op : BitVec 16) (r : Req) (s : State) : Option (BitVec 16 × Bytes) :=
  let ver := s.treor.verMaj * 10 + s.treor.verMin
  if r.rsp || r.evt || r.rsvd != 0 || r.status != 0 || r.cls != r.wire then some (0x0103, [])
  else if op ≠ 0x0001 ∧ (s.treor.verMaj = 0 ∨ r.major.toNat ≠ s.treor.verMaj) then some (0x0102, [1, 0, 2, 0])
  else if (r.kind = 0 ∧ r.index ≠ 0) ∨ (r.kind = 1 ∧ 128 ≤ r.index.toNat) ∨ (r.kind = 2 ∧ 4 ≤ r.index.toNat) ∨
      (r.kind = 3 ∧ s.treor.verMaj ≠ 2) then some (0x0201, [])
  else if !s.unitExists r then some (0x0202, [])
  else if r.epoch ≠ s.unitEpoch r.kind r.index ∧ ¬(op = 0x0001 ∧ r.kind = 0 ∧ r.epoch = 0) then some (0x0203, [])
  else if !(match opTarget op with
      | none => false
      | some (k, v) => k == r.kind.toNat && (decide (v ≤ ver) || op == 0x0001)) then some (0x0106, [])
  else if r.cls = 0 ∧ !classZero op then some (0x0107, [])
  else if needsAdmin op r && s.treor.session.isNone then some (0x0205, [])
  else if !lcServes s.lc.state op then some (if s.lc.state = .invalid then 0x0702 else 0x0701, [])
  else if s.hrb.rclMain = 3 ∧ !servedInvalid op then some (0x0501, [])
  else if (needsMain op && !s.recalled) || (needsTag op && s.hrb.rclTagw != 2 && s.hrb.rclTagw != 3) then
    some (0x0510, [])
  else none

/-- All of steps 1 to 12; `fits` is the check of the opcode's layout (step 11). The boot ROM's own answers
(R379, R380) come before. -/
def State.verdict (op : BitVec 16) (r : Req) (fits : Bool) (s : State) : Verdict :=
  match s.power.run with
  | .serviceOnly => .refuse 0x0501 []
  | .running =>
    match s.admitHead op r with
    | some (st, p) => .refuse st p
    | none =>
      if !fits then .refuse 0x0108 []
      else if s.outAll ≥ 256 then .refuse 0x0109 []
      else .take
  | _ => .refuse 0x0510 []

/-- The request leaves the list of messages that the link has delivered. -/
def dropDelivered (op : BitVec 16) (r : Req) : List Delivered → List Delivered
  | [] => []
  | d :: ds => if d = .message op r then ds else d :: dropDelivered op r ds

/-- A request is taken: the class-0 count of R198. -/
def State.taken (r : Req) (s : State) : State :=
  if r.cls = 0 ∧ s.outClass 0 ≥ 32 then { s with hrb := { s.hrb with cl0Over := sat8 s.hrb.cl0Over } } else s

/-- The request that the supervisor takes next (R196, R197, R200): a class-0 request first, then in the order of arrival, but none
that arrived after a HELLO before that HELLO. -/
def nextMessage (ds : List Delivered) : Option (BitVec 16 × Req) :=
  let ms := ds.filterMap Delivered.msg?
  match (ms.takeWhile fun m => m.1 != 0x0001).find? fun m => m.2.wire == 0 with
  | some m => some m
  | none => ms.head?

/-- The request stands among those that the link has delivered. -/
def State.arrive (op : BitVec 16) (r : Req) (s : State) : State :=
  if s.link.delivered.contains (.message op r) then s
  else { s with link := { s.link with delivered := s.link.delivered ++ [.message op r] } }

/-- Its turn has come. -/
def State.turn (op : BitVec 16) (r : Req) (s : State) : Bool := nextMessage (s.arrive op r).link.delivered == some (op, r)

/-- The front end of a request whose turn has come: in a save or in reset nothing is answered (R195); a refusal answers
its status; a request that passes is carried out by `k` (step 13). -/
def State.requestNow (op : BitVec 16) (r : Req) (fits : Bool) (k : State → State) (s : State) : State :=
  let s := { s with link := { s.link with delivered := dropDelivered op r s.link.delivered } }
  if s.live then
    match s.verdict op r fits with
    | .refuse st p => s.respond r op st p
    | .take => k (s.taken r)
  else s

/-- A request that the supervisor turns to: it waits while another has to be taken before it. -/
def State.request (op : BitVec 16) (r : Req) (fits : Bool) (k : State → State) (s : State) : State :=
  if s.live && !s.turn op r then s.arrive op r else s.requestNow op r fits k

/-- A request that was taken waits for another step (R195). -/
def State.wait (what : WaitKind) (r : Req) (op : BitVec 16) (s : State) : State :=
  { s with treor := { s.treor with waiting := s.treor.waiting ++ [⟨what, r, op, s.major r⟩] } }

/-- The first request that waits for `what` is answered. -/
def State.answer (what : WaitKind) (status : BitVec 16) (payload : Bytes) (s : State) : State :=
  match s.treor.waiting.find? (·.what == what) with
  | none => s
  | some w =>
    let s := { s with treor := { s.treor with waiting := s.treor.waiting.erase w } }
    s.respondAs w.major w.req w.opcode status payload

end Sys2Proof.Machine
end

