-- ==== Sys2Proof/Machine/Tag.lean ====
section
/-! DEFINITION. The tag port and the tag window (R120 to R150): the island's answers on the air, the window's
banks and inbox, the arbiter, and the supervisor's updates. -/

namespace Sys2Proof.Machine

/-! ### The window (R128 to R136) -/

/-- The commit word (R345), as stored. -/
def commitBytes : Bytes := [0x3C, 0x5A, 0xA5, 0xC3]

/-- Bytes of the window. -/
def Tag.bytes (t : Tag) (off len : Nat) : Bytes := Memory.readN t.mem off len
/-- A little-endian field of the window. -/
def Tag.num (t : Tag) (off n : Nat) : Nat := leVal (t.bytes off n)
/-- The base of a bank (Table 05-3). -/
def bankBase (b : Bool) : Nat := if b then 0x7000 else 0
/-- GEN of a bank's commit row. -/
def Tag.bankGen (t : Tag) (b : Bool) : Nat := t.num (bankBase b) 4

/-- A bank is valid (R130). -/
def Tag.bankValid (t : Tag) (b : Bool) : Bool :=
  t.num (bankBase b + 8) 4 == (crc32c (t.bytes (bankBase b) 8)).toNat &&
    t.bytes (bankBase b + 12) 4 == commitBytes && t.bankGen b % 2 == b2n b

/-- The committed bank; none for a blank window (R130). -/
def Tag.committed (t : Tag) : Option Bool :=
  match t.bankValid false, t.bankValid true with
  | true, true => some (decide ((t.bankGen true + 2 ^ 32 - t.bankGen false) % 2 ^ 32 < 2 ^ 31))
  | true, false => some false
  | false, true => some true
  | false, false => none

/-- GEN of a bank choice; 0 for a blank window. -/
def Tag.genOf (t : Tag) (b : Option Bool) : Word :=
  match b with
  | none => 0
  | some b => BitVec.ofNat 32 (t.bankGen b)

/-- The committed GEN. -/
def Tag.gen (t : Tag) : Word := t.genOf t.committed

/-- Byte `i` of the committed configuration row; a blank window has zeros (R131). -/
def Tag.cfgByte (t : Tag) (i : Nat) : Byte :=
  match t.committed with
  | none => 0
  | some b => Memory.read t.mem (bankBase b + 0x10 + i)

/-- The CRC of the UID row matches (Table 05-8). -/
def Tag.uidValid (t : Tag) : Bool := t.num 0xF01C 4 == (crc32c (t.bytes 0xF000 28)).toNat

/-- The island uses the UID row: it is valid and does not await writing (R124, R134). -/
def Tag.uidUsable (t : Tag) : Bool := t.uidValid && !t.rowsAwait

/-- One copy of the processed marker (R135). -/
def Tag.marker (t : Tag) (odd : Bool) : Option Nat :=
  let o := if odd then 0xF030 else 0xF020
  if t.num (o + 8) 4 = (crc32c (t.bytes o 8)).toNat ∧ t.bytes (o + 12) 4 = commitBytes ∧ t.num o 6 % 2 = b2n odd then
    some (t.num o 6)
  else none

/-- PSEQ. -/
def Tag.pseq (t : Tag) : Nat := max ((t.marker false).getD 0) ((t.marker true).getD 0)

/-- The SEQ of an inbox slot that holds a valid record (R136). -/
def Tag.slotSeq (t : Tag) (i : Nat) : Option Nat :=
  let o := 0xE000 + 256 * i
  let len := t.num (o + 6) 2
  if len ≤ 224 ∧ t.num (o + 8) 4 = (crc32c (t.bytes o 8 ++ t.bytes (o + 16) len)).toNat ∧
      t.bytes (o + 240) 4 = commitBytes then some (t.num o 6) else none

/-- A slot is free (R136). -/
def Tag.slotFree (t : Tag) (i : Nat) : Bool :=
  match t.slotSeq i with
  | none => true
  | some q => decide (q ≤ t.pseq)

/-- The slot of the newest valid record, and its SEQ. -/
def Tag.newest (t : Tag) : Option (Nat × Nat) :=
  (List.range 16).foldl (fun m i => match t.slotSeq i, m with
    | none, m => m
    | some q, none => some (i, q)
    | some q, some (j, r) => if r < q then some (i, q) else some (j, r)) none

/-- The number of free slots. -/
def Tag.freeSlots (t : Tag) : Nat := (List.range 16).countP t.slotFree
/-- The number of valid records above PSEQ. -/
def Tag.newSlots (t : Tag) : Nat := (List.range 16).countP fun i => !t.slotFree i
/-- The record above PSEQ with the lowest SEQ. -/
def Tag.oldestNew (t : Tag) : Option (Nat × Nat) :=
  (List.range 16).foldl (fun m i => match t.slotSeq i, m with
    | none, m => m
    | some q, m => if q ≤ t.pseq then m else match m with
      | none => some (i, q)
      | some (j, r) => if q < r then some (i, q) else some (j, r)) none

/-- The island runs on VDD_IO, which is there from 1.68 V on (R121, Table 21-2, log 10). -/
def State.tagVio (s : State) : Bool := decide (1680 ≤ s.power.levels.io)

/-- V_ST that a measurement of `v` in units of 10 mV stands for: the charge pump holds it at 2.80 V while VDD_IO is
there (R121). -/
def State.vst (v : Nat) (s : State) : Nat := if s.tagVio then 280 else v

abbrev State.updTag (s : State) (f : Tag → Tag) : State := { s with tag := f s.tag }

/-- The main side uses the bridge: it runs, the bridge is up, and the life-cycle state is not INVALID (R13). -/
def State.bridged (s : State) : Bool := s.supervisor && s.bay.bridge == 1 && s.lc.state != .invalid

/-- The supervisor passes the oldest new inbox record to Bay, one at a time (R139). -/
def State.feedBay (s : State) : State :=
  if s.bridged && s.tag.inboxBusy.isNone && 2 ≤ s.hrb.rclTagw then
    match s.tag.oldestNew with
    | none => s
    | some (i, q) =>
      let len := s.tag.num (0xE000 + 256 * i + 6) 2
      { s with tag := { s.tag with inboxBusy := some (BitVec.ofNat 48 q) }
               bay := { s.bay with reqs := s.bay.reqs ++
                 [{ bop := .ack, args := leN 6 q ++ s.tag.bytes (0xE000 + 256 * i + 16) len, host := false }] } }
  else s

/-- After the recall of a main-side start the supervisor asks Bay for a fresh summary (R141). -/
def State.askSummary (s : State) : State :=
  if s.bridged && s.tag.askDue && 2 ≤ s.hrb.rclMain && 2 ≤ s.hrb.rclTagw then
    { s with tag := { s.tag with askDue := false }
             bay := { s.bay with reqs := s.bay.reqs ++ [{ bop := .summary, host := false }] } }
  else s

/-! ### The arbiter (R143, R144) -/

/-- The frame delay of a reply at grid step `n`, by the last bit of the reader's frame (R126). -/
def gridDelay (n : Nat) (lastBit : Bool) : Nat := max n 9 * 128 + if lastBit then 84 else 20

/-- A control byte with its CID. -/
def pcb (p : Byte) (cid : Option (BitVec 4)) : Bytes :=
  match cid with
  | none => [p]
  | some c => [p ||| 0x08, c.setWidth 8]

/-- A frame's CRC_A follows it. -/
def withCrcA (b : Bytes) : Bytes := b ++ crcA b

/-- The next block of the response that is left, as an I-block. -/
def Tag.sendBlock (t : Tag) (cid : Option (BitVec 4)) : Tag :=
  let room := t.fsd - 3 - (pcb 0x02 cid).length + 1
  let part := t.txRest.take room
  let more := room < t.txRest.length
  let p : Byte := 0x02 ||| (if more then 0x10 else 0) ||| (if t.bn then 1 else 0)
  let b := withCrcA (pcb p cid ++ part)
  { t with reply := some b, replySkip := 0, lastBlock := b, txRest := t.txRest.drop room }

/-- A response: data and status word. -/
def Tag.respond (t : Tag) (cid : Option (BitVec 4)) (data : Bytes) (sw : Nat) : Tag :=
  { t with txRest := data ++ beN 2 sw }.sendBlock cid

/-- The pending field command answers, unless layer 4 has closed since. -/
def Tag.finish (t : Tag) (data : Bytes) (sw : Nat) : Tag :=
  if t.jobQuiet then { t with job := none, jobQuiet := false }
  else { { t with job := none, replyDelay := gridDelay t.jobN t.jobLast }.respond t.jobCid data sw with job := none }

/-- The rows that the memory part of a PUT ACK takes (R137, R143). -/
def ackRowCount (ack : Bytes) : Nat := (16 + ack.length + 15) / 16 + 2

/-- V_ST, in units of 10 mV, is at or above V_NEED(n) (R150). -/
def vstEnough (vst n : Nat) : Bool := decide (38025 + 1702 * n ≤ vst * vst)

/-- A main-side request is at the arbiter and not yet granted (R146). -/
def Tag.mainReq (t : Tag) : Bool := !t.mainJobs.isEmpty && t.holder != Holder.main

/-- The arbiter chooses at a granule boundary (R144). A PUT ACK in too weak a field writes nothing and is no
granule (R143, R150). No field command takes more than 20 rows, so each has one granule. The bank that an update writes
is never the latched one: the update waits for that (R140), and only the committed bank is latched. -/
def Tag.grant (t : Tag) : Tag :=
  let main (t : Tag) : Tag := { t with holder := if t.mainJobs.isEmpty then .none else .main }
  match t.job with
  | none => main t
  | some j =>
    if t.fieldCount = 4 ∧ !t.mainJobs.isEmpty then main t
    else match j with
      | .read _ _ _ => { t with holder := .field }
      | .putAck _ _ a =>
        if vstEnough t.vst (ackRowCount a) then { t with holder := .field }
        else main (t.finish [] 0x6F01)

/-- The arbiter grants at once where no granule is under way. -/
def Tag.regrant (t : Tag) : Tag := if t.holder = .none then t.grant else t

/-- The main side's next job joins those that wait. -/
def Tag.ask (j : MainJob) (t : Tag) : Tag := { t with mainJobs := t.mainJobs ++ [j] }.regrant

/-- What a main-side reset or the start of the save takes from the arbiter: the main side's jobs and its granule
(R141). -/
def Tag.dropMain (t : Tag) : Tag :=
  { t with update := none, mainJobs := [], holder := if t.holder = Holder.main then .none else t.holder }.regrant

/-! ### Supply and session (R121, R122) -/

/-- The volatile state of the island, as it starts. -/
def Tag.cold (t : Tag) : Tag :=
  { t with session := false, l3 := .idle, star := false, level := 1, iso4 := false, ppsDue := false, rate := 0, cid := 0, bn := true
           lastBlock := [], txRest := [], acks := [], reply := none, app := .none, file := .none, latch := none
           releasedGen := none, changed := false, job := none, jobQuiet := false
           holder := if t.holder = Holder.field then .none else t.holder, fieldCount := 0 }.regrant

def execIslandStart (vst : Nat) (s : State) : Res :=
  .next <|
    if !s.tag.running ∧ 205 < s.vst vst then s.updTag fun t => { t.cold with running := true, vst := s.vst vst }
    else s

/-- The rows that PUT ACK writes, in its order (R137). -/
def ackRows (slot : Nat) (seq : BitVec 48) (ack : Bytes) : List (Nat × Bytes) :=
  let o := 0xE000 + 256 * slot
  let head := leN 6 seq.toNat ++ leN 2 ack.length
  let rec_ := head ++ leN 4 (crc32c (head ++ ack)).toNat ++ zeros 4 ++ ack
  let n := (16 + ack.length + 15) / 16
  [(o + 240, zeros 16)] ++ ((List.range n).map fun i => (o + 16 * i, padTo 16 (slice rec_ (16 * i) 16))) ++
    [(o + 240, commitBytes ++ zeros 12)]

/-- The first `k` rows written. -/
def writeRows (m : List Host.Cell) (rows : List (Nat × Bytes)) (k : Nat) : List Host.Cell :=
  (rows.take k).foldl (fun m r => Memory.writeN m r.1 r.2) m

/-- The island resets: a PUT ACK in progress has written `rows` rows, never the last (R121, R137). The session and the
field that it saw end with it (R122, R146). -/
def execIslandReset (rows : Nat) (s : State) : Res :=
  .next <|
    if s.tag.running then
      let mem := match s.tag.holder, s.tag.job with
        | .field, some (.putAck i q a) => writeRows s.tag.mem (ackRows i q a) (min rows ((ackRows i q a).length - 1))
        | _, _ => s.tag.mem
      let t := s.updTag fun t => { t.cold with running := false, vst := 0, field := false, mem }
      if s.tag.field then t.evA 5 else t
    else s

/-- A field after at least 10 ms without one: a session, with its UID mode and random UID (R122, R124). -/
def execFieldDetected (s : State) : Res :=
  .next <|
    if s.tag.running ∧ !s.tag.session then
      let r := s.random 3
      let random := s.tag.cfgByte 0 == 1 || !s.tag.uidUsable
      ((s.drawn).updTag fun t => { t.cold with session := true, field := true, random, rid := BitVec.ofNat 24 (leVal r) }).evA 5
    else s

def execFieldLossTimeout (s : State) : Res :=
  .next <|
    if s.tag.session then (s.updTag fun t => { t.cold with field := false }).evA 5
    else s

/-! ### Layer 3 (R123, R124, R126) -/

/-- The tag answers a frame, on the grid of R126; a frame of layer 3 has n = 9. -/
def Tag.say (t : Tag) (b : Bytes) (lastBit : Bool) (n : Nat := 9) : Tag :=
  { t with reply := some b, replySkip := 0, replyDelay := gridDelay n lastBit }

/-- The tag stays silent. -/
def Tag.silent (t : Tag) : Tag := { t with reply := none }

/-- A frame that READY and ACTIVE do not take: back to IDLE or HALT, without an answer (ISO/IEC 14443-3, log 5). -/
def Tag.lapse (t : Tag) : Tag := { t.silent with l3 := if t.star then .halt else .idle }

/-- The tag hears layer-3 frames: it runs, a session is open and layer 4 is not. -/
def State.tagL3 (s : State) : Bool := s.tag.running && s.tag.session && !s.tag.iso4

/-- A layer-3 frame comes; under layer 4 it is no block and stays without an answer. -/
def State.hear3 (k : Tag → Tag) (s : State) : State :=
  if s.tagL3 then s.updTag k else if s.tag.running && s.tag.session then s.updTag Tag.silent else s

/-- ATQA (Table 05-1). -/
def Tag.atqa (t : Tag) : Bytes := if t.random then [0x04, 0x00] else [0x44, 0x00]

def execTagReqa (s : State) : Res :=
  .next <| s.hear3 fun t =>
    match t.l3 with
    | .idle => { t.say t.atqa false with l3 := .ready, star := false, level := 1 }
    | .halt => t.silent
    | .ready | .active => t.lapse

def execTagWupa (s : State) : Res :=
  .next <| s.hear3 fun t =>
    match t.l3 with
    | .idle | .halt => { t.say t.atqa true with l3 := .ready, star := t.l3 == .halt, level := 1 }
    | .ready | .active => t.lapse

/-- UID CLn and BCC of a cascade level (Table 05-1). -/
def Tag.uidCl (t : Tag) (level : Nat) : Option Bytes :=
  let cl : Option Bytes :=
    if t.random then
      if level = 1 then some (0x08 :: leN 3 t.rid.toNat) else none
    else if level = 1 then some (0x88 :: t.bytes 0xF010 3)
    else if level = 2 then some (t.bytes 0xF013 4)
    else none
  cl.map fun c => c ++ [c.foldl (· ^^^ ·) 0]

/-- The bits of a byte string as a card sends them, least significant first. -/
def airBits (b : Bytes) : List Bool := b.flatMap fun x => (List.range 8).map x.getLsbD

/-- A frame that names a UID of a cascade level: READY answers where it fits (`k`), and every other case of READY and
ACTIVE lapses. -/
def Tag.cascade (level : Nat) (k : Bytes → Option Tag) (t : Tag) : Tag :=
  match t.l3 with
  | .idle | .halt => t.silent
  | .active => t.lapse
  | .ready => (((if level = t.level then t.uidCl level else none).bind k)).getD t.lapse

def execTagAnticollision (level : Nat) (known : List Bool) (lastBit : Bool) (s : State) : Res :=
  .next <| s.hear3 fun t => t.cascade level fun u =>
    if known == (airBits u).take known.length ∧ known.length < 40 then
      some { t.say u lastBit with replySkip := known.length }
    else none

def execTagSelect (level : Nat) (uid : Bytes) (lastBit : Bool) (s : State) : Res :=
  .next <| s.hear3 fun t => t.cascade level fun u =>
    if uid ≠ u then none
    else if level = 1 ∧ !t.random then some { t.say (withCrcA [0x04]) lastBit with level := 2 }
    else some { t.say (withCrcA [0x20]) lastBit with l3 := .active }

def execTagHlta (s : State) : Res :=
  .next <| s.hear3 fun t => if t.l3 = .ready ∨ t.l3 = .active then { t.silent with l3 := .halt } else t.silent

/-! ### Layer 4 (R125 to R127) -/

/-- FSD by FSDI (ISO/IEC 14443-4). -/
def fsdOf (i : BitVec 4) : Nat := [16, 24, 32, 40, 48, 64, 96, 128, 256].getD i.toNat 256

/-- TA(1) by RATE_MAX (Table 05-2). -/
def taOf (r : Byte) : Byte := if r = 0 then 0x80 else if r = 1 then 0x91 else 0xB3

def execTagRats (fsdi cid : BitVec 4) (lastBit : Bool) (n : Nat) (s : State) : Res :=
  .next <| s.hear3 fun t =>
    match t.l3 with
    | .idle | .halt => t.silent
    | .ready => t.lapse
    | .active =>
      { t.say (withCrcA [0x05, 0x78, taOf (t.cfgByte 1), 0x40, 0x02]) lastBit n with
        iso4 := true, ppsDue := true, ppsMax := min 2 (t.cfgByte 1).toNat, rate := 0, fsd := fsdOf fsdi, cid, bn := true
        lastBlock := [], txRest := [], acks := [] }

/-- A block carries the CID that the card has: none stands for CID 0. -/
def Tag.hears (t : Tag) (cid : Option (BitVec 4)) : Bool :=
  match cid with
  | none => t.cid == 0
  | some c => c == t.cid

/-- Layer 4 is open. -/
def State.tagL4 (s : State) : Bool := s.tag.running && s.tag.session && s.tag.iso4

/-- A frame of layer 4 comes: `ok` says whether the tag takes it, and it answers no other. -/
def State.hear4 (ok : Tag → Bool) (k : Tag → Tag) (s : State) : State :=
  if s.tagL4 then s.updTag fun t => if ok t then k t else t.silent else s

/-- Only a rate that the TA(1) sent grants, the same in both directions, is accepted (R125). -/
def execTagPps (cid dri dsi : BitVec 4) (lastBit : Bool) (n : Nat) (s : State) : Res :=
  .next <| s.hear4 (fun t => t.ppsDue && cid == t.cid && dri == dsi && decide (dri.toNat ≤ t.ppsMax)) fun t =>
    { t.say (withCrcA [0xD0 ||| cid.setWidth 8]) lastBit n with rate := dri.toNat, ppsDue := false }

/-- The field's latch ends with the layer-4 session. -/
def Tag.unlatch (t : Tag) : Tag := { t with latch := none, releasedGen := none, changed := false }

/-- The answer, and HALT. A field granule under way runs to its end, without an answer (R143). -/
def execTagSDeselect (cid : Option (BitVec 4)) (lastBit : Bool) (n : Nat) (s : State) : Res :=
  .next <| s.hear4 (fun t => t.hears cid) fun t =>
    { (t.say (withCrcA (pcb 0xC2 cid)) lastBit n).unlatch with
      iso4 := false, l3 := .halt, app := .none, file := .none, txRest := []
      job := if t.holder = .field then t.job else none, jobQuiet := t.holder == .field }

/-- A reply that is not ready after 32,768 fc: S(WTX) with WTXM 1 at the next grid point. `lastBit` and `n` tell of the
reader's S(WTX) that answers it, from which the reply then counts (R126, R127). -/
def execTagWtxTimer (lastBit : Bool) (n : Nat) (s : State) : Res :=
  .next <|
    if s.tagL4 ∧ s.tag.job.isSome then
      s.updTag fun t =>
        let b := withCrcA (pcb 0xF2 t.jobCid ++ [0x01])
        { t with reply := some b, replySkip := 0, replyDelay := gridDelay 256 t.jobLast, lastBlock := b, jobLast := lastBit, jobN := n }
    else s

def execTagRBlock (nak : Bool) (bn : Bool) (cid : Option (BitVec 4)) (lastBit : Bool) (n : Nat) (s : State) : Res :=
  .next <| s.hear4 (fun t => t.hears cid) fun t =>
    let t := { t with ppsDue := false, replyDelay := gridDelay n lastBit }
    if bn = t.bn then (if t.lastBlock.isEmpty then t.silent else { t with reply := some t.lastBlock })
    else if nak then { t with reply := some (withCrcA (pcb (0xA2 ||| if t.bn then 1 else 0) cid)) }
    else if t.txRest.isEmpty then t.silent
    else { t with bn := !t.bn }.sendBlock cid

/-! ### Applications (R147 to R149) -/

/-- A field command's memory part is pending; it starts at once where the arbiter is free. -/
def Tag.pend (t : Tag) (c : Apdu) (j : FieldJob) : Tag :=
  { t with job := some j, jobCid := c.cid, jobLast := c.lastBit, jobN := c.n, jobQuiet := false, reply := none }.regrant

/-- Bytes of a command APDU on the air. -/
def Apdu.size (c : Apdu) : Nat := 4 + (if c.data = [] then 0 else 1 + c.data.length) + b2n c.le.isSome

/-- One of its frames is above FSC, 256 bytes with control byte, CID and CRC (R127). -/
def Apdu.long (c : Apdu) : Bool := decide (c.blocks * (253 - b2n c.cid.isSome) < c.size)

/-- The R(ACK)s for the I-blocks of a chained command but its last, each under the block number that its I-block
toggled (R127). -/
def ackBlocks (cid : Option (BitVec 4)) : Nat → Bool → List Bytes
  | 0, _ => []
  | k + 1, bn => withCrcA (pcb (0xA2 ||| if bn then 0 else 1) cid) :: ackBlocks cid k (!bn)

/-- What every command passes first: the frames are heard, CLA is 00 or 80, the INS exists under it, and the
window has not changed since the latch ended (R144, R149). `k` is the command itself. -/
def State.apdu (c : Apdu) (cla : Byte) (isSelect : Bool) (k : Tag → Tag) (s : State) : State :=
  s.hear4 (fun t => t.hears c.cid && !c.nad && !c.long && t.job.isNone) fun t =>
    let t := { t with ppsDue := false, bn := if c.blocks % 2 = 1 then !t.bn else t.bn, acks := ackBlocks c.cid (c.blocks - 1) t.bn
                      lastBlock := ((ackBlocks c.cid (c.blocks - 1) t.bn).getLast?).getD [], replyDelay := gridDelay c.n c.lastBit }
    if c.cla ≠ 0x00 ∧ c.cla ≠ 0x80 then t.respond c.cid [] 0x6E00
    else if c.ins.isSome ∨ c.cla ≠ cla then t.respond c.cid [] 0x6D00
    else if isSelect then k t
    else if t.changed then t.respond c.cid [] 0x6F03
    else match t.releasedGen with
      | none => k t
      | some g =>
        if t.gen = g then k { t with latch := some t.committed, releasedGen := none }
        else { t with changed := true }.respond c.cid [] 0x6F03

/-- The bank that the session reads: the latched one, else the committed one. -/
def Tag.sessionBank (t : Tag) : Option Bool := t.latch.getD t.committed

/-- Byte `i` of the configuration row that the session reads (R131, R144). -/
def Tag.sessionCfg (t : Tag) (i : Nat) : Byte :=
  match t.sessionBank with
  | none => 0
  | some b => Memory.read t.mem (bankBase b + 0x10 + i)

/-- AIDs of Table 05-11. -/
def aidInspector : Bytes := [0xF0, 0x41, 0x45, 0x4C, 0x4B, 0x49, 0x4E, 0x31]
def aidNdef : Bytes := [0xD2, 0x76, 0x00, 0x00, 0x85, 0x01, 0x01]

/-- An application is selected; a SELECT of the other one latches again, and one of the same application keeps its
latch (R144, log 71). -/
def Tag.select (t : Tag) (a : TagApp) : Tag :=
  let latch := if t.app = a ∧ t.latch.isSome then t.latch else some t.committed
  { t with app := a, file := .none, latch, releasedGen := none, changed := false }

def execSelectByAid (c : Apdu) (s : State) : Res :=
  .next <| s.apdu c 0x00 true fun t =>
    if c.p1 ≠ 0x04 ∨ c.p2 ≠ 0x00 then t.respond c.cid [] 0x6A86
    else if c.data = aidInspector then
      let t := t.select .inspector
      t.respond c.cid ([0x01, 0x01] ++ leN 4 (t.genOf t.sessionBank).toNat) 0x9000
    else if c.data = aidNdef ∧ ((t.select .ndef).sessionCfg 2).getLsbD 0 then (t.select .ndef).respond c.cid [] 0x9000
    else t.respond c.cid [] 0x6A82

def execSelectFile (c : Apdu) (s : State) : Res :=
  .next <| s.apdu c 0x00 false fun t =>
    if t.app ≠ .ndef then t.respond c.cid [] 0x6A82
    else if c.p1 ≠ 0x00 ∨ c.p2 ≠ 0x0C then t.respond c.cid [] 0x6A86
    else if c.data.length ≠ 2 then t.respond c.cid [] 0x6700
    else if c.data = [0xE1, 0x03] then { t with file := .cc }.respond c.cid [] 0x9000
    else if c.data = [0xE1, 0x04] then { t with file := .ndef }.respond c.cid [] 0x9000
    else t.respond c.cid [] 0x6A82

/-- The capability container (Table 05-11). -/
def ccFile : Bytes := [0x00, 0x0F, 0x20, 0x00, 0xF0, 0x00, 0xF0, 0x04, 0x06, 0xE1, 0x04, 0x01, 0x00, 0x00, 0xFF]

/-- A read of the session's bank; a blank window reads as zeros (R131). -/
def Tag.readBank (t : Tag) (c : Apdu) (pre : Bytes) (off len : Nat) : Tag :=
  match t.sessionBank with
  | none => t.respond c.cid (pre ++ zeros len) 0x9000
  | some b => t.pend c (.read pre (bankBase b + off) len)

def execReadBinary (c : Apdu) (s : State) : Res :=
  .next <| s.apdu c 0x00 false fun t =>
    let off := c.p1.toNat * 256 + c.p2.toNat
    let le := match c.le with | none => 0 | some l => if l = 0 then 256 else l.toNat
    if t.app = .ndef ∧ c.data ≠ [] then t.respond c.cid [] 0x6700
    else match t.app, t.file with
    | .ndef, .cc =>
      if ccFile.length ≤ off then t.respond c.cid [] 0x6B00 else t.respond c.cid (slice ccFile off le) 0x9000
    | .ndef, .ndef =>
      if 256 ≤ off then t.respond c.cid [] 0x6B00 else t.readBank c [] (0x100 + off) (min le (256 - off))
    | _, _ => t.respond c.cid [] 0x6A82

def execUpdateBinary (c : Apdu) (s : State) : Res :=
  .next <| s.apdu c 0x00 false fun t => t.respond c.cid [] 0x6986

/-- Commands of the inspector application that send no data. -/
def Tag.inspect (t : Tag) (c : Apdu) (pOk : Bool) (k : Tag → Tag) : Tag :=
  if t.app ≠ .inspector then t.respond c.cid [] 0x6A82
  else if !pOk then t.respond c.cid [] 0x6A86
  else if c.data ≠ [] then t.respond c.cid [] 0x6700
  else k t

def execGetIdentity (c : Apdu) (s : State) : Res :=
  .next <| s.apdu c 0x80 false fun t => t.inspect c (c.p1 = 0 ∧ c.p2 = 0) fun t =>
    if !t.uidUsable then t.respond c.cid [] 0x6985
    else
      let pre := t.bytes 0xF000 16 ++ [if t.random then 1 else 0, BitVec.ofNat 8 t.rate, 0, 0] ++
        leN 4 (t.genOf t.sessionBank).toNat
      t.readBank c pre 0x20 64

def execGetSummary (c : Apdu) (s : State) : Res :=
  .next <| s.apdu c 0x80 false fun t => t.inspect c ((c.p1 = 0 ∨ c.p1 = 1) ∧ c.p2 = 0) fun t =>
    if t.sessionBank.isNone then t.respond c.cid [] 0x6985
    else t.readBank c [] (0x200 + 256 * c.p1.toNat) 256

def execReadLog (c : Apdu) (s : State) : Res :=
  .next <| s.apdu c 0x80 false fun t =>
    t.inspect c ((c.p2 = 1 ∨ c.p2 = 2) ∧ c.p1.toNat + c.p2.toNat ≤ 64) fun t =>
    if t.sessionBank.isNone then t.respond c.cid [] 0x6985
    else t.readBank c [] (0x400 + 128 * c.p1.toNat) (128 * c.p2.toNat)

/-- The acknowledgement is well formed, of format 0x01 and for this unit (R138). -/
def Tag.ackOk (t : Tag) (a : Bytes) : Bool :=
  a.length == 104 + fld a 38 2 && byteAt a 0 == 0x01 && slice a 6 16 == t.bytes 0xF000 16

/-- `vst` is V_ST as the island measures it at the start of the granule (R150). -/
def execPutAck (c : Apdu) (vst : Nat) (s : State) : Res :=
  .next <| s.apdu c 0x80 false fun t =>
    if t.app ≠ .inspector then t.respond c.cid [] 0x6A82
    else if c.p1 ≠ 0 ∨ c.p2 ≠ 0 then t.respond c.cid [] 0x6A86
    else if c.data.length < 104 ∨ 224 < c.data.length then t.respond c.cid [] 0x6700
    else if (t.sessionCfg 2).getLsbD 1 then t.respond c.cid [] 0x6985
    else if !t.ackOk c.data then t.respond c.cid [] 0x6A80
    else
      let (slot, seq) := match t.newest with
        | none => (0, 1)
        | some (i, q) => ((i + 1) % 16, q + 1)
      if !t.slotFree slot then t.respond c.cid [] 0x6A84
      else { t with vst := s.vst vst }.pend c (.putAck slot (BitVec.ofNat 48 seq) c.data)

def execInboxStatus (c : Apdu) (s : State) : Res :=
  .next <| s.apdu c 0x80 false fun t => t.inspect c (c.p1 = 0 ∧ c.p2 = 0) fun t =>
    t.respond c.cid ([BitVec.ofNat 8 t.freeSlots] ++ leN 6 ((t.newest.map Prod.snd).getD 0) ++ leN 6 t.pseq) 0x9000

/-! ### Granules (R137, R140, R143 to R145) -/

/-- The first row whose write fails for good (R137): its repeat is not allowed by V_ST, or differs too. `vst` gives the
V_ST that a measurement stands for. -/
def ackStop (vst : Nat → Nat) (n : Nat) : List RowFail → Option Nat
  | [] => none
  | f :: r => if vstEnough (vst f.vst) (n - f.row) && f.repeatOk then ackStop vst n r else some f.row

/-- The memory part of the field command in its granule. -/
def State.fieldGranule (fails : List RowFail) (s : State) : State :=
  match s.tag.job with
  | none => s
  | some (.read pre off len) => s.updTag fun t => t.finish (pre ++ t.bytes off len) 0x9000
  | some (.putAck i q a) =>
    let rows := ackRows i q a
    match ackStop (fun v => s.vst v) rows.length fails with
    | some r =>
      let bad := s.random 16
      let at_ := (rows.getD r (0xE000 + 256 * i, [])).1
      (s.drawn).updTag fun t =>
        { t with mem := Memory.writeN (writeRows t.mem rows (min r (rows.length - 1))) at_
                   (if r + 1 < rows.length then bad else zeros 16) }.finish [] 0x6F02
    | none =>
      (s.updTag fun t => { t with mem := writeRows t.mem rows rows.length }.finish (leN 6 q.toNat) 0x9000).feedBay

/-- One granule of an update (R140, R145): the commit word cleared, 16 rows of the image written, or 16 rows read
back, which the supervisor judges after the last of them. -/
def Tag.updateGranule (u : TagUpdate) (t : Tag) : Tag :=
  let o := 256 * (u.step - 1)
  let mem :=
    if u.step = 0 then Memory.writeN t.mem (bankBase u.bank + 12) (zeros 4)
    else if u.step ≤ 44 then Memory.writeN t.mem (bankBase u.bank + 0x10 + o) (slice u.image o 256)
    else t.mem
  { t with mem, update := some { u with step := u.step + 1 } }

/-- The row of the processed marker (R135). -/
def markerRow (q : Nat) : Bytes :=
  let h := leN 6 q ++ zeros 2
  h ++ leN 4 (crc32c h).toNat ++ commitBytes

/-- The identity rows as OTP gives them (Table 05-8). -/
def State.identityRows (s : State) : Bytes :=
  let b := padTo 16 s.lc.unitId ++ padTo 7 s.lc.uid ++ zeros 5
  b ++ leN 4 (crc32c b).toNat

/-- TAG_FAULT with SUB 1, once per main-side start (R134). -/
def State.tellRows (s : State) : State :=
  if s.tag.rowsTold then s else (s.updTag fun t => { t with rowsTold := true }).devEvent 0x0A 1 0 s.tag.gen.toNat

/-- The identity rows are written with their read-back while NV_WP_N is high; rows that do not verify hold free bytes and
go on waiting (R134). -/
def State.writeIdentity (ok : Bool) (s : State) : State :=
  if !s.tag.rowsAwait || !s.power.nvWpN then s
  else if ok then s.updTag fun t => { t with mem := Memory.writeN t.mem 0xF000 s.identityRows, rowsAwait := false }
  else
    let r := s.random 32
    ((s.drawn).updTag fun t => { t with mem := Memory.writeN t.mem 0xF000 r }).tellRows

/-- The memory part of the main side's granule: at most 16 rows (R143). -/
def State.mainGranule (s : State) : State :=
  match s.tag.mainJobs with
  | [] => s
  | .read off len got :: rest =>
    let o := off + got.length
    let got := got ++ s.tag.bytes o (min (len - got.length) (256 - o % 16))
    if len ≤ got.length then (s.updTag fun t => { t with mainJobs := rest }).answer .tagRead 0 got
    else s.updTag fun t => { t with mainJobs := .read off len got :: rest }
  | .marker q :: rest =>
    (s.updTag fun t => { t with mainJobs := rest, inboxBusy := none
                                mem := Memory.writeN t.mem (if q.getLsbD 0 then 0xF030 else 0xF020) (markerRow q.toNat) }).feedBay
  | .identity ok :: rest => (s.updTag fun t => { t with mainJobs := rest }).writeIdentity ok
  | .update :: rest =>
    match s.tag.update with
    | none => s.updTag fun t => { t with mainJobs := rest }
    | some u => s.updTag (Tag.updateGranule u)

/-- A main-side granule ends after a wait of so many µs: the counts of R144 and R146, and the next grant. -/
def Tag.mainEnd (waited : Nat) (t : Tag) : Tag :=
  { t with fieldCount := 0, holder := .none
           maxWait := if t.maxWait.toNat < waited then BitVec.ofNat 8 (min waited 255) else t.maxWait }.grant

/-- An update has read its image back: its last granule, the commit, is at the arbiter (R145). -/
def Tag.committing (t : Tag) : Bool :=
  match t.mainJobs, t.update with
  | .update :: _, some u => decide (89 ≤ u.step)
  | _, _ => false

/-- A granule ends: its effect, the counts, and the next grant. The granule that commits an update ends with
WINDOW_UPDATE_COMMIT. -/
def execGranuleEnd (fails : List RowFail) (waited : Nat) (s : State) : Res :=
  .next <|
    match s.tag.holder with
    | .none => s
    | .field =>
      (s.fieldGranule fails).updTag fun t => { t with fieldCount := min 4 (t.fieldCount + 1), holder := .none }.grant
    | .main => if s.tag.committing then s else (s.mainGranule).updTag (Tag.mainEnd waited)

/-- The latch ends for idle or maximum time (R144). -/
def Tag.expire (t : Tag) : Tag :=
  match t.latch with
  | none => t
  | some b => { t with latch := none, releasedGen := some (t.genOf b) }

def execLatchIdleExpiry (s : State) : Res := .next <| s.updTag Tag.expire
def execLatchMaxExpiry (s : State) : Res := .next <| s.updTag Tag.expire

/-! ### Window updates (R132, R133, R140 to R142) -/

/-- A number in decimal. -/
def decimal (n : Nat) : Bytes := ascii (toString n)
/-- Twelve upper-case hexadecimal digits. -/
def hex12 (n : Nat) : Bytes := ((List.range 12).map fun i => BitVec.ofNat 8 (
    let d := n / 16 ^ (11 - i) % 16
    if d < 10 then 48 + d else 55 + d))

/-- The legal digest from a SUMMARY record (Table 05-7). -/
def legalDigest (sum : Bytes) (logCount : Nat) : Bytes :=
  if sum = [] then zeros 64
  else [byteAt sum 80, BitVec.ofNat 8 logCount, 0, 0] ++ slice sum 18 4 ++ slice sum 4 6 ++ slice sum 10 6 ++
    slice sum 48 32 ++ zeros 12

/-- The NDEF file of a bank (R133). -/
def ndefFile (cfg sum : Bytes) (gen : Word) : Bytes :=
  if (byteAt cfg 2).getLsbD 0 then
    let word := match (byteAt sum 80).toNat with | 1 => "SEALED" | 2 => "BROKEN" | _ => "UNSEALED"
    let text := ascii "LID=" ++ (slice sum 48 32).takeWhile (· != 0) ++ ascii ";SEAL=" ++ ascii word ++ ascii ";EVT=" ++
      decimal (fld sum 18 4) ++ ascii ";REC=" ++ hex12 (fld sum 4 6) ++ ascii ";GEN=" ++ decimal gen.toNat
    let pay := [0x02] ++ ascii "en" ++ text
    let rec_ := [0xD1, 0x01, BitVec.ofNat 8 pay.length] ++ ascii "T" ++ pay
    padTo 256 (beN 2 rec_.length ++ rec_)
  else zeros 256

/-- The bank image from offset 0x0010 to 0x2BFF (Table 05-4). -/
def bankImage (cfg site sum : Bytes) (logs : List Bytes) (gen : Word) : Bytes :=
  let slots := (logs.take 64).flatMap fun r => padTo 128 (leN 2 r.length ++ r)
  padTo 16 cfg ++ legalDigest sum (min 64 logs.length) ++ zeros 160 ++ ndefFile cfg sum gen ++
    padTo 512 (if sum = [] then [] else leN 2 sum.length ++ sum) ++ padTo 8192 slots ++ padTo 2048 site

/-- The GEN that the next update writes (R140). -/
def Tag.nextGen (t : Tag) : Word := match t.committed with | none => 1 | some _ => t.gen + 1

/-- The field's latch holds the bank that the next update writes (R140, R144). -/
def Tag.heldUp (t : Tag) : Bool := t.latch == some (some (t.nextGen.getLsbD 0))

/-- The supervisor starts the next update, once the standby bank is not latched (R140, R144): its granules wait for
the arbiter behind what the main side has asked for before. -/
def execWindowUpdateStart (s : State) : Res :=
  .next <|
    let t := s.tag
    let gen := t.nextGen
    if s.supervisor ∧ 2 ≤ s.hrb.rclTagw ∧ t.update = none ∧ (t.due ∨ t.hostDue.isSome) ∧ !t.heldUp then
      let (cfg, site) := match t.hostDue with | none => (t.cfg, t.site) | some h => (h.cfg, h.site)
      let u : TagUpdate := { bank := gen.getLsbD 0, gen, image := bankImage cfg site t.summary t.logCopy gen, host := t.hostDue.isSome
                             deferred := match t.hostDue with | none => false | some h => h.deferred }
      let runs (w : Waiting) : Waiting := if w.what = .tagUpdate then { w with what := .tagRunning } else w
      let s : State := { s with treor := { s.treor with waiting := s.treor.waiting.map runs } }
      s.updTag fun t => { t with cfg, site, due := false, hostDue := none, update := some u }.ask .update
    else s

/-- The commit row of an update (Table 05-5). -/
def commitRow (gen : Word) (image : Bytes) : Bytes :=
  let h := leN 4 gen.toNat ++ leN 4 (crc32c (padTo 0x6FF0 image)).toNat
  h ++ leN 4 (crc32c h).toNat ++ commitBytes

/-- Rows of a bank that did not verify hold free bytes. -/
def spoilRows (base : Nat) : List Nat → Bytes → List Host.Cell → List Host.Cell
  | [], _, m => m
  | i :: is, r, m => spoilRows base is (r.drop 16) (Memory.writeN m (base + 0x10 + 16 * (i % 703)) (r.take 16))

/-- The update has ended. -/
def Tag.updateEnd (t : Tag) : Tag :=
  let t := { t with update := none, mainJobs := t.mainJobs.drop 1 }
  if t.holder = .main then { t with holder := .none }.grant else t

/-- The read-back is judged: `bad` names the rows of the image that differ. Without any, the commit row is written in the
granule that the main side holds for it, which has waited `waited` µs. The first time that rows differ the update is
written once more, the second time it is abandoned (R140). -/
def execWindowUpdateCommit (bad : List Nat) (waited : Nat) (s : State) : Res :=
  .next <|
    match s.tag.update with
    | none => s
    | some u =>
      if !s.tag.committing then s
      else if bad.isEmpty then
        if s.tag.holder = .main then
          let s := (s.updTag fun t =>
            { t with mem := Memory.writeN t.mem (bankBase u.bank) (commitRow u.gen u.image), update := none
                     mainJobs := t.mainJobs.drop 1 }.mainEnd waited).evC 2
          let s := if u.host && !u.deferred then s.answer .tagRunning 0 (leN 4 u.gen.toNat) else s
          s.devEvent 0x0B 0 0 u.gen.toNat
        else s
      else
        let r := s.random (16 * bad.length)
        let s := (s.drawn).updTag fun t => { t with mem := spoilRows (bankBase u.bank) bad r t.mem }
        if !u.again then s.updTag fun t => { t with update := some { u with step := 1, again := true } }
        else
          let s := (s.updTag Tag.updateEnd).evC 2
          let s := if u.host && !u.deferred then s.answer .tagRunning 0x0501 [] else s
          s.devEvent 0x0A 0 0 s.tag.gen.toNat

/-- A host update held by the field's latch for more than 1 s (R142). -/
def execTagwDeferTimeout (s : State) : Res :=
  .next <|
    match s.tag.hostDue with
    | some h =>
      if h.deferred || !s.tag.heldUp then s
      else (s.updTag fun t => { t with hostDue := some { h with deferred := true } }).answer .tagUpdate 0x0A01 (zeros 4)
    | none => s

/-- Bay has answered the inbox record: TAG_INBOX, then PSEQ in a granule of its own, and with it the next record
(R139). -/
def execInboxAckAnswer (s : State) : Res :=
  .next <|
    match s.tag.inboxBusy, s.tag.inboxAnswer with
    | some q, some o =>
      if s.supervisor then
        (s.devEvent 0x09 o 0 q.toNat).updTag fun t => { t with inboxAnswer := none }.ask (.marker q)
      else s
    | _, _ => s

/-- Bay has stopped before it answered the inbox record: it gets the record again (R139). -/
def Tag.inboxAgain (t : Tag) : Tag :=
  if t.inboxAnswer.isNone && t.mainJobs.all (fun | .marker _ => false | _ => true) then { t with inboxBusy := none } else t

/-! ### Recall and the identity rows (R134, R141, R142) -/

/-- The supervisor asks for the granule that writes the identity rows, with the outcome of their read-back. -/
def State.askIdentity (ok : Bool) (s : State) : State :=
  if s.tag.rowsAwait && s.power.nvWpN then s.updTag (Tag.ask (.identity ok)) else s

/-- The window's recall completes: the image is taken from the committed bank, an update is due, and the
identity rows are compared with OTP; `rowsOk` is the outcome of writing them, where they are written now. -/
def execTagwRecallDone (ok rowsOk : Bool) (ms : Nat) (s : State) : Res :=
  .next <|
    if s.supervisor ∧ s.hrb.rclTagw.toNat ≤ 1 then
      if ok then
        let t := s.tag
        let at_ (o n : Nat) : Bytes := match t.committed with | none => [] | some b => t.bytes (bankBase b + o) n
        let sum := at_ 0x200 512
        let logs := (List.range (byteAt (at_ 0x20 64) 1).toNat).map fun i =>
          let e := at_ (0x400 + 128 * i) 128
          slice e 2 (fld e 0 2)
        let s := { s with hrb := { s.hrb with rclTagw := 2, pagesTagw := 256 } }
        let s := s.updTag fun t => { t with cfg := padTo 3 (at_ 0x10 3), site := at_ 0x2400 2048
                                            summary := slice sum 2 (fld sum 0 2), logCopy := logs, due := true }
        let s := if s.lc.state = .provisioning ∨ s.lc.state = .deployed ∨ s.lc.state = .returned then
            let await := t.bytes 0xF000 32 != s.identityRows
            let s := s.updTag fun t => { t with rowsAwait := await }
            if await && !s.power.nvWpN then s.tellRows else s.askIdentity rowsOk
          else s
        (s.recallEnd ms).feedBay.askSummary
      else ({ s with hrb := { s.hrb with rclTagw := 3 } }).recallEnd ms |>.askSummary
    else s

/-! ### Host requests (R142, R205) -/

def execTagwRead (r : Req) (s : State) : Res :=
  .next <| s.request 0x0A01 r (r.body.length = 4 ∧ fld r.body 2 2 ≠ 0) fun s =>
    let off := fld r.body 0 2
    let len := fld r.body 2 2
    if 2048 < len ∨ 0x10000 < off + len then s.respond r 0x0A01 0x0506 []
    else (s.wait .tagRead r 0x0A01).updTag (Tag.ask (.read off len []))

def execTagwUpdate (r : Req) (s : State) : Res :=
  .next <| s.request 0x0A02 r (r.body.length = 8 + fld r.body 4 2 ∧ fld r.body 4 2 ≤ 2048 ∧ byteAt r.body 3 = 0 ∧
      fld r.body 6 2 = 0) fun s =>
    if 1 < (byteAt r.body 0).toNat ∨ 2 < (byteAt r.body 1).toNat ∨ 3 < (byteAt r.body 2).toNat then s.respond r 0x0A02 0x0A03 []
    else
      let s := match s.tag.hostDue with
        | some h => if h.deferred then s else s.answer .tagUpdate 0x0A02 []
        | none => s
      (s.updTag fun t => { t with hostDue := some { cfg := r.body.take 3, site := r.body.drop 8 } }).wait .tagUpdate r 0x0A02

def execTagwStatus (r : Req) (s : State) : Res :=
  .next <| s.request 0x0A03 r (r.body.length = 0) fun s =>
    let t := s.tag
    let cb : Byte := match t.committed with | none => 2 | some b => if b then 1 else 0
    let la : Byte := match t.latch with | none => 0 | some none => 1 | some (some b) => if b then 3 else 1
    s.respond r 0x0A03 0 (leN 4 t.gen.toNat ++ [cb, la, BitVec.ofNat 8 t.freeSlots, 0] ++ leN 6 t.pseq ++
      leN 6 ((t.newest.map Prod.snd).getD 0))

end Sys2Proof.Machine
end

