-- ==== Sys2Proof/Machine/Bay.lean ====
section
/-! DEFINITION. Bay (R399 to R434): meter ports, records in format B1, the ring, the seal, the firmware's
calls, the bridge and its requests. -/

namespace Sys2Proof.Machine

abbrev State.updBay (s : State) (f : Bay → Bay) : State := { s with bay := f s.bay }
abbrev State.updMeter (s : State) (n : Fin 64) (f : Meter → Meter) : State :=
  { s with bay := { s.bay with meters := modify s.bay.meters n f } }
abbrev State.updFw (s : State) (f : BayFw → BayFw) : State := { s with bay := { s.bay with fw := f s.bay.fw } }

/-- Bay works: out of reset and not held by its own power detector (R403). -/
def State.bayOn (s : State) : Bool := s.bay.running && !s.bay.holding

/-! ### The committed configuration (R427) and firmware (R429) -/

/-- The configuration object, empty where none is committed. -/
def Bay.cfg (b : Bay) : Bytes := b.config.getD []
/-- CFG_VERSION; 0 with no configuration. -/
def Bay.cfgVersion (b : Bay) : Nat := fld b.cfg 24 4
/-- TOTAL_S. -/
def Bay.totalS (b : Bay) : Nat := fld b.cfg 224 4
/-- The port entry of a configuration object (R410). -/
def cfgEntry (obj : Bytes) (n : Nat) : MeterCfg :=
  let e := slice obj (256 + 8 * n) 8
  { mode := (byteAt e 0).setWidth 4, opt := (byteAt e 1).setWidth 4, filt := byteAt e 2, rate := BitVec.ofNat 16 (fld e 4 2) }
/-- The committed firmware image, empty where none is. -/
def Bay.image (b : Bay) : Bytes :=
  match b.fwSel with
  | none => []
  | some sel => if sel then b.fwB else b.fwA
/-- VERSION of an image header (Table 09-9). -/
def imgVersion (i : Bytes) : Nat := fld i 16 4
/-- BODY_HASH matches. -/
def imgBodyOk (i : Bytes) : Bool := sha (slice i 256 (fld i 20 4 + fld i 24 4)) == slice i 64 32

/-- The Bay signing key (R416). -/
def State.bayScalar (s : State) : Nat := keyScalar (s.dukKey "BAY")

/-! ### Records (R414 to R418) -/

/-- The RTC as a record takes it: seconds, and subseconds with SET. -/
def State.rtcStamp (s : State) : BitVec 48 × BitVec 16 :=
  (s.guard.rtc, BitVec.ofBool s.guard.rtcSet ++ s.guard.rtcSub)

/-- Every type except MEASURE and TOTAL is an event record (R418). -/
def isEventRec (t : Byte) : Bool := t != 0x01 && t != 0x02
/-- The types that increment the event counter (R415). -/
def countsEvt (t : Byte) : Bool := t = 0x11 ∨ t = 0x12 ∨ t = 0x13 ∨ t = 0x14

/-- A body of 24 bytes. -/
def body24 (b : Bytes) : Bytes := padTo 24 b

/-- A record joins those waiting for the signer (R418): while 224 wait no TOTAL is queued, and a TIME_STEP or
FW_RESTART replaces one of its type, which then counts. -/
def Bay.queueRec (b : Bay) (r : BayWaitRec) : Bay :=
  if 224 ≤ b.queue.length then
    if r.type = 0x02 then b
    else if (r.type = 0x14 ∨ r.type = 0x16) ∧ b.queue.any (·.type == r.type) then
      let old := (b.queue.find? (·.type == r.type)).getD r
      { b with queue := b.queue.replace old { r with count := old.count + 1 } }
    else { b with queue := b.queue ++ [r] }
  else { b with queue := b.queue ++ [r] }

/-- The monitor queues a record, stamped with the RTC and the seal state. -/
def State.bayRec (type port : Byte) (body : Bytes) (s : State) : State :=
  let (t, u) := s.rtcStamp
  s.updBay fun b => b.queueRec { type, time := t, subs := u, port, flags := BitVec.ofNat 8 b.sealSt.code, body := body24 body }

/-- A TOTAL record of a port (R413, Table 17-11a), and the value that the next one names. -/
def State.bayTotalRec (reason : Byte) (n : Fin 64) (s : State) : State :=
  let m := s.bay.meters[n]
  if 224 ≤ s.bay.queue.length then s
  else
    (s.bayRec 0x02 (BitVec.ofNat 8 n.val) (leN 8 m.total.toNat ++ leN 8 m.prevTotal.toNat ++ [m.cfg.mode.setWidth 8, reason])).updMeter
      n fun m => { m with prevTotal := m.total }

/-- A port counts: PULSE, QUAD or FREQ. -/
def MeterCfg.counts (c : MeterCfg) : Bool := c.mode = 1 ∨ c.mode = 2 ∨ c.mode = 4

/-- TOTAL records of every counting port. -/
def State.bayTotals (reason : Byte) (s : State) : State :=
  (List.finRange 64).foldl (fun s n => if (s.bay.meters[n]).cfg.counts then s.bayTotalRec reason n else s) s

/-- The newest record number in the ring (R417). -/
def Bay.newest (b : Bay) : Nat :=
  match b.ring.getLast? with
  | none => 0
  | some r => fld r 4 6

/-- A counter bank commits (R403): A takes even SEQ values and B odd ones, the first 0 (R358, R359). -/
def Bay.commitBank (b : Bay) (kind : Nat) (rtc : BitVec 48) : Bay :=
  let next (x : Option BayBank) : Nat := match x with | none => 0 | some k => k.seq + 1
  let n := max (next b.bankA) (next b.bankB)
  let k : BayBank := { seq := n, totals := (b.meters.toList.map (·.total)), rtc, kind }
  if n % 2 = 0 then { b with bankA := some k } else { b with bankB := some k }

/-- The newest valid bank. -/
def Bay.newestBank (b : Bay) : Option BayBank :=
  match b.bankA, b.bankB with
  | none, y => y
  | x, none => x
  | some x, some y => if x.seq < y.seq then some y else some x

/-- The seal as the supervisor sees it: HRB_SEAL, with EVT_C.SEAL at a change (R181, R185). -/
def State.sealView (s : State) : State :=
  if s.bay.bridge = 1 then
    let st : BitVec 2 := BitVec.ofNat 2 s.bay.sealSt.code
    let pd := s.bay.sealPend.map fun p => BitVec.ofNat 2 p.target.code
    if s.bay.seenSeal = st ∧ s.bay.seenPend = pd then s
    else (s.updBay fun b => { b with seenSeal := st, seenPend := pd }).evC 1
  else s

/-- A SEAL record (Table 17-11a). -/
def State.sealRec (old new : SealState) (cause : Byte) (digest : Bytes) (s : State) : State :=
  s.bayRec 0x13 0xFF ([BitVec.ofNat 8 old.code, BitVec.ofNat 8 new.code, cause, if s.bay.pinLow then 1 else 0] ++ padTo 16 digest)

/-- A pending seal change takes effect, with the pin checked again (R425). -/
def State.applySeal (s : State) : State :=
  match s.bay.sealPend with
  | none => s
  | some p =>
    let old := s.bay.sealSt
    if s.bay.pinLow then
      ((s.updBay fun b => { b with sealPend := none, sealSt := p.target }).sealRec old p.target 0 p.digest).sealView
    else ((s.updBay fun b => { b with sealPend := none }).sealRec old old 2 p.digest).sealView

/-- BAY_SEAL_N high after filtering (R423, Table 17-12a). -/
def State.sealBreak (s : State) : State :=
  if s.bay.sealSt = .sealed then
    ((s.updBay fun b => { b with sealSt := .broken, sealPend := none }).sealRec .sealed .broken 1 []).sealView
  else s

def execSealPinChange (high : Bool) (s : State) : Res :=
  .next <|
    if s.bayOn then
      let was := s.bay.pinLow
      let s := s.updBay fun b => { b with pinLow := !high }
      let s := if s.released ∧ was ≠ s.bay.pinLow then s.evC 1 else s
      if high then s.sealBreak else s
    else s

/-! ### Meter ports (R409 to R412) -/

/-- Any event of a port (R407). -/
def Meter.event (m : Meter) : Bool := m.ovr.set || m.ferr.set || m.qerr.set || m.gate.set || m.rx != []

/-- The causes of Bay's WAIT that are pending, the timeout apart. -/
def Bay.causes (b : Bay) : BitVec 4 :=
  (if b.meters.toList.any Meter.event then 1 else 0) ||| (if b.fw.message.isSome then 2 else 0) |||
    (if b.fw.tickets.any (·.2.isSome) then 4 else 0)

/-- Results of a call in a0, a1 and a2 (R247). -/
def BayFw.ret (f : BayFw) (status : Nat) (out : List Word) : BayFw :=
  let r := f.regs.set 9 (BitVec.ofNat 32 status)
  let r := match out with | [] => r | a :: _ => r.set 10 a
  let r := match out with | _ :: b :: _ => r.set 11 b | _ => r
  { f with regs := r }

/-- A waiting firmware returns once a cause of its mask is pending. -/
def State.bayWake (s : State) : State :=
  match s.bay.fw.waiting with
  | none => s
  | some (mask, _) =>
    if s.bay.causes &&& mask ≠ 0 then
      let c := s.bay.causes &&& mask
      s.updFw fun f => { f with waiting := none }.ret 0 [c.setWidth 32]
    else s

/-- An input as filtered changes (R409): edges, quadrature steps, FREQ counts. -/
def Meter.input (m : Meter) (a b : Bool) : Meter :=
  let rise := !m.a && a
  let fall := m.a && !a
  let m' := { m with a, b }
  match m.cfg.mode.toNat with
  | 1 =>
    let hit := match m.cfg.opt.toNat with | 0 => rise | 1 => fall | _ => rise || fall
    if hit then { m' with total := m.total + 1 } else m'
  | 2 =>
    if m.a = a ∧ m.b = b then m'
    else if m.a ≠ a ∧ m.b ≠ b then { m' with qerr := m.qerr.hit }
    else
      -- A leads B when A's new level differs from B's after an A change, or equals it after a B change
      let lead := if m.a ≠ a then a != b else a == b
      let up := if m.cfg.opt = 0 then lead else !lead
      { m' with total := if up then m.total + 1 else m.total - 1 }
  | 4 => if rise then { m' with total := m.total + 1, gateRun := m.gateRun + 1 } else m'
  | _ => m'

def execMeterPulse (n : Fin 64) (a b : Bool) (s : State) : Res :=
  .next <| if s.bayOn then (s.updMeter n fun m => m.input a b).bayWake else s

def execMeterUartByte (n : Fin 64) (byte : Byte) (ok : Bool) (s : State) : Res :=
  .next <|
    if s.bayOn ∧ (s.bay.meters[n]).cfg.mode = 3 then
      let st := s.rtcStamp
      (s.updMeter n fun m =>
        let m := { m with lastRx := some st }
        if !ok then { m with ferr := m.ferr.hit }
        else if 64 ≤ m.rx.length then { m with ovr := m.ovr.hit }
        else { m with rx := m.rx ++ [byte] }).bayWake
    else s

def execFreqGateEnd (n : Fin 64) (s : State) : Res :=
  .next <|
    if s.bayOn ∧ (s.bay.meters[n]).cfg.mode = 4 then
      (s.updMeter n fun m => { m with gateCount := m.gateRun, gateRun := 0, gate := m.gate.hit }).bayWake
    else s

def execMpTxWrite (n : Fin 64) (byte : Byte) (s : State) : Res :=
  .next <|
    if s.bayOn then
      s.updMeter n fun m => if m.cfg.mode = 3 ∧ m.tx.length < 16 then { m with tx := m.tx ++ [byte] } else m
    else s

def execTotalInterval (s : State) : Res :=
  .next <| if s.bayOn ∧ s.bay.totalS ≠ 0 then s.bayTotals 0 else s

/-- The RTC and Bay's oscillator differ by more than 2 s: TIME_STEP (R415). -/
def execBayTimeCheck (expected : BitVec 48) (s : State) : Res :=
  .next <|
    let r := s.guard.rtc
    if s.bayOn ∧ (r.toNat + 2 < expected.toNat ∨ expected.toNat + 2 < r.toNat) then
      s.bayRec 0x14 0xFF (leN 6 expected.toNat ++ leN 6 r.toNat)
    else s

def execBayPeriodicBank (s : State) : Res :=
  .next <| if s.bayOn then s.updBay fun b => b.commitBank 1 s.guard.rtc else s

/-- One page rewritten in place every 200 ms (R420): its contents stay. -/
def execBayStoreRefresh (s : State) : Res :=
  .next <| if s.bayOn then s.updBay fun b => { b with refreshPage := b.refreshPage + 1 } else s

/-! ### The firmware (R405 to R408) -/

/-- The firmware starts from its entry point with its data window zeroed. -/
def Bay.startFw (b : Bay) : Bay :=
  { b with fw := { b.fw with running := true, restartDue := false, pc := BitVec.ofNat 32 (fld b.image 28 4), regs := Vector.replicate 31 0
                             data := [], waiting := none, message := none } }

/-- The firmware is stopped: a FW_RESTART record, and every MEASURE not yet signed discarded with its ticket. -/
def State.stopFw (cause : Byte) (pc mtval : Word) (s : State) : State :=
  let unsigned := s.bay.queue.filterMap (·.ticket)
  let s := s.updBay fun b =>
    { b with queue := b.queue.filter fun r => r.type != 0x01
             fw := { b.fw with running := false, waiting := none, message := none
                               tickets := b.fw.tickets.filter fun t => !unsigned.contains t.1 } }
  s.bayRec 0x16 0xFF ([cause, 0, 0, 0] ++ leN 4 pc.toNat ++ leN 4 mtval.toNat)

/-- What the firmware may do at an address (Table 17-3): code, data and the meter port registers, nothing else. -/
def bayGrants (access : AccessKind) (a : Nat) : Bool :=
  if a < 0x20000 then access != .store
  else if 0x10000000 ≤ a ∧ a < 0x10018000 then access != .fetch
  else if 0x20000000 ≤ a ∧ a < 0x20000400 then access != .fetch
  else false

/-- The firmware stops, and is started again 100 ms later (R408). An access fault (cause 1) is one that the address map forbids, at its
first forbidden byte. -/
def execBayFwStop (cause : Byte) (access : AccessKind) (pc mtval : Word) (s : State) : Res :=
  .next <|
    if s.bayOn ∧ s.bay.fw.running ∧ !(cause == 1 && bayGrants access mtval.toNat) then
      (s.stopFw cause pc mtval).updFw fun f => { f with restartDue := true }
    else s

def execBayFwRestart (s : State) : Res :=
  .next <|
    if s.bayOn ∧ s.bay.fw.restartDue then
      let now := s.guard.rtc
      let recent := s.bay.fw.restarts.filter fun t => now.toNat < t.toNat + 3600
      if 8 ≤ recent.length then s.updFw fun f => { f with restartDue := false, restarts := recent }
      else s.updBay fun b => { b with fw := { b.fw with restarts := recent ++ [now] } }.startFw
    else s

/-- The firmware can call: it runs and does not wait. -/
def State.fwCalls (s : State) : Bool := s.bayOn && s.bay.fw.running && s.bay.fw.waiting.isNone

/-- A range within the firmware data window (R407). -/
def fwRange (addr len : Nat) : Bool := decide (0x10000000 ≤ addr ∧ addr + len ≤ 0x10018000)

/-- WAIT: the causes pending at once, or a wait. A mask of 0 and a timeout outside its range are refused. -/
def execBayWait (mask : BitVec 4) (us : Word) (s : State) : Res :=
  .next <|
    if s.fwCalls then
      if mask = 0 ∨ (mask.getLsbD 3 ∧ (us = 0 ∨ 10000000 < us.toNat)) then s.updFw fun f => f.ret 0x0108 []
      else (s.updFw fun f => { f with waiting := some (mask, us) }).bayWake
    else s

def execMeasure (port addr : Word) (s : State) : Res :=
  .next <|
    if s.fwCalls then
      if 63 < port.toNat ∧ port ≠ 0xFF then s.updFw fun f => f.ret 0x0108 []
      else if !fwRange addr.toNat 24 then s.updFw fun f => f.ret 0x0308 []
      else if 224 ≤ s.bay.queue.length then s.updFw fun f => f.ret 0x0802 []
      else
        let now := s.rtcStamp
        let (t, u) := if h : port.toNat < 64 then
            let m := s.bay.meters[port.toNat]
            if m.cfg.mode = 3 then m.lastRx.getD now else now
          else now
        let body := Memory.readN s.bay.fw.data (addr.toNat - 0x10000000) 24
        let k := s.bay.fw.nextTicket
        s.updBay fun b =>
          let b := b.queueRec { type := 0x01, time := t, subs := u, port := port.setWidth 8, flags := BitVec.ofNat 8 b.sealSt.code
                                body, ticket := some k }
          { b with fw := { b.fw with nextTicket := k + 1, tickets := b.fw.tickets ++ [(k, none)] }.ret 0 [k] }
    else s

def execRecdone (s : State) : Res :=
  .next <|
    if s.fwCalls then
      match s.bay.fw.tickets.find? (·.2.isSome) with
      | some (k, some r) => s.updFw fun f => { f with tickets := f.tickets.erase (k, some r) }.ret 0 [k, BitVec.ofNat 32 r.toNat]
      | _ => s.updFw fun f => f.ret 0x0503 []
    else s

def execBayTotal (port : Word) (s : State) : Res :=
  .next <|
    if s.fwCalls then
      if h : port.toNat < 64 then
        let t := (s.bay.meters[port.toNat]).total
        s.updFw fun f => f.ret 0 [t.setWidth 32, (t >>> 32).setWidth 32]
      else s.updFw fun f => f.ret 0x0108 []
    else s

/-- HRB_RTC_HI of the present time (Table 07-41). -/
def State.rtcHiWord (s : State) : Word :=
  s.guard.rtcSub ++ BitVec.ofBool s.guard.rtcSet ++ (s.guard.rtc >>> 32).setWidth 16

def execBayTime (s : State) : Res :=
  .next <| if s.fwCalls then s.updFw fun f => f.ret 0 [s.guard.rtc.setWidth 32, s.rtcHiWord] else s

def execAppRecv (dst room : Word) (s : State) : Res :=
  .next <|
    if s.fwCalls then
      match s.bay.fw.message with
      | none => s.updFw fun f => f.ret 0x0503 []
      | some m =>
        if room.toNat < m.length then s.updFw fun f => f.ret 0x0506 [BitVec.ofNat 32 m.length]
        else if !fwRange dst.toNat m.length then s.updFw fun f => f.ret 0x0308 []
        else s.updFw fun f =>
          { f with message := none, data := Memory.writeN f.data (dst.toNat - 0x10000000) m }.ret 0 [BitVec.ofNat 32 m.length]
    else s

def execCfgRead (off dst len : Word) (s : State) : Res :=
  .next <|
    if s.fwCalls then
      let area := slice s.bay.cfg 1856 (s.bay.cfg.length - 128 - 1856)
      if area.length < off.toNat + len.toNat then s.updFw fun f => f.ret 0x0506 []
      else if !fwRange dst.toNat len.toNat then s.updFw fun f => f.ret 0x0308 []
      else s.updFw fun f => { f with data := Memory.writeN f.data (dst.toNat - 0x10000000) (slice area off.toNat len.toNat) }.ret 0 []
    else s

/-! ### Requests over the bridge (R432) -/

def Bop.code : Bop → Nat
  | .summary => 1 | .identity => 2 | .read => 3 | .confirm => 4 | .nonce => 5 | .seal => 6 | .stage => 7
  | .configCommit => 8 | .fwCommit => 9 | .app => 10 | .ack => 11

/-- The request on Table 17-11 of a BOP that the host may send. -/
def bopOf (n : Nat) : Option Bop :=
  match n with
  | 1 => some .summary | 2 => some .identity | 3 => some .read | 4 => some .confirm | 5 => some .nonce
  | 6 => some .seal | 7 => some .stage | 8 => some .configCommit | 9 => some .fwCommit | 10 => some .app
  | _ => none

/-- The request at the head is answered and leaves the bridge; the answer to a request of the supervisor's own
goes to it alone. -/
def State.bayAnswer (status : BitVec 16) (results : Bytes) (s : State) : State :=
  match s.bay.reqs with
  | [] => s
  | q :: rest =>
    let s := s.updBay fun b => { b with reqs := rest }
    if q.host then
      s.answer (.bay q.chan) status (if status = 0 then leN 2 q.bop.code ++ [0, 0] ++ results else [])
    else s

/-- Every request in progress or waiting ends: the bridge has stopped (R432). -/
def State.bayAbort : List BayReq → State → State
  | [], s => s
  | _ :: r, s => State.bayAbort r (s.bayAnswer 0x0801 [])

/-- Bay serves the request at the head, if it is of this BOP and not yet taken. -/
def State.serve (bop : Bop) (k : BayReq → State → State) (s : State) : State :=
  match s.bay.reqs with
  | [] => s
  | q :: _ => if s.bayOn ∧ s.bay.bridge = 1 ∧ q.bop = bop ∧ !q.taken then k q s else s

/-- The head request waits for something Bay has still to do. -/
def State.bayTake (s : State) : State :=
  s.updBay fun b => match b.reqs with
    | [] => b
    | q :: r => { b with reqs := { q with taken := true } :: r }

/-- BAY_REQUEST (R400, R430, R432, R460): the supervisor passes it on, or refuses it. -/
def execBayRequest (r : Req) (s : State) : Res :=
  .next <| s.request 0x0801 r (4 ≤ r.body.length ∧ fld r.body 2 2 = 0) fun s =>
    let n := fld r.body 0 2
    if s.lc.state = .terminated ∧ (n = 7 ∨ n = 8 ∨ n = 9) then s.respond r 0x0801 0x0701 []
    else match bopOf n with
      | none => s.respond r 0x0801 0x0803 []
      | some b =>
        let c : Fin 4 := Fin.ofNat 4 r.index.toNat
        (s.updBay fun y => { y with reqs := y.reqs ++ [{ bop := b, chan := c, args := r.body.drop 4 }] }).wait (.bay c) r 0x0801

def execBaySummary (s : State) : Res :=
  .next <| s.serve .summary fun q s => if q.args = [] then s.bayTake else s.bayAnswer 0x0803 []

def execBayIdentity (s : State) : Res :=
  .next <| s.serve .identity fun q s =>
    if q.args ≠ [] then s.bayAnswer 0x0803 []
    else
      let b := s.bay
      s.bayAnswer 0 (padTo 16 s.lc.unitId ++ pubKey s.bayScalar ++ leN 4 0x00010000 ++ padTo 16 (slice b.image 40 16) ++
        leN 4 (imgVersion b.image) ++ (if b.fwSel.isSome then sha b.image else zeros 32) ++ leN 4 b.cfgVersion ++
        (if b.config.isSome then sha b.cfg else zeros 32))

def execBayRead (s : State) : Res :=
  .next <| s.serve .read fun q s =>
    let count := fld q.args 6 1
    if q.args.length ≠ 8 ∨ count = 0 ∨ 32 < count ∨ byteAt q.args 7 ≠ 0 then s.bayAnswer 0x0803 []
    else
      let rs := (s.bay.ring.filter fun r => fld q.args 0 6 ≤ fld r 4 6).take count
      s.bayAnswer 0 (leN 2 rs.length ++ rs.flatMap fun r => leN 2 r.length ++ r)

def execBayConfirm (s : State) : Res :=
  .next <| s.serve .confirm fun q s =>
    let upto := fld q.args 0 6
    if q.args.length ≠ 6 ∨ s.bay.newest < upto then s.bayAnswer 0x0803 []
    else
      let c := max upto s.bay.confirmed.toNat
      (s.updBay fun b => { b with confirmed := BitVec.ofNat 48 c, seenConfirmed := BitVec.ofNat 48 c }).bayAnswer 0 (leN 6 c)

def execBayNonce (s : State) : Res :=
  .next <| s.serve .nonce fun q s =>
    if q.args ≠ [] then s.bayAnswer 0x0803 []
    else if !s.bay.rngOk then s.bayAnswer 0x0802 []
    else
      let n := s.random 16
      (s.drawn.updBay fun b => { b with nonce := some n }).bayAnswer 0 n

/-- Seal states by code. -/
def sealOf (n : Nat) : Option SealState :=
  match n with
  | 0 => some .unsealed | 1 => some .sealed | 2 => some .broken | _ => none

/-- Transitions that a signed request may ask for (Table 17-12a). -/
def sealAllowed (b : Bay) (src dst : SealState) : Bool :=
  match src, dst with
  | .unsealed, .sealed => b.config.isSome && b.fwSel.isSome
  | .sealed, .unsealed | .broken, .unsealed | .broken, .sealed => true
  | _, _ => false

/-- The hash of a key is one of the four AUTH hashes of a configuration object (Table 17-12b). -/
def cfgAuth (obj pub : Bytes) : Bool :=
  (List.range 4).any fun i => slice obj (64 + 32 * i) 32 == sha pub && !allZero (slice obj (64 + 32 * i) 32)

/-- The envelope of a signed request (Table 19-6): layout, TYPE and body length. -/
def envelopeOk (e : Bytes) (type : Byte) (bodyLen : Nat) : Bool :=
  slice e 0 4 == ascii "SREQ" && byteAt e 4 == 0x01 && byteAt e 5 == type && fld e 6 2 == e.length &&
    e.length == 48 + bodyLen + 128 && byteAt e 27 == 0 && allZero (slice e 44 4)
/-- PUBKEY of an envelope or object that ends with a key and a signature. -/
def envPub (e : Bytes) : Bytes := slice e (e.length - 128) 64
/-- Its signature verifies over the bytes before it. -/
def envSigOk (e : Bytes) : Bool := ecdsaVerify (envPub e) (e.take (e.length - 64)) (e.drop (e.length - 64))

/-- The checks of R424, in order; none when the request passes. -/
def State.sealCheck (e : Bytes) (s : State) : Option (BitVec 16) :=
  let b := s.bay
  let cur := fld e 48 1
  let tgt := fld e 49 1
  if !envelopeOk e 0x30 4 || fld e 50 2 != 0 then some 0x0803
  else if slice e 8 16 ≠ padTo 16 s.lc.unitId then some 0x0704
  else if b.nonce ≠ some (slice e 28 16) then some 0x0704
  else if cur ≠ b.sealSt.code then some 0x0704
  else if !(cfgAuth b.cfg (envPub e) && envSigOk e) then some 0x0705
  else if !(match sealOf tgt with | none => false | some t => sealAllowed b b.sealSt t) then some 0x0706
  else if !b.pinLow then some 0x0708
  else none

def execBaySeal (s : State) : Res :=
  .next <| s.serve .seal fun q s =>
    let used (s : State) : State := if s.sealCheck q.args = some 0x0803 then s else s.updBay fun b => { b with nonce := none }
    match s.sealCheck q.args with
    | some st => (used s).bayAnswer st []
    | none =>
      let t := (sealOf (fld q.args 49 1)).getD .unsealed
      ((used s).updBay fun b => { b with sealPend := some ⟨t, (sha q.args).take 16⟩ }).sealView.bayAnswer 0
        [BitVec.ofNat 8 t.code, 0, 0, 0]

/-- STAGE, CONFIG_COMMIT and FW_COMMIT are served in UNSEALED only (R426). -/
def Bay.locked (b : Bay) : Option (BitVec 16) :=
  match b.sealSt with
  | .unsealed => none
  | .sealed => some 0x0806
  | .broken => some 0x0802

def execBayStage (s : State) : Res :=
  .next <| s.serve .stage fun q s =>
    let off := fld q.args 4 4
    let data := q.args.drop 8
    let tgt := byteAt q.args 0
    match s.bay.locked with
    | some st => s.bayAnswer st []
    | none =>
      if q.args.length < 9 ∨ 4048 < data.length ∨ 1 < tgt.toNat ∨ !allZero (slice q.args 1 3) then s.bayAnswer 0x0803 []
      else if (if tgt = 0 then 8000 else 131072) < off + data.length then s.bayAnswer 0x0506 []
      else
        let s := s.updBay fun b => if tgt = 0 then { b with stage0 := (off, data) :: b.stage0 } else { b with stage1 := (off, data) :: b.stage1 }
        let ps := if tgt = 0 then s.bay.stage0 else s.bay.stage1
        s.bayAnswer 0 (leN 4 (ps.foldl (fun m p => max m (p.1 + p.2.length)) 0))

/-- A port entry within the bounds of R410. -/
def entryOk (e : Bytes) : Bool :=
  let opt := (byteAt e 1).toNat
  let rate := fld e 4 2
  byteAt e 3 == 0 && fld e 6 2 == 0 &&
  match (byteAt e 0).toNat with
  | 0 => true
  | 1 => byteAt e 2 != 0 && decide (opt ≤ 2)
  | 2 => byteAt e 2 != 0 && decide (opt ≤ 1)
  | 3 => byteAt e 2 != 0 && decide (opt ≤ 2) && decide (12 ≤ rate ∧ rate ≤ 1152)
  | 4 => byteAt e 2 != 0 && decide (1 ≤ rate ∧ rate ≤ 1000)
  | _ => false

/-- The layout of a configuration object (Table 17-12b). -/
def cfgLayout (o : Bytes) : Bool :=
  slice o 0 4 == ascii "BCFG" && byteAt o 4 == 0x01 && fld o 28 2 == o.length && decide (1984 ≤ o.length ∧ o.length ≤ 8000) &&
    (fld o 224 4 == 0 || decide (60 ≤ fld o 224 4 ∧ fld o 224 4 ≤ 86400)) && decide (fld o 228 1 ≤ 16) &&
    (List.range 64).all fun i => entryOk (slice o (256 + 8 * i) 8)

/-- The checks of R428, in order. -/
def State.configCheck (o : Bytes) (s : State) : Option (BitVec 16) :=
  if !cfgLayout o then some 0x0803
  else if slice o 8 16 ≠ padTo 16 s.lc.unitId ∨ fld o 24 4 ≤ s.bay.cfgVersion ∧ s.bay.config.isSome then some 0x0704
  else if !(cfgAuth (s.bay.config.getD o) (envPub o) && envSigOk o) then some 0x0705
  else none

/-- The entries of a committed configuration apply (R410): a change of MODE or OPT closes the count with a
TOTAL record of REASON 2. -/
def State.applyConfig (o : Bytes) (s : State) : State :=
  (List.finRange 64).foldl (fun s n =>
    let c := cfgEntry o n.val
    let m := s.bay.meters[n]
    if m.cfg.mode = c.mode ∧ m.cfg.opt = c.opt then s.updMeter n fun m => { m with cfg := c }
    else (s.bayTotalRec 2 n).updMeter n fun m => { m with cfg := c, total := 0, rx := [], tx := [], gateRun := 0 }) s

def execBayConfigCommit (s : State) : Res :=
  .next <| s.serve .configCommit fun q s =>
    match s.bay.locked with
    | some st => s.bayAnswer st []
    | none =>
      let len := fld q.args 0 4
      let o := pieceBytes s.bay.stage0 (min len 8001)
      if q.args.length ≠ 4 then s.bayAnswer 0x0803 []
      else match s.configCheck o with
        | some st => s.bayAnswer st []
        | none =>
          let s := (s.applyConfig o).updBay fun b => { b with config := some o, stage0 := [] }
          let s := s.bayRec 0x11 0xFF (leN 4 (fld o 24 4) ++ (sha o).take 16)
          s.bayAnswer 0 (leN 4 (fld o 24 4) ++ leN 4 s.bay.evt.toNat)

/-- The layout of a Bay firmware image (R429). -/
def fwLayout (i : Bytes) (len : Nat) : Bool :=
  let code := fld i 20 4
  let data := fld i 24 4
  slice i 0 4 == ascii "BIMG" && byteAt i 4 == 0x01 && allZero (slice i 5 3) && allZero (slice i 8 8) && fld i 16 4 != 0 &&
    decide (4 ≤ code ∧ code ≤ 131072) && code % 4 == 0 && decide (data ≤ 98304) && decide (fld i 28 4 < code) &&
    byteAt i 32 == 0 && allZero (slice i 33 7) && allZero (slice i 56 8) && allZero (slice i 160 32) &&
    256 + code + data == len && decide (len ≤ 131072)

def State.fwCheck (i : Bytes) (s : State) : Option (BitVec 16) :=
  if imgVersion i < imgVersion s.bay.image ∧ s.bay.fwSel.isSome then some 0x0704
  else if !(sha (slice i 96 64) == slice s.bay.cfg 192 32 && ecdsaVerify (slice i 96 64) (i.take 192) (slice i 192 64) &&
      imgBodyOk i) then some 0x0705
  else none

def execBayFwCommit (s : State) : Res :=
  .next <| s.serve .fwCommit fun q s =>
    match s.bay.locked with
    | some st => s.bayAnswer st []
    | none =>
      let len := fld q.args 0 4
      let i := pieceBytes s.bay.stage1 (min len 131073)
      if q.args.length ≠ 4 ∨ !fwLayout i len then s.bayAnswer 0x0803 []
      else match s.fwCheck i with
        | some st => s.bayAnswer st []
        | none =>
          let s := s.updBay fun b =>
            let b := { b with stage1 := [] }
            if b.fwSel = some false then { b with fwB := i, fwSel := some true } else { b with fwA := i, fwSel := some false }
          let s := s.bayRec 0x12 0xFF (leN 4 (imgVersion i) ++ (sha i).take 16)
          let s := s.updBay fun b => { b with fw := { b.fw with restarts := [] } }.startFw
          s.bayAnswer 0 (leN 4 (imgVersion i) ++ leN 4 s.bay.evt.toNat)

def execBayApp (s : State) : Res :=
  .next <| s.serve .app fun q s =>
    if q.args = [] ∨ 2048 < q.args.length then s.bayAnswer 0x0803 []
    else if !s.bay.fw.running then s.bayAnswer 0x0802 []
    else (s.bayTake.updFw fun f => { f with message := some q.args }).bayWake

/-- The head request is an APP that the firmware has and has not answered. -/
def State.appOpen (s : State) : Bool :=
  match s.bay.reqs with
  | [] => false
  | q :: _ => q.bop == .app && q.taken

def execBayAppTimeout (s : State) : Res :=
  .next <| if s.appOpen then (s.updFw fun f => { f with message := none }).bayAnswer 0x0802 [] else s

def execAppReply (src len : Word) (s : State) : Res :=
  .next <|
    if s.fwCalls then
      if 2048 < len.toNat then s.updFw fun f => f.ret 0x0108 []
      else if !fwRange src.toNat len.toNat then s.updFw fun f => f.ret 0x0308 []
      else
        let data := Memory.readN s.bay.fw.data (src.toNat - 0x10000000) len.toNat
        let s := s.updFw fun f => f.ret 0 []
        if s.appOpen then s.bayAnswer 0 data else s
    else s

/-- The acknowledgement is by a listed inspector, for this unit, and its signature verifies (R430). -/
def State.inspectorOk (a : Bytes) (s : State) : Bool :=
  let c := s.bay.cfg
  slice a 6 16 == padTo 16 s.lc.unitId &&
  (List.range (fld c 228 1)).any fun i =>
    slice c (768 + 68 * i) 4 == slice a 2 4 &&
      ecdsaVerify (slice c (772 + 68 * i) 64) (a.take (a.length - 64)) (a.drop (a.length - 64))

/-- The answer to the inbox record in progress, for INBOX_ACK_ANSWER. -/
def State.inboxOutcome (o : Byte) (s : State) : State :=
  { s with tag := { s.tag with inboxAnswer := some o } }.bayAnswer 0 []

def execBayAck (s : State) : Res :=
  .next <| s.serve .ack fun q s =>
    let a := q.args.drop 6
    let h := (sha a).take 12
    if !s.inspectorOk a then s.inboxOutcome 1
    else if s.bay.acks.contains h then s.inboxOutcome 2
    else
      let (t, u) := s.rtcStamp
      let body := slice a 2 4 ++ slice a 1 1 ++ slice a 38 1 ++ slice a 32 6 ++ h
      s.bayTake.updBay fun b =>
        { b with acks := (b.acks ++ [h]).drop (b.acks.length + 1 - 16) }.queueRec
          { type := 0x15, time := t, subs := u, port := 0xFF, flags := BitVec.ofNat 8 b.sealSt.code, body := body24 body, ack := true }

/-! ### Signing (R416 to R422, R433) -/

/-- The head request is a SUMMARY that waits for its record. -/
def State.sumAsked (s : State) : Bool :=
  match s.bay.reqs with
  | [] => false
  | q :: _ => q.bop == .summary && q.taken

/-- The ring is full: the record in the next slot is not confirmed (R420). -/
def Bay.ringFull (b : Bay) : Bool :=
  decide (5952 ≤ b.ring.length) && match b.ring with
    | [] => false
    | r :: _ => decide (b.confirmed.toNat < fld r 4 6)

/-- The first 32 bytes of a record (Table 17-10). -/
def recHead (type : Byte) (len recNo : Nat) (time : BitVec 48) (subs : BitVec 16) (evt : Nat) (port flags : Byte) (link : Bytes) : Bytes :=
  [0xB1, type] ++ leN 2 len ++ leN 6 recNo ++ leN 6 time.toNat ++ leN 2 subs.toNat ++ leN 4 evt ++ [port, flags] ++ padTo 8 link

/-- LINK: the first 8 bytes of the hash of the newest record, 0 where there is none. -/
def Bay.linkBytes (b : Bay) : Bytes :=
  match b.ring.getLast? with
  | none => zeros 8
  | some r => (sha r).take 8

/-- A signature with the Bay key; its random data is a free value. -/
def State.baySigned (unsigned : Bytes) (s : State) : Bytes :=
  unsigned ++ signP256 s.bayScalar unsigned (if s.bay.rngOk then s.random 32 else zeros 32)

/-- Body bytes 12 to 13 of a TIME_STEP, and 2 to 3 of a FW_RESTART, hold COUNT. -/
def BayWaitRec.bodyOut (r : BayWaitRec) : Bytes :=
  if r.type = 0x14 then r.body.take 12 ++ leN 2 r.count ++ r.body.drop 14
  else if r.type = 0x16 then r.body.take 2 ++ leN 2 r.count ++ r.body.drop 4
  else r.body

/-- A ring record is signed, numbered, committed and offered. -/
def State.signRecord (r : BayWaitRec) (s : State) : State :=
  let b := s.bay
  let no := b.newest + 1
  let evt := b.evt + if countsEvt r.type then 1 else 0
  let rec_ := s.baySigned (recHead r.type 120 no r.time r.subs evt.toNat r.port r.flags b.linkBytes ++ r.bodyOut)
  let s := s.drawn.updBay fun b =>
    { b with queue := b.queue.erase r, ring := (b.ring ++ [rec_]).drop (b.ring.length + 1 - 5952), evt, mark := evt
             offered := if b.bridge = 1 then b.offered ++ [rec_] else b.offered
             sumDue := b.sumDue || isEventRec r.type
             lastSealTime := if r.type = 0x13 then r.time else b.lastSealTime
             lastSealRec := if r.type = 0x13 then BitVec.ofNat 48 no else b.lastSealRec
             fw := { b.fw with tickets := b.fw.tickets.map fun t => if some t.1 = r.ticket then (t.1, some (BitVec.ofNat 48 no)) else t } }
  let s := if r.type = 0x02 then s.updBay fun b => b.commitBank 1 s.guard.rtc else s
  let s := if r.ack then s.inboxOutcome 0 else s
  s.bayWake

/-- The body of a SUMMARY (Table 17-12). -/
def State.summaryBody (s : State) : Bytes :=
  let b := s.bay
  padTo 16 s.lc.unitId ++ padTo 32 (slice b.cfg 32 32) ++ [BitVec.ofNat 8 b.sealSt.code,
    match b.sealPend with | none => 0 | some p => BitVec.ofNat 8 (1 + 2 * p.target.code),
    BitVec.ofNat 8 (b.meters.toList.countP fun m => m.cfg.mode != 0), 0] ++ leN 6 b.lastSealTime.toNat ++
    leN 6 b.lastSealRec.toNat ++ padTo 16 (slice b.image 40 16) ++ leN 4 (imgVersion b.image) ++
    (if b.fwSel.isSome then sha b.image else zeros 32) ++ leN 4 b.cfgVersion ++
    (if b.config.isSome then sha b.cfg else zeros 32) ++ leN 6 b.confirmed.toNat ++
    leN 6 (fld ((b.ring.head?).getD []) 4 6) ++ leN 6 b.lastReset.toNat ++ leN 4 0x00010000 ++ pubKey s.bayScalar

/-- A SUMMARY is signed: the answer to the request that asked for it, or sent on Bay's own account. -/
def State.signSummary (s : State) : State :=
  let b := s.bay
  let (t, u) := s.rtcStamp
  let rec_ := s.baySigned (recHead 0x40 334 b.newest t u b.evt.toNat 0xFF (BitVec.ofNat 8 b.sealSt.code) b.linkBytes ++ s.summaryBody)
  let s := s.drawn
  let offer (s : State) : State := s.updBay fun b => { b with offered := if b.bridge = 1 then b.offered ++ [rec_] else b.offered }
  match s.bay.reqs with
  | q :: _ =>
    if q.bop = .summary ∧ q.taken then (if q.host then s else offer s).bayAnswer 0 rec_
    else (offer s).updBay fun b => { b with sumDue := false }
  | [] => (offer s).updBay fun b => { b with sumDue := false }

/-- The signer finishes: event records, then a SUMMARY, then MEASURE and TOTAL records (R418); nothing while
the ring is full. -/
def execBaySignDone (s : State) : Res :=
  .next <|
    if s.bayOn ∧ !s.bay.ringFull then
      match s.bay.queue.find? fun r => isEventRec r.type with
      | some r => s.signRecord r
      | none =>
        if s.sumAsked || s.bay.sumDue then s.signSummary
        else match s.bay.queue with
          | [] => s
          | r :: _ => s.signRecord r
    else s

/-! ### Bay reset and power (R402, R403) -/

/-- The highest EVT among the ring's records (R422). -/
def Bay.ringEvt (b : Bay) : Nat := b.ring.foldl (fun m r => max m (fld r 18 4)) 0

/-- Release of Bay from reset: recall, totalisers, POWER_UP, TOTAL records, the pending seal change, the pin, and
the firmware. -/
def execBayResetRelease (mv : Nat) (sealHigh : Bool) (s : State) : Res :=
  .next <|
    if 1680 ≤ mv ∧ !s.bay.running then
      let bank := s.bay.newestBank
      let was := s.bay
      let s := { s with power := { s.power with bayMv := mv } }
      let s := s.updBay fun b =>
        let meters := Vector.ofFn fun (i : Fin 64) =>
          let t := match bank with | none => (0 : BitVec 64) | some k => k.totals.getD i.val 0
          ({ cfg := cfgEntry b.cfg i.val, total := t, prevTotal := (b.meters[i]).prevTotal } : Meter)
        { b with running := true, holding := false, recalled := true, clock := true, meters, queue := [], sumDue := false, nonce := none
                 stage0 := [], stage1 := [], reqs := [], offered := [], pinLow := !sealHigh, lastReset := s.guard.rtc
                 evt := BitVec.ofNat 32 (max b.mark.toNat b.ringEvt), fw := {}, bridge := if b.bridge = 3 then 0 else b.bridge }
      let s : State := if s.released ∧ s.hrb.rclBay = 0 then { s with hrb := { s.hrb with rclBay := 1 } } else s
      let since : Nat := match bank with | none => 0xFFFFFFFF | some k => if s.guard.rtcSet then s.guard.rtc.toNat - k.rtc.toNat else 0xFFFFFFFF
      let s := s.bayRec 0x10 0xFF (leN 6 (match bank with | none => 0 | some k => k.rtc.toNat) ++
        [match bank with | none => 2 | some k => BitVec.ofNat 8 k.kind, 0] ++ leN 4 since)
      let s := (s.bayTotals 1).applySeal
      let s := if sealHigh then s.sealBreak else s
      let s := if s.bay.fwSel.isNone then s
        else if imgBodyOk s.bay.image then s.updBay Bay.startFw
        else s.stopFw 0 0 0
      let s := if s.released ∧ was.bridge ≠ s.bay.bridge then s.evC 0 else s
      if s.released ∧ was.pinLow ≠ s.bay.pinLow then s.evC 1 else s
    else s

/-- Bay's own detector trips: totalisers latched and committed, then Bay holds until its reset (R403). -/
def execBayPowerLow (mv : Nat) (s : State) : Res :=
  .next <|
    if mv < 1700 ∧ s.bayOn then
      { s with power := { s.power with bayMv := mv } }.updBay fun b =>
        { b.commitBank 0 s.guard.rtc with holding := true, fw := { b.fw with running := false, waiting := none } }
    else s

def execBaySupplyLoss (mv : Nat) (s : State) : Res :=
  .next <|
    if mv < 1620 then
      let s := { s with power := { s.power with bayMv := mv } }
      let was := s.bay.bridge
      let s := s.bayAbort s.bay.reqs
      let s := s.updBay fun b =>
        { b with running := false, holding := false, recalled := false, clock := false, queue := [], sumDue := false, offered := [], nonce := none
                 stage0 := [], stage1 := [], fw := {}, bridge := if s.released then 3 else 0 }
      let s := s.updTag Tag.inboxAgain
      if s.released ∧ was ≠ 3 then s.evC 0 else s
    else s

/-! ### The bridge at the supervisor (R431, R433, R434) -/

def execBayBridgeStart (ms : Nat) (s : State) : Res :=
  .next <|
    if s.supervisor ∧ s.bayOn ∧ s.bay.recalled ∧ s.bay.bridge ≠ 1 then
      let s := { s with store := { s.store with chanEpoch := s.store.chanEpoch.map nextEpoch } }
      let s := s.updBay fun b =>
        { b with bridge := 1, nonce := none, offered := b.ring.filter fun r => b.confirmed.toNat < fld r 4 6 }
      let s := if s.bay.firstBridge then (s.applySeal).updBay fun b => { b with firstBridge := false } else s
      let fresh := s.hrb.rclBay ≠ 2
      let s := { s with hrb := { s.hrb with rclBay := 2, pagesBay := 4096 } }
      let s := (s.evC 0).sealView
      let s := if fresh then s.recallEnd ms else s
      s.feedBay.askSummary
    else s

/-- The message that forwards a record, with the channel epoch of its arrival (R207, R431). -/
def State.bayEvent (epoch : BitVec 16) (rec_ : Bytes) (s : State) : OutMsg :=
  let c : BitVec 2 := BitVec.ofNat 2 (s.param 0x0B00)
  { src := .bayRecord, cls := c, bytes := message (BitVec.ofNat 8 s.treor.verMaj) c false true 2 0 epoch 0 0x0802 0 rec_ }

/-- Records that wait for the host go, once it accepts them (R202); none goes in INVALID (R13). -/
def State.forwardRecords : List (BitVec 16 × Bytes) → State → State
  | [], s => s
  | r :: rs, s =>
    if s.accepts 8 && s.lc.state != .invalid then State.forwardRecords rs ((s.updBay fun b => { b with queuedHost := b.queuedHost.drop 1 }).send (s.bayEvent r.1 r.2))
    else s

/-- A record crosses the bridge: the supervisor's view, the host, and the tag window after a SUMMARY. -/
def execBayRecordArrival (s : State) : Res :=
  .next <|
    match s.bay.offered with
    | [] => s
    | r :: rest =>
      if s.bridged then
        let sum := byteAt r 1 = 0x40
        let s := s.updBay fun b =>
          { b with offered := rest, queuedHost := b.queuedHost ++ [(s.unitEpoch 2 0, r)], seenRec := BitVec.ofNat 48 (max b.seenRec.toNat (fld r 4 6))
                   seenEvt := BitVec.ofNat 32 (fld r 18 4)
                   seenConfirmed := if sum then BitVec.ofNat 48 (fld r 184 6) else b.seenConfirmed
                   seenFw := if sum then BitVec.ofNat 32 (fld r 112 4) else b.seenFw
                   seenCfg := if sum then BitVec.ofNat 32 (fld r 148 4) else b.seenCfg }
        let s := if sum then
            let upto := (s.bay.ring.filter fun x => fld x 4 6 ≤ fld r 4 6)
            s.updTag fun t => { t with summary := r, logCopy := (upto.drop (upto.length - 64)).reverse, due := true }
          else s
        s.forwardRecords s.bay.queuedHost
      else s

/-- The supervisor asks Bay for a summary (R433). -/
def execBaySummaryInterval (s : State) : Res :=
  .next <|
    if s.bridged ∧ s.param 0x0B01 ≠ 0 then
      s.updBay fun b => { b with reqs := b.reqs ++ [{ bop := .summary, host := false }] }
    else s

/-- BAY_STATUS, from the supervisor's view (R434). -/
def execBayStatus (r : Req) (s : State) : Res :=
  .next <| s.request 0x0803 r (r.body.length = 0) fun s =>
    let b := s.bay
    s.respond r 0x0803 0 ([b.bridge.setWidth 8, if b.bridge = 1 then 1 else 0, b.seenSeal.setWidth 8,
      match b.seenPend with | none => 0 | some p => 1 + 2 * p.setWidth 8] ++ leN 6 b.seenRec.toNat ++ leN 6 b.seenConfirmed.toNat ++
      leN 4 b.seenEvt.toNat ++ leN 2 b.queuedHost.length ++ [0, 0] ++ leN 4 b.seenFw.toNat ++ leN 4 b.seenCfg.toNat)

end Sys2Proof.Machine
end

