-- ==== Sys2Proof/Machine/Clock.lean ====
section
/-! DEFINITION. What the passing of a second does while no command comes: the RTC, the seconds that the HRB and the
supervisor count, the transmit FIFOs of the meter ports, and the timeout of a WAIT of Bay's firmware (R173, R407, R411, R450, R470,
R475, R488; log 20). -/

namespace Sys2Proof.Machine

/-- The battery domain's RTC counts one second (R450). -/
def Guard.second (g : Guard) : Guard := if g.powered then { g with rtc := g.rtc + 1 } else g

/-- The LC nonce ages and the debug session's time runs (R470, R475). -/
def Lc.second (l : Lc) : Lc :=
  { l with nonce := l.nonce.map fun n => { n with age := n.age + 1 }, dbgSession := l.dbgSession.map fun d => { d with left := d.left - 1 } }

/-- A UART port sends what its transmit FIFO holds (R411). -/
def Meter.second (m : Meter) : Meter := if m.cfg.mode = 3 then { m with tx := [] } else m

/-- A WAIT of Bay's firmware whose timeout passes within the second returns; a longer one has a second less to go (R407). -/
def BayFw.second (f : BayFw) : BayFw :=
  match f.waiting with
  | none => f
  | some (mask, us) =>
    if !mask.getLsbD 3 then f
    else if us.toNat ≤ 1000000 then { f with waiting := none }.ret 0 [8]
    else { f with waiting := some (mask, us - 1000000) }

/-- Bay in a second: its oscillator runs whether or not the main side does (R401). -/
def Bay.second (b : Bay) : Bay :=
  if b.running then { b with meters := b.meters.map Meter.second, fw := if b.holding then b.fw else b.fw.second } else b

/-- One second passes. -/
def State.tick (s : State) : State :=
  let s := { s with guard := s.guard.second, bay := s.bay.second }
  if s.released then
    { s with hrb := { s.hrb with uptime := s.hrb.uptime + 1 }, lc := s.lc.second
             bqt := { s.bqt with cache := s.bqt.cache.map fun e => { e with age := e.age + 1 } } }
  else s

end Sys2Proof.Machine
end

