-- ==== Sys2Proof/Machine/Sched.lean ====
section
/-! DEFINITION. The microkernel's scheduling: regions loaded for a slot, virtual time, the choice of the next slot
(R242 to R246, R258). -/

namespace Sys2Proof.Machine

/-- The least common multiple of the weights 1 to 64: virtual time is kept as a multiple of 64 ÷ `vUnit`, exactly. -/
def vUnit : Nat := 64 * 27 * 25 * 49 * 11 * 13 * 17 * 19 * 23 * 29 * 31 * 37 * 41 * 43 * 47 * 53 * 59 * 61

/-! ### MPU regions (Tables 10-10, 10-15, 10-16) -/

/-- MPU_RBASEn. -/
def rbase (first : Nat) (priv unit ex wr rd : Bool) : Word :=
  BitVec.ofNat 32 (first / 32 * 32 + 16 * b2n priv + 8 * b2n unit + 4 * b2n ex + 2 * b2n wr + b2n rd)
/-- MPU_RLIMn of an enabled region. -/
def rlim (last : Nat) : Word := BitVec.ofNat 32 (last / 32 * 32 + 1)

/-- A region's two registers, for tenant region `g`. -/
def regionWords (g : Option Region) : Word × Word :=
  match g with
  | none => (0, 0)
  | some g => (rbase g.base.toNat (g.access == 0) false false (g.access == 3) (g.access != 0), rlim g.last.toNat)

/-- The regions of Table 10-10 for a slot. -/
def Slot.mpuRegions (k : Slot) : List (Word × Word) :=
  let code := fld (k.image.getD []) 20 4
  [(rbase 0 false false true false true, rlim ((code + 31) / 32 * 32 - 1))] ++ k.regions.toList.map regionWords ++
  [(rbase 0x10000000 false false false true true, rlim (0x10000000 + 0x10000 * k.run.sram - 1)),
   (rbase 0x20000000 false false false true true, rlim 0x20000FFF),
   (rbase 0x80000000 false false false false true, rlim 0x80000FFF),
   (rbase 0x40000000 false true false true true, rlim 0x44FFFFFF),
   (rbase 0xF0000000 true false true true true, rlim 0xFFFFFFFF)]

/-- The MPU loaded for a slot and enabled (R258, R260). -/
def Mpu.load (k : Slot) (m : Mpu) : Mpu :=
  let rs := k.mpuRegions
  { m with en := true, rbase := Vector.ofFn fun n => (rs.getD n.val (0, 0)).1, rlim := Vector.ofFn fun n => (rs.getD n.val (0, 0)).2 }

/-! ### Choosing (R243 to R245) -/

/-- A slot that could run: RUNNING, not waiting, not halted, with a weight. -/
def State.ready (i : Fin 128) (s : State) : Bool :=
  let k := s.tenants.slots[i]
  k.state == .running && k.waiting.isNone && !k.inCall && k.run.weight != 0 && !s.lc.halted.contains i

/-- The slot runs on some core. -/
def State.onCore (i : Fin 128) (s : State) : Bool := s.tenants.cores.toList.any (·.slot == some i)

/-- The smallest virtual time of the other slots that run or are runnable; 0 with none. -/
def State.vmin (i : Fin 128) (s : State) : Nat :=
  let vs := ((List.finRange 128).filter fun j => j != i && s.ready j).map fun j => (s.tenants.slots[j]).vtime
  match vs with
  | [] => 0
  | v :: r => r.foldl min v

/-- A slot joins the runnable ones: its virtual time is raised to Vmin. -/
def State.joinRun (i : Fin 128) (s : State) : State :=
  let v := s.vmin i
  s.updSlot i fun k => { k with vtime := max k.vtime v }

/-- The runnable slot with the smallest virtual time that no other core runs; the lower index in a tie. -/
def State.best (c : Fin 8) (s : State) : Option (Fin 128) :=
  let own := (s.tenants.cores[c]).slot
  (List.finRange 128).foldl (fun (m : Option (Fin 128)) j =>
    if s.ready j && (own == some j || !s.onCore j) then
      match m with
      | none => some j
      | some b => if (s.tenants.slots[j]).vtime < (s.tenants.slots[b]).vtime then some j else m
    else m) none

/-- A core runs a slot: on a switch its MPU is loaded for it. -/
def State.runOn (c : Fin 8) (i : Fin 128) (urgent : Bool) (s : State) : State :=
  let k := s.tenants.slots[i]
  s.updCore c fun x => if x.slot = some i then { x with urgent } else { x with slot := some i, urgent, mpu := x.mpu.load k }

/-- A core chooses: the head of the urgent queue where `u` allows it, else by virtual time. -/
def State.choose (c : Fin 8) (u : Bool) (s : State) : State :=
  match (if u then s.tenants.urgent.filter fun j => s.ready j && !s.onCore j else []) with
  | j :: _ => ({ s with tenants := { s.tenants with urgent := s.tenants.urgent.filter (· != j) } }).runOn c j true
  | [] => match s.best c with
    | some j => s.runOn c j false
    | none => s.updCore c fun x => { x with slot := none, urgent := false }

/-- A slot that ran for some time is charged for it (R243): its counters and the watchdog's time grow too. How many instructions it
retired is a free value where its code was not followed (log 13). -/
def State.charge (i : Fin 128) (us : Nat) (followed : Bool) (s : State) : State :=
  let n := if followed then 0 else Config.retired s.free
  let s := s.updSlot i fun k =>
    { k with vtime := k.vtime + (if k.run.weight = 0 then 0 else us * (vUnit / k.run.weight)), sinceCall := k.sinceCall + us
             cycle := k.cycle + BitVec.ofNat 64 (500 * us), instret := k.instret + BitVec.ofNat 64 n }
  s.drawn

/-- A slot that a core runs is charged for the time since it was last charged, at most a quantum (log 74). -/
def State.account (i : Fin 128) (s : State) : State := if s.onCore i then s.charge i (Config.ran s.free % 101) false else s

/-- The core that runs a slot. -/
def State.coreOf (i : Fin 128) (s : State) : Option (Fin 8) := (List.finRange 8).find? fun c => (s.tenants.cores[c]).slot == some i

/-- The core that runs a slot loads its MPU again (R226, R259). -/
def State.reloadMpu (i : Fin 128) (s : State) : State :=
  match s.coreOf i with
  | some c => s.updCore c fun x => { x with mpu := x.mpu.load s.tenants.slots[i] }
  | none => s

/-- A slot no longer runs: its core, if it has one, chooses, and it leaves the urgent queue. -/
def State.leaveCore (i : Fin 128) (s : State) : State :=
  let s := { s with tenants := { s.tenants with urgent := s.tenants.urgent.filter (· != i) } }
  match s.coreOf i with
  | none => s
  | some c => (s.updCore c fun x => { x with slot := none, urgent := false }).choose c true

/-- An idle core takes a slot of the urgent queue at once. -/
def State.wakeIdle (s : State) : State :=
  match (List.finRange 8).find? fun c => (s.tenants.cores[c]).slot.isNone with
  | none => s
  | some c => if s.tenants.urgent.any fun j => s.ready j && !s.onCore j then s.choose c true else s

end Sys2Proof.Machine
end

