-- ==== Sys2Proof/Machine/Modes.lean ====
section
/-! DEFINITION. The modes of the symmetric engine: the fields of CP_MODE, and what each mode makes of the data of a message
(R300 to R302, Table 12-4, Table 12-14). -/

namespace Sys2Proof.Machine

/-! ### Keys (Table 11-3) -/

/-- Length in bytes of the key of a class and ALG (Table 11-3). -/
def keyLen (cls alg : Nat) : Option Nat :=
  match cls, alg with
  | 1, 1 => some 16 | 1, 2 => some 24 | 1, 3 => some 32
  | 2, 1 => some 16 | 2, 2 => some 24
  | 3, 1 => some 32 | 3, 2 => some 32 | 3, 3 => some 32 | 3, 4 => some 32
  | 4, 1 => some 32 | 4, 2 => some 32 | 4, 3 => some 32
  | _, _ => none

/-- The key of an entry, without the zeros after it. -/
def Entry.key (e : Entry) : Bytes := padTo ((keyLen e.cls.toNat e.alg.toNat).getD 32) e.secret

/-! ### CP_MODE (Table 12-4) -/

def modeOf (m : Word) : Nat := m.toNat % 16
def modeDir (m : Word) : Bool := m.getLsbD 5
def modeFirst (m : Word) : Bool := m.getLsbD 6
def modeLast (m : Word) : Bool := m.getLsbD 7
def modeCm (m : Word) : Nat := m.toNat / 256 % 4
def modePad (m : Word) : Nat := m.toNat / 4096 % 4
def modeTag (m : Word) : Nat := m.toNat / 65536 % 32
def modeNonce (m : Word) : Nat := m.toNat / 2097152 % 16

/-- A mode with output data. -/
def modeWrites (k : Nat) : Bool := k == 0 || k == 1 || k == 2 || k == 4 || k == 5
/-- A mode with associated data. -/
def modeAad (k : Nat) : Bool := k == 4 || k == 5
/-- A mode whose message has one submission (Table 12-14). -/
def modeSingle (m : Word) : Bool := modeOf m == 5 || (modeOf m == 4 && modeDir m)
/-- A pass that checks the tag comes before the pass that writes (R302). -/
def modeTwoPass (m : Word) : Bool := (modeOf m == 4 || modeOf m == 5) && modeDir m

/-- Block size of the loaded key's cipher. -/
def Entry.block (e : Entry) : Nat := if e.cls = 1 then 16 else 8

/-- TAGLEN fits Table 12-14. -/
def tagFits (k n : Nat) (aes : Bool) : Bool :=
  match k with
  | 3 => decide (4 ≤ n ∧ n ≤ (if aes then 16 else 8))
  | 4 => decide (12 ≤ n ∧ n ≤ 16)
  | 5 => decide (4 ≤ n ∧ n ≤ 16) && n % 2 == 0
  | 6 => decide (4 ≤ n ∧ n ≤ 8)
  | _ => n == 0

/-- The fields of CP_MODE fit Table 12-14. -/
def modeFits (m : Word) (aes : Bool) : Bool :=
  let k := modeOf m
  decide (k ≤ 6) && tagFits k (modeTag m) aes &&
    (if k = 5 then decide (7 ≤ modeNonce m ∧ modeNonce m ≤ 13) else modeNonce m == 0) &&
    (if k = 6 then modePad m == 1 || modePad m == 2 else modePad m == 0)

/-- The usage bit of a mode and direction (Table 12-14). -/
def modeUsage (m : Word) : Nat :=
  match modeOf m with
  | 0 => if modeDir m then 5 else 4
  | 3 => if modeDir m then 3 else 2
  | 6 => if modeDir m then 3 else 2
  | _ => if modeDir m then 1 else 0

/-- The mode takes the key type. -/
def modeKey (k : Nat) (e : Entry) : Bool :=
  match k with
  | 0 => e.cls == 1 || e.cls == 2
  | 1 => e.cls == 1 || e.cls == 2
  | 3 => e.cls == 1 || e.cls == 2
  | 6 => e.cls == 2 && e.alg == 1
  | _ => e.cls == 1

/-! ### Modes (R300) -/

/-- CBC encryption of blocks after a previous ciphertext block. -/
def cbcEnc (e : Bytes → Bytes) : Bytes → List Bytes → List Bytes
  | _, [] => []
  | v, b :: r =>
    let c := e (xorBytes v b)
    c :: cbcEnc e c r
/-- CBC decryption. -/
def cbcDec (d : Bytes → Bytes) : Bytes → List Bytes → List Bytes
  | _, [] => []
  | v, b :: r => xorBytes v (d b) :: cbcDec d b r

/-- The output for the whole data of a message so far. -/
def modeOut (m : Word) (e : Entry) (iv aad data : Bytes) : Bytes :=
  let bs := chunks e.block data.length data
  match modeOf m with
  | 0 =>
    let f := cipherOf e.cls.toNat e.key (modeDir m)
    bs.flatMap f
  | 1 =>
    let f := cipherOf e.cls.toNat e.key (modeDir m)
    if modeDir m then (cbcDec f (iv.take e.block) bs).flatten else (cbcEnc f (iv.take e.block) bs).flatten
  | 2 => xorBytes (stream (cipherOf 1 e.key false) iv data.length) data
  | 4 => (gcm (modeDir m) e.key (iv.take 12) aad data).1
  | 5 => (ccm (modeDir m) e.key (iv.take (modeNonce m)) (modeTag m) aad data).1
  | _ => []

/-- The tag or MAC of a whole message. -/
def modeTagOut (m : Word) (e : Entry) (iv aad data : Bytes) : Bytes :=
  padTo (modeTag m) (match modeOf m with
    | 3 => cmac e.cls.toNat e.key data
    | 4 => (gcm (modeDir m) e.key (iv.take 12) aad data).2
    | 5 => (ccm (modeDir m) e.key (iv.take (modeNonce m)) (modeTag m) aad data).2
    | 6 => mac3 (modePad m) e.key data
    | _ => [])

/-- The output of a submission, from the start of its own data. -/
def CipherPage.output (x : CipherPage) (j : CipherJob) : Bytes :=
  match x.loaded, x.msg with
  | some (_, e), some m => (modeOut m.mode e m.iv m.aad (m.data ++ j.input)).drop m.data.length
  | _, _ => []

end Sys2Proof.Machine
end

