-- ==== Sys2Proof/Machine/Slots.lean ====
section
/-! DEFINITION. What several families do to a tenant slot: notices, jobs ended early, quiescing, starting,
reset and release of what it holds, and the areas its engines may reach (R226 to R238, R248, R264 to
R266, R308). -/

namespace Sys2Proof.Machine

abbrev State.updKc (s : State) (i : Fin 128) (f : KcPage → KcPage) : State :=
  { s with kct := { s.kct with pages := modify s.kct.pages i f } }
abbrev State.updCp (s : State) (i : Fin 128) (p : Fin 32) (f : CipherPage → CipherPage) : State :=
  { s with cipher := { s.cipher with pages := modify s.cipher.pages i fun v => modify v p f } }
abbrev State.updPk (s : State) (i : Fin 128) (f : JobPage → JobPage) : State :=
  { s with pke := { s.pke with pages := modify s.pke.pages i f } }
abbrev State.updDp (s : State) (i : Fin 128) (p : Fin 4) (f : DpPage → DpPage) : State :=
  { s with mint := { s.mint with pages := modify s.mint.pages i fun v => modify v p f } }

/-- A port belongs to a slot. -/
def Port.ownedBy (p : Port) (i : Fin 128) : Bool := p.owner == some i

/-! ### Notices (R238) -/

/-- Unconsumed inbound entries. -/
def Mailbox.unread (m : Mailbox) : Nat := (m.inWr - m.inRd).toNat

/-- A notice takes the next inbound entry (R253). -/
def Mailbox.placeNotice (m : Mailbox) (n : Notice) : Mailbox :=
  let k := Fin.ofNat 16 m.inWr.toNat
  { m with ins := m.ins.set k { kind := 1, cls := 3, len := BitVec.ofNat 16 (1 + n.body.length) }
           notes := m.notes.set k (n.code :: n.body), inWr := m.inWr + 1 }

/-- Queued notices are placed, in order, as entries are free. -/
def Mailbox.drain (m : Mailbox) : List Notice → Mailbox
  | [] => { m with noteQueue := [] }
  | n :: ns => if m.unread < 16 then (m.placeNotice n).drain ns else { m with noteQueue := n :: ns }

/-- Room has returned in the queue: NOTICES_LOST tells the count (R238). -/
def Mailbox.tellLost (m : Mailbox) : Mailbox :=
  if m.notesLost ≠ 0 ∧ m.noteQueue.length < 32 then
    { m with noteQueue := m.noteQueue ++ [⟨0x05, leN 4 m.notesLost⟩], notesLost := 0 }
  else m

/-- Notices are placed while the slot runs. -/
def Mailbox.settle (m : Mailbox) : Mailbox :=
  let m := (m.drain m.noteQueue).tellLost
  m.drain m.noteQueue

/-- A notice for a slot; those of a slot that does not run wait for its start (R226). -/
def Slot.notify (n : Notice) (k : Slot) : Slot :=
  let m := if k.mbox.noteQueue.length < 32 then { k.mbox with noteQueue := k.mbox.noteQueue ++ [n] }
    else { k.mbox with notesLost := k.mbox.notesLost + 1 }
  { k with mbox := if k.state = .running then m.settle else m }

/-- The running port bitmap as 64 bytes. -/
def Resources.portBytes (r : Resources) : Bytes := r.ports.toList.flatMap fun w => leN 4 w.toNat
/-- A port is in the bitmap. -/
def Resources.hasPort (r : Resources) (p : Fin 512) : Bool := (r.ports[p.val / 32]'(by omega)).getLsbD (p.val % 32)
/-- The eight values of Table 09-5 before the ports. -/
def Resources.eight (r : Resources) : List Nat :=
  [r.weight, r.sram, r.store, r.kct, r.cipher, r.drbg, r.pke, r.class0]

/-- A resource by its parameter number from 0x0700 (Table 09-5). -/
def Resources.get (n : Nat) (x : Resources) : Nat :=
  if n < 8 then x.eight.getD n 0 else (x.ports[Fin.ofNat 16 n]).toNat

/-- The resource set. -/
def Resources.put (n v : Nat) (x : Resources) : Resources :=
  match n with
  | 0 => { x with weight := v }
  | 1 => { x with sram := v }
  | 2 => { x with store := v }
  | 3 => { x with kct := v }
  | 4 => { x with cipher := v }
  | 5 => { x with drbg := v }
  | 6 => { x with pke := v }
  | 7 => { x with class0 := v }
  | _ => { x with ports := x.ports.set (Fin.ofNat 16 n) (BitVec.ofNat 32 v) }

/-- The staged resources with those of the numbers `held` back at the running ones. -/
def Resources.restage (held : Nat → Bool) (run stage : Resources) : Resources :=
  (List.range 8 ++ List.range' 16 16).foldl (fun x n => if held (0x700 + n) then x.put n (run.get n) else x) stage

/-- The frame number as 3 bytes. -/
def State.frame24 (s : State) : BitVec 24 := s.sprig.frame.setWidth 24

/-! ### Areas that engines may reach on a slot's behalf (R264, R265, Table 10-18) -/

/-- An area of Table 10-18: plain data, a region that is read-only, a TX area, an RX area. -/
inductive Area where
  | data | readOnly | tx (p : Nat) | rx (p : Nat)
  deriving DecidableEq, Repr

/-- Engines may write the area. -/
def Area.writable : Area → Bool
  | .data => true
  | .readOnly => false
  | .tx _ => true
  | .rx _ => false

/-- The lowest-numbered tenant region that contains an address: its access. -/
def regionAt (rs : List (Option Region)) (a : Nat) : Option Nat :=
  match rs with
  | [] => none
  | none :: r => regionAt r a
  | some g :: r => if g.base.toNat ≤ a ∧ a ≤ g.last.toNat then some g.access else regionAt r a

/-- The area of a byte for a slot; none where no engine may reach it. -/
def State.areaOf (i : Fin 128) (a : Nat) (s : State) : Option Area :=
  let k := s.tenants.slots[i]
  if 0x10000000 ≤ a ∧ a < 0x10000000 + 0x10000 * k.run.sram then
    match regionAt k.regions.toList a with
    | none => some .data
    | some 0 => none
    | some 1 => some .readOnly
    | some _ => some .data
  else if h : 0x42000000 ≤ a ∧ a < 0x42200000 then
    let p : Fin 512 := ⟨(a - 0x42000000) / 0x1000, by omega⟩
    let o := (a - 0x42000000) % 0x1000
    if (s.sprig.ports[p]).ownedBy i && (s.sprig.ports[p]).moved.isNone then
      if 0x1C0 ≤ o ∧ o < 0x800 then some (.tx p.val)
      else if 0x800 ≤ o then some (.rx p.val)
      else none
    else none
  else none

/-- Addresses at which the area can change, from the first byte of a range on. -/
def State.areaEdges (i : Fin 128) (a : Nat) (s : State) : List Nat :=
  let k := s.tenants.slots[i]
  let pg := a / 0x1000 * 0x1000
  [0x10000000 + 0x10000 * k.run.sram, pg + 0x800, pg + 0x1000] ++
    k.regions.toList.flatMap fun r => match r with
      | none => []
      | some g => [g.base.toNat, g.last.toNat + 1]

/-- The lowest forbidden byte of a range, if it has one: the first byte that the direction may not use, or the
first that lies in another area than the range's first byte. -/
def State.badByte (i : Fin 128) (a len : Nat) (write : Bool) (s : State) : Option Nat :=
  if len = 0 then none
  else match s.areaOf i a with
    | none => some a
    | some x =>
      if write && !x.writable then some a
      else
        let bad := (s.areaEdges i a).filter fun e => decide (a < e ∧ e < a + len) && s.areaOf i e != some x
        match bad with
        | [] => none
        | b :: r => some (r.foldl min b)

/-- A refused range counts in SPLITS (R264). -/
def State.split (i : Fin 128) (s : State) : State :=
  s.updSlot i fun k => { k with splits := if k.splits = 0xFFFFFFFF then k.splits else k.splits + 1 }

/-- The bytes of a range that was allowed. -/
def State.dmaRead (i : Fin 128) (a len : Nat) (s : State) : Bytes :=
  if a < 0x42000000 then Memory.readN (s.tenants.slots[i]).sram (a - 0x10000000) len
  else Memory.readN (s.sprig.ports[Fin.ofNat 512 ((a - 0x42000000) / 0x1000)]).page.mem (a % 0x1000) len

/-- The command in progress reads the TX area (R83): EXCHANGE or RAW. -/
def Page.txHeld (p : Page) : Bool := p.busy && (p.op = 0x03 || p.op = 0x04)

/-- Bytes written to a range that was allowed; a TX area in use takes none and counts in FENCE (R266). -/
def State.dmaWrite (i : Fin 128) (a : Nat) (b : Bytes) (s : State) : State :=
  if b = [] then s
  else if a < 0x42000000 then s.updSlot i fun k => { k with sram := Memory.writeN k.sram (a - 0x10000000) b }
  else s.updPort (Fin.ofNat 512 ((a - 0x42000000) / 0x1000)) fun x =>
    if x.page.txHeld then { x with page := { x.page with fence := sat16 x.page.fence } }
    else { x with page := { x.page with mem := Memory.writeN x.page.mem (a % 0x1000) b } }

/-! ### Jobs ended early (R308, Table 12-19) -/

/-- A cipher submission in progress ends with 0x0409 and its open message is discarded. -/
def CipherPage.abort (p : CipherPage) : CipherPage :=
  if p.busy then { p with busy := false, status := 0x0409, evt := p.evt.hit, job := none, msg := none } else p
/-- Output bytes up to `n` written to the destination. -/
def State.cipherWrite (i : Fin 128) (p : Fin 32) (n : Nat) (s : State) : State :=
  let x := (s.cipher.pages[i])[p]
  match x.job with
  | none => s
  | some j =>
    let wr := match x.msg with | some m => modeWrites (modeOf m.mode) | none => false
    if wr && j.passes == 0 && decide (j.out < n) then
      let s := s.dmaWrite i (j.dst.toNat + j.out) (slice (x.output j) j.out (n - j.out))
      s.updCp i p fun y => { y with job := y.job.map fun q => { q with out := n } }
    else s

/-- The key register and the open message are zeroised. -/
def CipherPage.dropKey (p : CipherPage) : CipherPage := { p with loaded := none, msg := none }

/-- A PKE job in progress ends with 0x0409. -/
def JobPage.abortPke (p : JobPage) : JobPage :=
  if p.busy then { p with busy := false, status := 0x0409, evt := p.evt.hit, job := none } else p
/-- A hash operation in progress ends with 0x0409; its context stays open only at a quiesce. -/
def JobPage.abortHash (keep : Bool) (p : JobPage) : JobPage :=
  if p.hbusy then { p with hbusy := false, hstatus := 0x0409, hevt := p.hevt.hit, hjob := none, ctx := if keep then p.ctx else none } else p
/-- An HMAC context is zeroised. -/
def JobPage.dropHmac (p : JobPage) : JobPage :=
  match p.ctx with
  | none => p
  | some c => if c.key.isSome then { p with ctx := none } else p

/-- A KCT operation in progress ends. -/
def KcPage.finish (st : BitVec 16) (p : KcPage) : KcPage :=
  if p.busy then { p with busy := false, status := st, evt := p.evt.hit, cur := none } else p

/-- A DRBG request of a page ends. -/
def DpPage.finish (st : BitVec 16) (p : DpPage) : DpPage :=
  if p.busy then { p with busy := false, waiting := false, status := st, evt := p.evt.hit } else p

/-- The slot that a DRBG request serves. -/
def DrbgClient.slot? : DrbgClient → Option (Fin 128)
  | .page i _ => some i
  | .kct i => some i
  | .pke i => some i
  | .challenge => none
  | .rekey => none
  | .migrate _ => none

/-- Mint forgets the requests that `drop` names. -/
def Mint.forget (m : Mint) (drop : DrbgReq → Bool) : Mint :=
  { m with running := m.running.filter fun r => !drop r, ready := m.ready.filter fun r => !drop r,
           waitq := m.waitq.filter fun r => !drop r }

/-- A cipher page is in use (R293). -/
def CipherPage.inUse (p : CipherPage) : Bool := p.loaded.isSome || p.busy
/-- Pages above their slot's count, which a FORCE apply left in use, unmap and are cleared at the first frame boundary after they
have left use (R293). -/
def Cipher.unmap (count : Fin 128 → Nat) (c : Cipher) : Cipher :=
  c.held.foldl (fun c g =>
    if ((c.pages[g.slot])[g.page]).inUse then c
    else
      { c with
        held := c.held.erase g
        pages := if count g.slot ≤ g.page.val then modify c.pages g.slot fun v => v.set g.page {} else c.pages }) c

/-- The cores of the symmetric engine let go of the pages that `drop` names. -/
def Cipher.letGo (c : Cipher) (drop : Grant → Bool) : Cipher :=
  { c with aes := c.aes.map fun g => g.filter fun g => !drop g, tdea := c.tdea.map fun g => g.filter fun g => !drop g }

/-- Jobs of a slot in progress on the cipher, PKE and hash engines. -/
def State.engineJobs (i : Fin 128) (s : State) : Nat :=
  ((s.cipher.pages[i]).toList.countP (·.busy)) + b2n (s.pke.pages[i]).busy + b2n (s.pke.pages[i]).hbusy

/-- A job or request of the slot has completed (R248). -/
def State.jobDone (i : Fin 128) (s : State) : State := s.updSlot i fun k => { k with jobDone := true }

/-- Cipher, hash, PKE, KCT and DRBG requests of a slot in progress. -/
def State.requests (i : Fin 128) (s : State) : Nat :=
  s.engineJobs i + b2n (s.kct.pages[i]).busy + (s.mint.pages[i]).toList.countP (·.busy)

/-- A request that ended since `was` has completed for the slot's WAIT (R248). -/
def State.ended (i : Fin 128) (was s : State) : State := if s.requests i < was.requests i then s.jobDone i else s

/-- A cipher submission ends at its next block boundary: whole blocks of the present segment may still be written (R308, log 21). -/
def State.cutCipher (i : Fin 128) (p : Fin 32) (s : State) : State :=
  let x := (s.cipher.pages[i])[p]
  let s := match x.job with
    | none => s
    | some j =>
      let blk := match x.loaded with | some (_, e) => e.block | none => 16
      (s.cipherWrite i p (min j.len (j.out + Config.cutBytes s.free % 256 / blk * blk))).drawn
  let s := s.updCp i p CipherPage.abort
  { s with cipher := s.cipher.letGo fun g => g.slot == i && g.page == p }

/-- The submissions in progress on the pages that `hit` names end. -/
def State.cutPages (i : Fin 128) (hit : CipherPage → Bool) (s : State) : State :=
  ((List.finRange 32).filter fun p => ((s.cipher.pages[i])[p]).busy && hit ((s.cipher.pages[i])[p])).foldl (fun s p => s.cutCipher i p) s

/-- The PKE job of a slot is to end with 0x0409 at the next slice boundary, which has come where the engine is idle (R313). No
draw is made for it. -/
def State.stopPke (i : Fin 128) (s : State) : State :=
  let was := s
  let s : State := { s with mint := s.mint.forget fun r => r.client == .pke i }
  if s.pke.running.isNone then State.ended i was (s.updPk i JobPage.abortPke)
  else s.updPk i fun p => { p with job := p.job.map fun j => { j with ending := some 0x0409 } }

/-- Mint's core takes the next request that is ready. -/
def Mint.next (m : Mint) : Mint :=
  match m.running, m.ready with
  | none, r :: rest => { m with running := some r, ready := rest }
  | _, _ => m

/-- Destination bytes that a running request has written are zeroed (R332, R339). -/
def State.zeroOutput (r : DrbgReq) (s : State) : State :=
  match r.client with
  | .page i _ => if r.outreg ∨ r.reseed then s else (s.dmaWrite i r.dst.toNat (zeros (min r.len (Config.cutBytes s.free)))).drawn
  | _ => s

/-- The request of a DRBG page ends: bytes that it has written are zeroed, and Mint's core goes on (R332, R339). -/
def State.endPage (i : Fin 128) (p : Fin 4) (st : BitVec 16) (s : State) : State :=
  let s := match s.mint.running with
    | some r => if r.client = DrbgClient.page i p then s.zeroOutput r else s
    | none => s
  let s := s.updDp i p (DpPage.finish st)
  { s with mint := (s.mint.forget fun r => r.client == .page i p).next }

/-- The requests in progress of the DRBG pages that `hit` names end. -/
def State.endPages (i : Fin 128) (st : BitVec 16) (hit : DpPage → Bool) (s : State) : State :=
  ((List.finRange 4).filter fun p => ((s.mint.pages[i])[p]).busy && hit ((s.mint.pages[i])[p])).foldl (fun s p => s.endPage i p st) s

/-- Cipher, PKE and hash jobs of a slot end with 0x0409; contexts of hashes stay open if `keep`. -/
def State.abortEngines (i : Fin 128) (keep : Bool) (s : State) : State :=
  let was := s
  State.ended i was (((s.cutPages i fun _ => true).stopPke i).updPk i (JobPage.abortHash keep))

/-- Every job and request of a slot ends with 0x0409. -/
def State.abortSlot (i : Fin 128) (s : State) : State :=
  let was := s
  let s := ((s.abortEngines i false).updKc i (KcPage.finish 0x0409)).endPages i 0x0409 fun _ => true
  State.ended i was { s with mint := s.mint.forget (·.client.slot? == some i) }

/-- Every job of every slot ends with 0x0409 (a save, or an entry into TAMPERED). -/
def State.abortAll (s : State) : State := (List.finRange 128).foldl (fun s i => s.abortSlot i) s

/-- A slot has a job or request in progress. -/
def State.slotBusy (i : Fin 128) (s : State) : Bool :=
  s.engineJobs i != 0 || (s.kct.pages[i]).busy || (s.mint.pages[i]).toList.any (·.busy) || s.store.queue.any (·.slot == i)

/-! ### What a slot holds is cleared -/

/-- The register pages of a slot are cleared, with the jobs on them (R294, R309). -/
def State.clearPages (i : Fin 128) (s : State) : State :=
  let s := s.abortSlot i
  let s := { s with cipher := { s.cipher with pages := modify s.cipher.pages i fun _ => Vector.replicate 32 {} } }
  let s := s.updPk i fun _ => {}
  { s with pke := { s.pke with running := s.pke.running.filter (· != i) } }

/-- The GEN after `g` (R268): 0x00 is never issued. -/
def nextGen (g : Byte) : Byte := if g = 0xFF then 1 else g + 1

/-- An entry written FREE: its GEN increments, and its write count goes on (R268, R274). -/
def Entry.free (e : Entry) : Entry := { gen := nextGen e.gen, wcnt := e.wcnt + 1 }

/-- VOLATILE entries of a slot are lost: they return to the free entries with a new GEN (R280, R287). -/
def State.dropVolatile (i : Fin 128) (s : State) : State :=
  let gone := (s.kct.lru[i]).filter fun k =>
    match s.kct.entries[k]? with
    | some e => e.vol && e.owner == BitVec.ofNat 8 i.val
    | none => false
  let entries := gone.foldl (fun (v : Vector Entry 32768) k =>
    if h : k < 32768 then v.set k v[k].free else v) s.kct.entries
  { s with kct := { s.kct with entries, freed := s.kct.freed ++ gone, lru := modify s.kct.lru i fun l => l.filter fun k => !gone.contains k } }

/-- The SRAM and both mailboxes of a slot are zeroed; its next start is cold. -/
def Slot.wipe (k : Slot) : Slot := { k with sram := [], mbox := {}, class0 := [], cold := true, waiting := none, inCall := false }

/-! ### Ports of a slot -/

/-- The port leaves ACTIVE at the next boundary. -/
def Port.leave (p : Port) : Port := if p.state = .active then { p with askEnd := true } else p

/-- Ports of a slot that are ACTIVE. -/
def State.activePorts (i : Fin 128) (s : State) : Nat :=
  s.sprig.ports.toList.countP fun p => p.ownedBy i && p.state == .active

/-- Every port of a slot leaves ACTIVE at the next boundary. -/
def State.closePorts (i : Fin 128) (s : State) : State :=
  { s with sprig := { s.sprig with ports := s.sprig.ports.map fun p => if p.ownedBy i then p.leave else p } }

/-- Ports of a slot, by number. -/
def State.portsOf (i : Fin 128) (s : State) : List (Fin 512) := (List.finRange 512).filter fun p => (s.sprig.ports[p]).ownedBy i

/-- The port leaves ACTIVE (R53, R56): what Thyme queued is dropped, CAN and FLD off are due, and an active period that a ping
started without a card frame counts as a false wake; at the limit the baseline is seeded again. -/
def Port.endActive (p : Port) : Port :=
  if p.state = .active then
    let p := { p with canDue := true, downq := [] }
    if p.pingWake then
      let n := if p.cardFrame then 0 else p.falseWakes + 1
      if p.ping.limit ≤ n then { p with falseWakes := 0, seeding := 4, seedSum := Vector.replicate 2 {} } else { p with falseWakes := n }
    else p
  else p

/-- Unconsumed events of a port. -/
def Port.unread (p : Port) : Nat := (p.page.evqWr - p.page.evqRd).toNat

/-- A port changes owner at boundary B = `f`; the epoch it had is `e` (Table 03-16). Its page is zeroed and unmapped until B + 1,
what the old owner had queued is gone, and a port in ACTIVE leaves it at that boundary. -/
def Port.change (new : Option (Fin 128)) (forced : Bool) (e : BitVec 16) (f : BitVec 24) (p : Port) : Port :=
  { p.leave with owner := new, moved := some ⟨p.owner, forced, e, f, p.unread⟩, page := {}, ctx := {}, upq := [], downq := [], stale := true }

/-- The number of the frame that the coming boundary begins: an apply takes effect at that boundary, before the ports' transitions
(log 69). -/
def State.boundary24 (s : State) : BitVec 24 := (s.sprig.frame + 1).setWidth 24

/-- A port changes owner in an apply: its epoch increments. -/
def State.movePort (p : Fin 512) (new : Option (Fin 128)) (forced : Bool) (s : State) : State :=
  let n := (s.sprig.ports[p]).unread
  let s := (s.updPort p (Port.change new forced s.store.portEpoch[p] s.boundary24)).bumpPort p
  { s with hrb := { s.hrb with disc := (s.hrb.disc.incHi).incLo n } }

/-- Ports of a slot are marked for a change that the next frame boundary carries out (R87). -/
def State.markPorts (d : PortDue) (i : Fin 128) (s : State) : State :=
  { s with sprig := { s.sprig with ports := s.sprig.ports.map fun p => if p.ownedBy i then { p with due := some d } else p } }

/-- Ports of a slot are released to no owner (Table 09-8). -/
def State.freePorts (i : Fin 128) (s : State) : State := s.markPorts .free i

/-- The epoch of every port of a slot increments, and its context is zeroed (Table 09-8, R65). -/
def State.renewPorts (i : Fin 128) (s : State) : State := s.markPorts .renew i

/-! ### Quiescing (R228 to R230) -/

/-- DRBG requests of a slot that wait complete with 0x0601 when it enters QUIESCING (R336). -/
def State.dropWaiting (i : Fin 128) (s : State) : State :=
  let was := s
  let out := s.mint.waitq.filter (·.client.slot? == some i)
  let s := out.foldl (fun s r => match r.client with
    | .page _ p => s.updDp i p (DpPage.finish 0x0601)
    | .kct _ => s.updKc i (KcPage.finish 0x0601)
    | .pke _ => s.updPk i fun p => { p.abortPke with status := 0x0601 }
    | .challenge => s
    | .rekey => s
    | .migrate _ => s) s
  State.ended i was { s with mint := { s.mint with waitq := s.mint.waitq.filter fun r => !(r.client.slot? == some i) } }

/-- A slot stops running: intake closes, its cores stop and its ports close at the next boundary. -/
def State.beginQuiesce (i : Fin 128) (s : State) : State :=
  let n := s.activePorts i
  let s := s.updSlot i fun k => { k with state := .quiescing, quiesce := some { ports := n } }
  ((((s.account i).leaveCore i).dropWaiting i).closePorts i).evC 4

/-- DEV_EVENT SLOT_STATE with a state code. -/
def State.tellSlot (code : Nat) (i : Fin 128) (s : State) : State :=
  s.devEvent 0x08 (BitVec.ofNat 8 code) i.val (s.store.slotEpoch[i]).toNat

/-- The supervisor quiesces a slot that runs (R229). -/
def State.quiesceOne (i : Fin 128) (s : State) : State :=
  if (s.tenants.slots[i]).state = .running then (s.beginQuiesce i).tellSlot 3 i else s
/-- The supervisor quiesces every slot that runs. -/
def State.quiesceAll (s : State) : State := (List.finRange 128).foldl (fun s i => s.quiesceOne i) s

/-- The slot enters QUIESCED. A host's request is answered first (R196). -/
def State.endQuiesce (i : Fin 128) (us : Word) (s : State) : State :=
  let q := (s.tenants.slots[i]).quiesce.getD {}
  let asked := s.treor.waiting.any (·.what == .quiesce i)
  let s := s.dropVolatile i
  let s := (s.updSlot i fun k => if k.cold then k.wipe else k)
  let s := (s.updSlot i fun k => { k with state := .quiesced, quiesce := none }).evC 4
  let s := s.answer (.quiesce i) 0 (leN 2 q.jobs ++ leN 2 q.ports ++ leN 4 us.toNat)
  let s := if asked then s.tellSlot 3 i else s
  s.tellSlot 4 i

/-- The STOP words and the stop record of a slot (R251, R262). -/
def State.recordStop (i : Fin 128) (cause : Byte) (pc tval info : Word) (s : State) : State :=
  let s := s.updSlot i fun k => { k with stopCause := cause, stopCount := sat16 k.stopCount, stopEpc := pc, stopTval := tval, pc := pc }
  s.log 0x01 cause ([BitVec.ofNat 8 i.val, 0] ++ leN 2 (s.store.slotEpoch[i]).toNat ++ leN 4 pc.toNat ++ leN 4 tval.toNat ++ leN 4 info.toNat)

/-! ### Starting (R227, R243) -/

/-- The initial data of an image (Table 09-9). -/
def imageData (m : Bytes) : Bytes := slice m (256 + fld m 20 4) (fld m 24 4)

/-- A cold start: SRAM zeroed, initial data copied, inbound mailbox emptied, code at its entry point. -/
def State.coldStart (i : Fin 128) (s : State) : State :=
  let s := s.clearPages i
  let s := s.updSlot i fun k =>
    let m := k.image.getD []
    { k with state := .running, cold := false, restart := false, sram := Memory.ofBytes 0 (imageData m), class0 := []
             mbox := { k.mbox with inRd := k.mbox.inWr }, regs := Vector.replicate 31 0, pc := BitVec.ofNat 32 (fld m 28 4)
             cycle := 0, instret := 0, regions := Vector.replicate 4 none, waiting := none, inCall := false, jobDone := false, sinceCall := 0 }
  ((s.updSlot i fun k => { k with mbox := k.mbox.settle }).joinRun i).evC 4

/-- A resume: the slot goes on from where it was stopped, with the notice RESUMED. -/
def State.resume (i : Fin 128) (s : State) : State :=
  let f := s.frame24
  let s := s.updSlot i fun k => ({ k with state := .running, restart := false, sinceCall := 0 }).notify ⟨0x04, leN 3 f.toNat⟩
  (s.joinRun i).evC 4

/-- A slot may be started at all: DEPLOYED, not TAMPERED, and an image whose check passes (R227, R386). -/
def Slot.sramNeed (k : Slot) : Nat := (byteAt (k.image.getD []) 32).toNat

/-! ### Calls of a tenant (R247, R363, R364) -/

/-- A slot can make an environment call: it runs on a core, waits for nothing and is not halted (R474). -/
def State.calls (i : Fin 128) (s : State) : Bool :=
  let k := s.tenants.slots[i]
  s.live && k.state == .running && k.waiting.isNone && !k.inCall && !s.lc.halted.contains i && s.onCore i

/-- Results in a0, a1 and a2. -/
def Slot.ret (k : Slot) (status : BitVec 16) (out : List Word) : Slot :=
  let r := k.regs.set 9 (status.setWidth 32)
  let r := match out with | [] => r | a :: _ => r.set 10 a
  let r := match out with | _ :: b :: _ => r.set 11 b | _ => r
  { k with regs := r }

/-- A call is taken: the slot is charged for its run, and the watchdog's time starts again (R243, R262). -/
def State.callTaken (i : Fin 128) (s : State) : State := (s.account i).updSlot i fun k => { k with sinceCall := 0 }
/-- A call returns. -/
def State.ret (i : Fin 128) (status : BitVec 16) (out : List Word) (s : State) : State := s.updSlot i fun k => k.ret status out

end Sys2Proof.Machine
end

