-- ==== Sys2Proof/Machine/Draw.lean ====
section
/-! DEFINITION. Draws from a DRBG instance: when it needs Mint's blocks, and what a request meets (R334 to R337,
Table 14-4). -/

namespace Sys2Proof.Machine

/-- The 64-bit carrier-cycle count (R32). -/
def State.carrier (s : State) : BitVec 64 := s.sprig.frame ++ s.sprig.phase

/-- Carrier cycles in one second. -/
def carrierHz : Nat := 13560000

/-- Seconds since the last instantiate or reseed. -/
def State.drbgAge (d : Drbg) (s : State) : Nat := (s.carrier - d.since).toNat / carrierHz

/-- A reseed is due (R337). -/
def State.reseedDue (d : Drbg) (s : State) : Bool :=
  decide (s.param 0x0600 ≤ d.uses) || decide (s.param 0x0601 ≤ s.drbgAge d)

/-- The instance needs Mint for this request (R336). -/
def State.needsMint (q : DrbgReq) (s : State) : Bool :=
  let d := s.mint.insts[q.inst]
  !d.inst || d.reseedReq || q.pr || q.reseed || s.reseedDue d

/-- Two blocks are in the pool of a Mint that releases blocks. -/
def Mint.canSeed (m : Mint) : Bool := (m.state == .ready || m.state == .testSrc) && decide (2 ≤ m.pool.length)

/-- The entropy input: two blocks of the pool, byte 0 of each from S[7:0] (R326, R334). A block that is still missing is a
free value (log 6). -/
def State.entropy (s : State) : Bytes := padTo 64 ((s.mint.pool.take 2).flatMap (fun b => leN 32 b.toNat) ++ s.random 64)

/-- The owner epoch of an instance (R334). -/
def State.drbgEpoch (n : Fin 160) (s : State) : Nat :=
  if h : n.val < 128 then (s.store.slotEpoch[n.val]).toNat
  else match (List.finRange 128).find? fun i => (s.mint.extra[i]).contains n with
    | some i => (s.store.slotEpoch[i]).toNat
    | none => 0

/-- The nonce of an instantiation: the boot counter, then the instantiations made since the main-side reset. -/
def State.drbgNonce (s : State) : Bytes := leN 8 s.boots ++ leN 8 s.mint.instCount
/-- The personalization string: the unit ID, the instance number and the owner epoch. -/
def State.drbgPers (n : Fin 160) (s : State) : Bytes := padTo 16 s.lc.unitId ++ leN 2 n.val ++ leN 2 (s.drbgEpoch n)

/-- Mint's core takes up a request: the instance is instantiated or reseeded where it must be. -/
def State.seedFor (q : DrbgReq) (s : State) : State :=
  if s.needsMint q then
    let d := s.mint.insts[q.inst]
    let ctr := if d.inst then d.ctr.reseed s.entropy q.ain else CtrState.init s.entropy s.drbgNonce (s.drbgPers q.inst)
    { s with
      mint := { s.mint with
        pool := s.mint.pool.drop 2
        instCount := if d.inst then s.mint.instCount else s.mint.instCount + 1
        insts := s.mint.insts.set q.inst { inst := true, since := s.carrier, ctr } }
      free := if 2 ≤ s.mint.pool.length then s.free else s.free + 1 }
  else s

/-- The generate of a request, after the seeding that it needs: its output, and the state after it. Additional input that
a reseed has taken is not used again. -/
def State.generate (q : DrbgReq) (s : State) : Bytes × State :=
  let ain := if s.needsMint q && (s.mint.insts[q.inst]).inst then [] else q.ain
  let s := s.seedFor q
  let g := (s.mint.insts[q.inst]).ctr.generate q.len ain
  (g.1, { s with mint := { s.mint with insts := modify s.mint.insts q.inst fun d => { d with ctr := g.2 } } })

/-- A generate is counted. -/
def State.countGen (q : DrbgReq) (s : State) : State :=
  { s with mint := { s.mint with insts := modify s.mint.insts q.inst fun d => { d with uses := d.uses + 1 } } }

/-- What a request meets when it is taken (Table 14-4). -/
inductive Draw where
  | refused (status : BitVec 16) | queued | now
  deriving DecidableEq, Repr

/-- Table 14-4. A request waits behind one on its own instance, and for blocks that are still missing. -/
def State.drawKind (q : DrbgReq) (wait : Bool) (s : State) : Draw :=
  if s.needsMint q then
    match s.mint.state with
    | .failed => .refused 0x0602
    | .startup | .restarting => if wait then .queued else .refused 0x0601
    | .ready | .testSrc =>
      if s.mint.canSeed && !s.mint.waitq.any (·.inst == q.inst) then .now else .queued
  else if s.mint.waitq.any (·.inst == q.inst) then .queued else .now

/-- The request joins those that wait. -/
def State.queueDraw (q : DrbgReq) (s : State) : State := { s with mint := { s.mint with waitq := s.mint.waitq ++ [q] } }

/-- An engine's draw that is served at once: its bytes. -/
def State.drawOut (q : DrbgReq) (s : State) : Bytes := (s.generate q).1
/-- The state after it. -/
def State.drawNow (q : DrbgReq) (s : State) : State := (s.generate q).2.countGen q

/-- A draw of the device's own, of an internal instance (Table 14-3). -/
def ownDraw (inst : Fin 160) (len : Nat) : DrbgReq := { client := .challenge, inst, len }

/-- The bytes of a draw of the device's own; a free value where Mint cannot serve it at once (log 6). -/
def State.ownOut (inst : Fin 160) (len : Nat) (s : State) : Bytes :=
  if s.drawKind (ownDraw inst len) true = .now then s.drawOut (ownDraw inst len) else s.random len
/-- The state after it. -/
def State.ownDrawn (inst : Fin 160) (len : Nat) (s : State) : State :=
  if s.drawKind (ownDraw inst len) true = .now then s.drawNow (ownDraw inst len) else s.drawn

/-- The random data of a signature of the device's own, from instance 148. -/
def State.signData (s : State) : Bytes := s.ownOut 148 32
/-- The state after the signature. -/
def State.signDone (s : State) : State := s.ownDrawn 148 32

end Sys2Proof.Machine
end

