-- ==== Sys2Proof/Machine/Dukpt.lean ====
section
/-! DEFINITION. The terminal side of AES DUKPT, ANSI X9.24-3, as R290 and R291 name it (log 12). -/

namespace Sys2Proof.Machine

/-- Bytes of a key by the standard's algorithm indicator: double- and triple-length TDEA, AES-128, AES-192, AES-256. -/
def dukptLen (alg : Nat) : Nat := if alg = 0 ∨ alg = 2 then 16 else if alg = 4 then 32 else 24

/-- A key derived for a usage and an algorithm, at a transaction counter. -/
def dukptDerive (key : Bytes) (usage alg : Nat) (ikid : Bytes) (ctr : Nat) : Bytes :=
  let n := dukptLen alg
  padTo n ((List.range ((n + 15) / 16)).flatMap fun j =>
    cipherOf 1 key false ([1, BitVec.ofNat 8 (j + 1)] ++ beN 2 usage ++ beN 2 alg ++ beN 2 (8 * n) ++ slice ikid 4 4 ++ beN 4 ctr))

/-- The usage of intermediate derivation keys. -/
def dukptKeyUsage : Nat := 0x8000

/-- Register `r` of a state that is loaded with an initial key. -/
def dukptLoaded (key ikid : Bytes) (r : Nat) : Bytes := dukptDerive key dukptKeyUsage (key.length / 8) ikid (2 ^ r)

/-- The transaction counter of a state that is loaded. -/
def dukptFirst : Nat := 1

/-- The number of the lowest set bit, of 32. -/
def lowestBit (ctr : Nat) : Nat := ((List.range 32).find? ctr.testBit).getD 0

/-- The counter whose register still holds a key, from `ctr` on. -/
def dukptUsable (regs : List Bytes) : Nat → Nat → Option Nat
  | 0, _ => none
  | f + 1, ctr =>
    if 2 ^ 32 ≤ ctr then none
    else if allZero (regs.getD (lowestBit ctr) []) then dukptUsable regs f (ctr + 2 ^ lowestBit ctr)
    else some ctr

/-- The counter after a transaction: counters with more than 16 bits set are left out; none where it can advance no further. -/
def dukptNext (ctr : Nat) : Option Nat :=
  let next := if (List.range 32).countP ctr.testBit < 16 then ctr + 1 else ctr + 2 ^ lowestBit ctr
  if next < 2 ^ 32 then some next else none

/-- The working key of a transaction. -/
def dukptWorking (ikid : Bytes) (regs : List Bytes) (ctr usage alg : Nat) : Bytes :=
  dukptDerive (regs.getD (lowestBit ctr) []) usage alg ikid ctr

/-- Register `r` after the transaction: the register used is erased, and those below it are derived anew where their counters
are used. -/
def dukptAfter (ikid : Bytes) (regs : List Bytes) (ctr r : Nat) : Bytes :=
  let cur := lowestBit ctr
  let key := regs.getD cur []
  if r = cur then zeros key.length
  else if r < cur ∧ (List.range 32).countP ctr.testBit < 16 then dukptDerive key dukptKeyUsage (key.length / 8) ikid (ctr + 2 ^ r)
  else regs.getD r []

end Sys2Proof.Machine
end

