-- ==== Sys2Proof/Machine/Kct.lean ====
section
/-! DEFINITION. The key and counter table: handles, the cache, the checks on each use, and the operations of the
access page (R267 to R291). -/

namespace Sys2Proof.Machine

abbrev State.updKct (s : State) (f : Kct → Kct) : State := { s with kct := f s.kct }

/-! ### Entries and handles (R267 to R273) -/

/-- An index of the table. -/
abbrev KIdx := Fin 32768

/-- Entry `k`. -/
def State.entry (k : KIdx) (s : State) : Entry := s.kct.entries[k]
/-- Entry `k` changed. -/
def State.setEntry (k : KIdx) (e : Entry) (s : State) : State := s.updKct fun t => { t with entries := t.entries.set k e }

/-! ### The journal (R275, R373) -/

/-- Bytes that a journal group of `n` entries occupies (R352, R373). -/
def groupSize (n : Nat) : Nat := 36 + 68 * n

/-- A group is committed at the ring's head, or at its start where it would not fit before its end; groups in pages that the head
enters are gone. -/
def Kct.journal (items : List (Nat × Entry)) (t : Kct) : Kct :=
  let n := groupSize items.length
  let off := if t.jnlHead + n ≤ 0x10000 then t.jnlHead else 0
  let a := (off + 255) / 256 * 256
  let b := (off + n + 255) / 256 * 256
  let stays (g : KctGroup) : Bool := decide (g.off + groupSize g.items.length ≤ a) || decide (b ≤ g.off)
  { t with jnl := t.jnl.filter stays ++ [{ off, seq := t.jnlSeq, items }], jnlHead := off + n, jnlSeq := t.jnlSeq + 1 }

/-- Entries that an operation has changed are committed as one group; their places in the table follow. -/
def State.commitEntries (ks : List KIdx) (s : State) : State :=
  s.updKct fun t => t.journal (ks.map fun k => (k.val, t.entries[k]))
/-- One entry written to the store. -/
def State.writeEntry (k : KIdx) (e : Entry) (s : State) : State := (s.setEntry k e).commitEntries [k]

/-- The replay of a group: a copy takes its place where the entry there fails its tag or holds a lower WCNT. -/
def Kct.replayItem (t : Kct × Nat) (x : Nat × Entry) : Kct × Nat :=
  let k : KIdx := Fin.ofNat 32768 x.1
  let e := t.1.entries[k]
  if e.lost || decide (e.wcnt < x.2.wcnt) then ({ t.1 with entries := t.1.entries.set k { x.2 with lost := false } }, t.2 + 1) else t

/-- Recall phase 3. A replay that has written something is logged (Table 15-12, log 78). -/
def State.replayKct (s : State) : State :=
  let r := (s.kct.jnl.flatMap (·.items)).foldl Kct.replayItem (s.kct, 0)
  if r.2 = 0 then s else State.log 0x08 0 (leN 2 s.kct.jnl.length ++ leN 2 r.2) { s with kct := r.1 }

/-- The index that a handle names. -/
def handleIndex (h : Word) : KIdx := ⟨h.toNat % 32768, Nat.mod_lt _ (by decide)⟩
/-- The handle of an entry. -/
def makeHandle (k : KIdx) (gen : Byte) : Word := BitVec.ofNat 32 (gen.toNat * 65536 + k.val)

/-- A handle is valid for its caller (R269). -/
def State.handleOk (owner : Byte) (h : Word) (s : State) : Bool :=
  let e := s.entry (handleIndex h)
  decide (h.toNat < 0x1000000) && !h.getLsbD 15 && e.cls != 0 && e.gen.toNat == h.toNat / 65536 && e.owner == owner && e.cls != 8

/-- RSV of a COUNTER. -/
def Entry.ctrRsv (e : Entry) : Nat := fld e.secret 0 6
/-- MAX of a COUNTER. -/
def Entry.ctrMax (e : Entry) : Nat := fld e.secret 6 6
/-- A COUNTER with another reservation. -/
def Entry.setRsv (v : Nat) (e : Entry) : Entry := { e with secret := leN 6 v ++ e.secret.drop 6 }

/-- The attribute block (Table 11-2, bytes 0 to 23). -/
def Entry.attr (e : Entry) : Bytes :=
  [e.gen, e.owner, BitVec.ofNat 8 (e.cls.toNat + 16 * e.alg.toNat), BitVec.ofNat 8 (e.mincm.toNat + 4 * b2n e.vol)] ++
    leN 2 e.usage.toNat ++ leN 3 e.kcv.toNat ++ leN 5 e.wcnt.toNat ++ leN 4 e.expiry.toNat ++ leN 3 e.limit.toNat ++ leN 3 e.rsv.toNat

/-- The public key of a private key (Table 13-11). -/
def publicKey (cls alg : Nat) (key : Bytes) : Bytes :=
  if cls = 5 ∧ alg = 1 then key.take (rsaLen key + 4)
  else if cls = 4 ∧ alg = 2 then x25519 key (leN 32 9)
  else if cls = 4 ∧ alg = 3 then edPublic key
  else (curveOf (if cls = 4 then 1 else alg)).public (beVal key)

/-- The key check value (R273). -/
def kcvOf (cls alg : Nat) (key : Bytes) : BitVec 24 :=
  BitVec.ofNat 24 (leVal (match cls with
    | 1 => (cmac 1 key (zeros 16)).take 3
    | 2 => (tdea false key (zeros 8)).take 3
    | 3 => (hmac alg key []).take 3
    | 4 => (sha (publicKey cls alg key)).take 3
    | 5 => (sha (publicKey cls alg key)).take 3
    | _ => []))

/-- The template of R287. -/
structure Template where
  cls : Nat
  alg : Nat
  mincm : BitVec 2 := 0
  vol : Bool := false
  usage : BitVec 16 := 0
  expiry : Word := 0
  limit : BitVec 24 := 0
  deriving DecidableEq, Repr

/-- A template whose reserved bytes and bits are zero. -/
def readTemplate (b : Bytes) : Option Template :=
  if byteAt b 3 = 0 ∧ fld b 6 2 = 0 ∧ byteAt b 15 = 0 ∧ byteAt b 2 < 8 ∧ fld b 4 2 < 2048 then
    some { cls := fld b 0 1, alg := fld b 1 1, mincm := (byteAt b 2).setWidth 2, vol := (byteAt b 2).getLsbD 2
           usage := BitVec.ofNat 16 (fld b 4 2), expiry := BitVec.ofNat 32 (fld b 8 4), limit := BitVec.ofNat 24 (fld b 12 3) }
  else none

/-- A template of a class whose key fits one entry: AES, TDEA, HMAC or EC_PRIV. -/
def keyTemplate (b : Bytes) : Option (Template × Nat) :=
  match readTemplate b with
  | none => none
  | some t => (keyLen t.cls t.alg).map fun n => (t, n)

/-- The template of an entry. -/
def Entry.template (e : Entry) : Bytes :=
  [BitVec.ofNat 8 e.cls.toNat, BitVec.ofNat 8 e.alg.toNat, BitVec.ofNat 8 (e.mincm.toNat + 4 * b2n e.vol), 0] ++ leN 2 e.usage.toNat ++ [0, 0] ++
    leN 4 e.expiry.toNat ++ leN 3 e.limit.toNat ++ [0]

/-! ### The cache (R279, R280) -/

/-- Lines of a slot's partition. -/
def State.lines (i : Fin 128) (s : State) : Nat := (s.tenants.slots[i]).run.kct / 8
/-- A slot's name as an owner. -/
def slotOwner (i : Fin 128) : Byte := BitVec.ofNat 8 i.val
/-- Entries that a slot owns. -/
def State.kctUsed (i : Fin 128) (s : State) : Nat := s.kct.entries.toList.countP (·.owner == slotOwner i)
/-- Entries of a slot that are VOLATILE. -/
def State.kctVol (i : Fin 128) (s : State) : Nat := s.kct.entries.toList.countP fun e => e.owner == slotOwner i && e.vol

/-- A line leaves the cache: a COUNTER whose VALUE is not its RSV is written back. -/
def State.writeBack (k : KIdx) (s : State) : State :=
  let e := s.entry k
  if e.cls = 6 ∧ e.live.toNat ≠ e.ctrRsv ∧ s.commits then s.writeEntry k { e.setRsv e.live.toNat with wcnt := e.wcnt + 1 } else s

/-- Lines to keep and to evict, least recently used first: `n` entries that are not VOLATILE leave. -/
def State.split2 (s : State) : List Nat → Nat → List Nat × List Nat × Nat
  | [], n => ([], [], n)
  | k :: r, n =>
    let (keep, out, m) := s.split2 r n
    if m = 0 ∨ (s.entry (Fin.ofNat 32768 k)).vol then (k :: keep, out, m) else (keep, k :: out, m - 1)

/-- The partition is cut to `n` lines. -/
def State.evictTo (n : Nat) (i : Fin 128) (s : State) : State :=
  let l := s.kct.lru[i]
  let (keep, out, _) := s.split2 l (l.length - n)
  let s := out.foldl (fun s k => s.writeBack (Fin.ofNat 32768 k)) s
  s.updKct fun t => { t with lru := t.lru.set i keep }

/-- The stored form is loaded: a use count and a counter resume at their reservation (R282, R288). -/
def Entry.loaded (e : Entry) : Entry :=
  if e.cls = 6 then { e with live := BitVec.ofNat 48 e.ctrRsv } else if e.limit = 0 then e else { e with live := e.rsv.setWidth 48 }

/-- An entry is brought into the cache, or found there. -/
def State.touch (i : Fin 128) (k : KIdx) (s : State) : State :=
  let l := s.kct.lru[i]
  if l.contains k.val then s.updKct fun t => { t with lru := t.lru.set i (k.val :: l.filter (· != k.val)) }
  else
    let s := s.updKc i fun p => { p with misses := sat16 p.misses }
    let s := s.setEntry k (s.entry k).loaded
    (s.updKct fun t => { t with lru := t.lru.set i (k.val :: l) }).evictTo (max 1 (s.lines i)) i

/-- A new entry stands in the cache. -/
def State.cacheNew (i : Fin 128) (k : KIdx) (s : State) : State :=
  (s.updKct fun t => { t with lru := t.lru.set i (k.val :: t.lru[i]) }).evictTo (s.lines i) i

/-! ### Using a key (R281 to R283) -/

/-- Step 4 of Table 11-5. -/
def State.expired (e : Entry) (s : State) : Bool :=
  e.expiry != 0 && (!s.guard.rtcSet || decide (e.expiry.toNat < bitsOf s.guard.rtc.toNat 37 6))

/-- Steps 4 to 6 of Table 11-5. -/
def State.useCheck (e : Entry) (level : Nat) (s : State) : Option (BitVec 16) :=
  if s.expired e then some 0x0403
  else if level < e.mincm.toNat then some 0x0405
  else if e.limit ≠ 0 ∧ e.limit.toNat ≤ e.live.toNat then some 0x0404
  else none

/-- Steps 1 to 3 of Table 11-5. -/
def State.keyFind (i : Fin 128) (h : Word) (accept : Entry → Bool) (s : State) : State × Option (BitVec 16) :=
  if !s.handleOk (slotOwner i) h then (s, some 0x0402)
  else
    let cached := (s.kct.lru[i]).contains (handleIndex h).val
    let s := s.touch i (handleIndex h)
    let e := s.entry (handleIndex h)
    if e.lost then (if cached then s else s.log 0x02 0 (leN 2 (handleIndex h).val), some 0x0504)
    else (s, if accept e then none else some 0x0401)

/-- Steps 1 to 6. -/
def State.keyCheck (i : Fin 128) (h : Word) (accept : Entry → Bool) (level : Nat) (s : State) : State × Option (BitVec 16) :=
  let ans := s.keyFind i h accept
  let s := ans.1
  match ans.2 with
  | some st => (s, some st)
  | none => (s, s.useCheck (s.entry (handleIndex h)) level)

/-- The owner's store.reserve.step. -/
def State.reserveStep (i : Fin 128) (s : State) : Nat := s.param 0x0500 i.val

/-- One use of a key is counted, with its reservation ahead (R282); false where the reservation does not commit. -/
def State.countUse (i : Fin 128) (h : Word) (s : State) : State × Bool :=
  let k := handleIndex h
  let e := s.entry k
  if e.limit = 0 then (s, true)
  else
    let u := e.live.toNat + 1
    let e := { e with live := BitVec.ofNat 48 u }
    if e.vol ∨ u < e.rsv.toNat then (s.setEntry k e, true)
    else if s.commits then
      (s.writeEntry k { e with rsv := BitVec.ofNat 24 (min (u + s.reserveStep i) e.limit.toNat), wcnt := e.wcnt + 1 }, true)
    else (s, false)

/-- A usage bit of Table 11-4. -/
def Entry.may (e : Entry) (bit : Nat) : Bool := e.usage.getLsbD bit

/-! ### Making and freeing entries -/

/-- Indexes from here on are the device's own entries (R219, log 53). -/
def tenantEntries : Nat := 32256

/-- The device's entry at index `n`, made by the supervisor (R277): what it holds is free, by free-value number `f`. -/
def Entry.ofDevice (f n : Nat) (e : Entry) : Entry :=
  let b (j : Nat) : Byte := Config.randomByte f (36 * n + j)
  { gen := e.gen, owner := 0xFE, cls := BitVec.ofNat 4 (1 + (b 0).toNat % 5), alg := (b 1).setWidth 4, mincm := (b 2).setWidth 2
    usage := (b 3).setWidth 16, wcnt := e.wcnt + 1, secret := (List.range 32).map fun j => b (4 + j) }

/-- The supervisor makes the device's 512 entries. -/
def State.ownEntries (s : State) : State :=
  let f := s.free
  (s.updKct fun t => { t with entries := t.entries.mapFinIdx fun n e _ => if n < tenantEntries then e else e.ofDevice f n }).drawn

/-- Room for `n` new entries of a slot (R278, R280). -/
def State.kctRoom (i : Fin 128) (n : Nat) (vol : Bool) (s : State) : Option (BitVec 16) :=
  if (s.tenants.slots[i]).run.kct < s.kctUsed i + n then some 0x030C
  else if vol ∧ s.lines i ≤ s.kctVol i + 1 then some 0x030C
  else if tenantEntries ≤ s.kct.fresh ∧ s.kct.freed = [] then some 0x0406
  else none

/-- The free entry that was freed first (R268). -/
def Kct.alloc (t : Kct) : Option (KIdx × Kct) :=
  if h : t.fresh < tenantEntries then some (⟨t.fresh, Nat.lt_trans h (by decide)⟩, { t with fresh := t.fresh + 1 })
  else match t.freed with
    | [] => none
    | j :: r => some (Fin.ofNat 32768 j, { t with freed := r })

/-- The lowest free run of 33 indexes (R290). -/
def Kct.run33 (t : Kct) : Option Nat :=
  (List.range (t.fresh + 1)).find? fun a =>
    decide (a + 33 ≤ tenantEntries) && (List.range 33).all fun j => decide (t.fresh ≤ a + j) || t.freed.contains (a + j)

/-- A fresh entry of an owner. -/
def Entry.make (old : Entry) (owner : Byte) (t : Template) (secret : Bytes) (kcv : BitVec 24) : Entry :=
  { gen := old.gen, owner, cls := BitVec.ofNat 4 t.cls, alg := BitVec.ofNat 4 t.alg, mincm := t.mincm, vol := t.vol, usage := t.usage
    kcv, wcnt := if t.vol then old.wcnt else old.wcnt + 1, expiry := t.expiry, limit := t.limit, secret := padTo 32 secret }

/-- A new entry of a slot: its handle, or why there is none. -/
def State.create (i : Fin 128) (t : Template) (secret : Bytes) (kcv : BitVec 24) (s : State) : State × Except (BitVec 16) Word :=
  match s.kctRoom i 1 t.vol with
  | some st => (s, .error st)
  | none =>
    if !t.vol && !s.commits then (s, .error 0x0501)
    else match s.kct.alloc with
      | none => (s, .error 0x0406)
      | some (k, kct) =>
        let s := { s with kct }
        let e := Entry.make (s.entry k) (slotOwner i) t secret kcv
        ((if t.vol then s.setEntry k e else s.writeEntry k e).cacheNew i k, .ok (makeHandle k e.gen))

/-- The record of an EXT key (R272). -/
def blobId (i : Fin 128) (k : KIdx) : RecId := ⟨slotOwner i, 16, BitVec.ofNat 16 k.val⟩

/-- A record is destroyed. -/
def Store.destroy (id : RecId) (t : Store) : Store :=
  { t with journal := t.journal.filter (·.id != id), dual := t.dual.filter (·.id != id) }

/-- An entry becomes FREE, with its GEN incremented and its blob destroyed. -/
def State.dropEntry (i : Fin 128) (k : KIdx) (s : State) : State :=
  let e := s.entry k
  let s := if e.cls = 5 then { s with store := s.store.destroy (blobId i k) } else s
  (s.setEntry k e.free).updKct fun t => { t with freed := t.freed ++ [k.val], lru := t.lru.set i ((t.lru[i]).filter (· != k.val)) }

/-- The same for entries that are written in one group. -/
def State.freeEntries (i : Fin 128) (ks : List KIdx) (s : State) : State := (ks.foldl (fun s k => s.dropEntry i k) s).commitEntries ks
/-- One entry is freed. -/
def State.freeEntry (i : Fin 128) (k : KIdx) (s : State) : State := s.freeEntries i [k]

/-- Indexes that a slot owns. -/
def State.owned (i : Fin 128) (s : State) : List KIdx := (List.finRange 32768).filter fun k => (s.entry k).owner == slotOwner i

/-- Every entry of a slot is destroyed (R232). -/
def State.freeAll (i : Fin 128) (s : State) : State := (s.owned i).foldl (fun s k => s.freeEntry i k) s

/-- A page holds a key. -/
def CipherPage.holds (h : Word) (p : CipherPage) : Bool := match p.loaded with | some (g, _) => g == h | none => false
/-- A PKE job uses a key. -/
def JobPage.uses (h : Word) (p : JobPage) : Bool := match p.job with | some j => j.key == h | none => false
/-- A hash operation in progress uses a key. -/
def JobPage.hashes (h : Word) (p : JobPage) : Bool :=
  match p.ctx with | some c => c.key.isSome && c.handle == h && p.hbusy | none => false

/-- A key is cleared from its owner's pages and jobs (R284). -/
def State.clearKey (i : Fin 128) (h : Word) (s : State) : State :=
  let was := s
  let s := s.cutPages i (·.holds h)
  let s : State := { s with cipher := { s.cipher with pages := modify s.cipher.pages i fun v => v.map fun p => if p.holds h then p.dropKey else p } }
  let s := if (s.pke.pages[i]).uses h then s.stopPke i else s
  State.ended i was (if (s.pke.pages[i]).hashes h then s.updPk i (JobPage.abortHash false) else s)

/-! ### The access page (R285 to R287) -/

/-- An operation completes or is refused: results, STATUS, DONE, and the slot may wake. -/
def State.kctEnd (i : Fin 128) (status : BitVec 16) (out : List Word) (buf : Option Bytes) (s : State) : State :=
  (s.updKc i fun p => { p with busy := false, cur := none, status, evt := p.evt.hit, out0 := out.getD 0 0, out1 := out.getD 1 0, out2 := out.getD 2 0
                               buf := buf.getD p.buf }).jobDone i

/-- Bytes laid over a buffer from an offset on. -/
def overlay (old : Bytes) (off : Nat) (new : Bytes) : Bytes := old.take off ++ new ++ old.drop (off + new.length)

/-- Two handles checked and counted, or one where there is no second. -/
def State.useKeys (i : Fin 128) (keys : List (Word × (Entry → Bool))) (s : State) : State × Option (BitVec 16) :=
  match keys with
  | [] => (s, none)
  | (h, f) :: r =>
    let ans := s.keyCheck i h f 3
    let s := ans.1
    match ans.2 with
    | some st => (s, some st)
    | none => s.useKeys i r

/-- The uses of the handles counted, up to one whose reservation does not commit; nothing is counted then. -/
def State.countAll (i : Fin 128) : List Word → State → State × Bool
  | [], s => (s, true)
  | h :: r, s => if (s.countUse i h).2 then State.countAll i r (s.countUse i h).1 else (s, false)

/-- The checks of an operation that names keys: Table 11-5 on each, then room for what it makes, then the counts. -/
def State.kctUse (i : Fin 128) (keys : List (Word × (Entry → Bool))) (room : State → Option (BitVec 16)) (s : State) : State × Option (BitVec 16) :=
  let ans := s.useKeys i keys
  let s := ans.1
  match ans.2 with
  | some st => (s, some st)
  | none => match room s with
    | some st => (s, some st)
    | none =>
      let all := s.countAll i (keys.map (·.1))
      if all.2 then (all.1, none) else (s, some 0x0501)

/-- An AES key with a usage bit. -/
def aesWith (bit : Nat) (e : Entry) : Bool := e.cls == 1 && e.may bit
/-- A counter. -/
def isCounter (e : Entry) : Bool := e.cls == 6

/-- A wrapped length of UNWRAP. One that is no whole number of semiblocks fails the integrity check. -/
def wrapLenOk (n : Nat) : Bool := decide (32 ≤ n) && decide (n ≤ 56)

/-- What the template of RESTRICT may name (Table 11-8). -/
def State.restrictFits (o : KctOp) (s : State) : Bool :=
  let e := s.entry (handleIndex o.handle)
  match readTemplate o.buf with
  | none => false
  | some t => t.cls == e.cls.toNat && t.alg == e.alg.toNat && t.vol == e.vol && (t.limit == 0 || (e.cls != 6 && e.cls != 7))

/-- The checks at the taking of an operation (Table 11-8, Table 11-5, R278). -/
def State.kctTake (i : Fin 128) (o : KctOp) (s : State) : State × Option (BitVec 16) :=
  let none2 : State → Option (BitVec 16) := fun _ => none
  match o.op.toNat with
  | 0x01 => match keyTemplate o.buf with
    | none => (s, some 0x0108)
    | some (t, _) => (s, s.kctRoom i 1 t.vol)
  | 0x02 =>
    if wrapLenOk (fld (leN 4 o.arg.toNat) 0 1) then s.kctUse i [(o.handle, aesWith 5)] (·.kctRoom i 1 false) else (s, some 0x0108)
  | 0x03 => s.kctUse i [(o.handle, fun e => e.may 9 && (keyLen e.cls.toNat e.alg.toNat).isSome), (o.arg, aesWith 4)] none2
  | 0x04 =>
    let n := o.arg.toNat % 128
    match keyTemplate o.buf with
    | none => (s, some 0x0108)
    | some (t, _) =>
      if 1 ≤ n ∧ n ≤ 64 then s.kctUse i [(o.handle, fun e => (e.cls == 1 || e.cls == 3) && e.may 6)] (·.kctRoom i 1 t.vol)
      else (s, some 0x0108)
  | 0x05 =>
    if s.handleOk (slotOwner i) o.handle ∧ (s.entry (handleIndex o.handle)).lost then (s, none)
    else s.kctUse i [(o.handle, fun _ => true)] none2
  | 0x06 => s.kctUse i [(o.handle, fun _ => true)] fun s => if s.restrictFits o then none else some 0x0108
  | 0x07 => s.kctUse i [(o.handle, fun _ => true)] none2
  | 0x08 => if fld o.buf 0 6 ≤ fld o.buf 8 6 then (s, s.kctRoom i 1 false) else (s, some 0x0108)
  | 0x09 => if o.arg.toNat % 65536 = 0 then (s, some 0x0108) else s.kctUse i [(o.handle, isCounter)] none2
  | 0x0A => s.kctUse i [(o.handle, isCounter)] none2
  | 0x0B =>
    if (let n := o.arg.toNat % 256; n == 24 || n == 32 || n == 40) then
      s.kctUse i [(o.handle, aesWith 5)] fun s =>
        match s.kctRoom i 33 false with
        | some st => some st
        | none => if s.kct.run33.isSome then none else some 0x0406
    else (s, some 0x0108)
  | 0x0C => s.kctUse i [(o.handle, fun e => e.cls == 7)] (·.kctRoom i 1 true)
  | _ => (s, some 0x0106)

/-- KCT operations end at once while no KCT key can be used: TAMPERED, or no valid BBK (R277, R452). -/
def State.kctLocked (s : State) : Bool := s.guard.tampered || s.guard.bbk != .valid

/-- A store of KC_CMD with GO = 1 by the slot's core (R286). -/
def State.kctIssue (i : Fin 128) (op : Byte) (s : State) : State :=
  if s.calls i then
    let p := s.kct.pages[i]
    if p.busy then s.updKc i fun p => { p with ignored := sat8 p.ignored }
    else
      let o : KctOp := { op, handle := p.handle, arg := p.arg, buf := p.buf }
      let s := s.updKc i fun p => { p with op }
      if s.kctLocked then s.kctEnd i 0x0703 [] none
      else
        let ans := s.kctTake i o
        let s := ans.1
        match ans.2 with
        | some st => s.kctEnd i st [] none
        | none =>
          if op = 0x01 then
            let q : DrbgReq := { client := .kct i, inst := Fin.castLE (by decide) i, len := 32 }
            match s.drawKind q (o.arg.getLsbD 31) with
            | .refused st => s.kctEnd i st [] none
            | .queued => (s.queueDraw q).updKc i fun p => { p with busy := true, cur := some { o with waiting := true } }
            | .now =>
              let o := { o with draw := s.drawOut q }
              (s.drawNow q).updKc i fun p => { p with busy := true, cur := some o }
          else s.updKc i fun p => { p with busy := true, cur := some o }
  else s

/-! ### Effects of the operations -/

/-- A private key from random bytes: a P-256 scalar lies in its range. -/
def keyFrom (t : Template) (n : Nat) (draw : Bytes) : Bytes :=
  if t.cls = 4 ∧ t.alg = 1 then beN 32 (p256.scalar draw 0) else padTo n draw

/-- A key entry made from its secret: handle and KCV. -/
def State.makeKey (i : Fin 128) (t : Template) (key : Bytes) (buf : Option Bytes) (s : State) : State :=
  let kcv := kcvOf t.cls t.alg key
  let ans := s.create i t key kcv
  let s := ans.1
  match ans.2 with
  | .error st => s.kctEnd i st [] none
  | .ok h => s.kctEnd i 0 [h, kcv.setWidth 32] buf

def State.kctGenerate (i : Fin 128) (o : KctOp) (s : State) : State :=
  match keyTemplate o.buf with
  | none => s.kctEnd i 0x0108 [] none
  | some (t, n) =>
    let key := keyFrom t n o.draw
    s.makeKey i t key (if t.cls = 4 then some (overlay o.buf 0 (publicKey 4 t.alg key)) else none)

def State.kctUnwrap (i : Fin 128) (o : KctOp) (s : State) : State :=
  match kwpOpen (s.entry (handleIndex o.handle)).key (o.buf.take (o.arg.toNat % 256)) with
  | none => s.kctEnd i 0x0407 [] none
  | some p => match keyTemplate p with
    | none => s.kctEnd i 0x0108 [] none
    | some (t, n) => if p.length = 16 + n then s.makeKey i t (p.drop 16) none else s.kctEnd i 0x0408 [] none

def State.kctWrap (i : Fin 128) (o : KctOp) (s : State) : State :=
  let e := s.entry (handleIndex o.handle)
  let w := kwpWrap (s.entry (handleIndex o.arg)).key (e.template ++ e.key)
  s.kctEnd i 0 [BitVec.ofNat 32 w.length] (some (overlay o.buf 0 w))

def State.kctDerive (i : Fin 128) (o : KctOp) (s : State) : State :=
  match keyTemplate o.buf with
  | none => s.kctEnd i 0x0108 [] none
  | some (t, n) =>
    let e := s.entry (handleIndex o.handle)
    let label := slice o.buf 16 (o.arg.toNat % 128)
    s.makeKey i t (keyFrom t n ((List.range 32).map (Config.deriveByte e.cls.toNat e.key label))) none

/-- The entries of a DUKPT state: its head and its 32 registers. -/
def dukptRun (k : KIdx) : List KIdx := (List.range 33).map fun j => Fin.ofNat 32768 (k.val + j)

def State.kctDelete (i : Fin 128) (o : KctOp) (s : State) : State :=
  let k := handleIndex o.handle
  if !s.commits then s.kctEnd i 0x0501 [] none
  else
    let all := if (s.entry k).cls = 7 then dukptRun k else [k]
    let s := s.clearKey i o.handle
    (s.freeEntries i all).kctEnd i 0 [] none

/-- A value replaces a larger or absent one (RESTRICT). -/
def tighten {n : Nat} (old new : BitVec n) : BitVec n := if new ≠ 0 ∧ (old = 0 ∨ new < old) then new else old

def State.kctRestrict (i : Fin 128) (o : KctOp) (s : State) : State :=
  let k := handleIndex o.handle
  let e := s.entry k
  match readTemplate o.buf with
  | none => s.kctEnd i 0x0108 [] none
  | some t =>
    if !e.vol && !s.commits then s.kctEnd i 0x0501 [] none
    else
      let s := s.clearKey i o.handle
      let new := { e with usage := e.usage &&& t.usage, mincm := if e.mincm < t.mincm then t.mincm else e.mincm
                          expiry := tighten e.expiry t.expiry, limit := tighten e.limit t.limit, wcnt := if e.vol then e.wcnt else e.wcnt + 1 }
      (if e.vol then s.setEntry k new else s.writeEntry k new).kctEnd i 0 [] none

def State.kctInfo (i : Fin 128) (o : KctOp) (s : State) : State :=
  let e := s.entry (handleIndex o.handle)
  let v := if e.limit = 0 ∧ e.cls ≠ 6 then 0 else e.live.toNat
  s.kctEnd i 0 [] (some (overlay o.buf 0 (e.attr ++ leN 6 v)))

/-- The two words of a counter's VALUE. -/
def ctrOut (v : Nat) : List Word := [BitVec.ofNat 32 v, BitVec.ofNat 32 (v / 0x100000000)]

def State.kctCtrCreate (i : Fin 128) (o : KctOp) (s : State) : State :=
  let start := fld o.buf 0 6
  let ans := s.create i { cls := 6, alg := 0 } (leN 6 start ++ leN 6 (fld o.buf 8 6)) 0
  let s := ans.1
  match ans.2 with
  | .error st => s.kctEnd i st [] none
  | .ok h =>
    let k := handleIndex h
    (s.setEntry k { s.entry k with live := BitVec.ofNat 48 start }).kctEnd i 0 [h] none

def State.kctCtrIncr (i : Fin 128) (o : KctOp) (s : State) : State :=
  let k := handleIndex o.handle
  let e := s.entry k
  let v := e.live.toNat + o.arg.toNat % 65536
  if e.ctrMax < v then s.kctEnd i 0x0404 [] none
  else if v < e.ctrRsv then (s.setEntry k { e with live := BitVec.ofNat 48 v }).kctEnd i 0 (ctrOut v) none
  else if s.commits then
    (s.writeEntry k { e.setRsv (min (v + s.reserveStep i) e.ctrMax) with live := BitVec.ofNat 48 v, wcnt := e.wcnt + 1 }).kctEnd i 0 (ctrOut v) none
  else s.kctEnd i 0x0501 [] none

def State.kctCtrRead (i : Fin 128) (o : KctOp) (s : State) : State :=
  s.kctEnd i 0 (ctrOut (s.entry (handleIndex o.handle)).live.toNat) none

def State.kctDukptLoad (i : Fin 128) (o : KctOp) (s : State) : State :=
  let n := o.arg.toNat % 256
  match kwpOpen (s.entry (handleIndex o.handle)).key (o.buf.take n) with
  | none => s.kctEnd i 0x0407 [] none
  | some key =>
    let alg := if key.length = 16 then 1 else if key.length = 24 then 2 else 3
    if key.length ≠ 16 ∧ key.length ≠ 24 ∧ key.length ≠ 32 then s.kctEnd i 0x0408 [] none
    else match s.kctRoom i 33 false, s.kct.run33 with
      | some st, _ => s.kctEnd i st [] none
      | none, none => s.kctEnd i 0x0406 [] none
      | none, some a =>
        if !s.commits then s.kctEnd i 0x0501 [] none
        else
          let kcv := kcvOf 1 alg key
          let ikid := slice o.buf 64 8
          let k : KIdx := Fin.ofNat 32768 a
          let run := dukptRun k
          let s := s.updKct fun t => { t with fresh := max t.fresh (a + 33), freed := t.freed.filter fun j => decide (j < a ∨ a + 33 ≤ j) }
          let s := (run.zip (List.range 33)).foldl (fun s (j, r) =>
            let t : Template := if r = 0 then { cls := 7, alg, usage := 0x0040 } else { cls := 8, alg }
            let secret := if r = 0 then ikid ++ leN 4 dukptFirst else dukptLoaded key ikid (r - 1)
            s.setEntry j (Entry.make (s.entry j) (slotOwner i) t secret (if r = 0 then kcv else 0))) s
          ((s.commitEntries run).cacheNew i k).kctEnd i 0 [makeHandle k (s.entry k).gen, kcv.setWidth 32] none

/-- Class and ALG of a working key type of the standard (log 12). -/
def dukptType (n : Nat) : Option (Nat × Nat) :=
  match n with
  | 0 => some (2, 1) | 1 => some (2, 2) | 2 => some (1, 1) | 3 => some (1, 2) | 4 => some (1, 3)
  | _ => none

def State.kctDukptNext (i : Fin 128) (o : KctOp) (s : State) : State :=
  let k := handleIndex o.handle
  let usage := o.arg.toNat % 16
  let type := o.arg.toNat / 16 % 16
  match Config.dukptUsage usage, dukptType type with
  | some (usage, bits), some (cls, alg) =>
    let e := s.entry k
    let ikid := e.secret.take 8
    let regs := ((dukptRun k).drop 1).map fun j => (s.entry j).key
    match dukptUsable regs 33 (fld e.secret 8 4) with
    | none => s.kctEnd i 0x0404 [] none
    | some ctr => match dukptNext ctr with
    | none => s.kctEnd i 0x0404 [] none
    | some next =>
      if !s.commits then s.kctEnd i 0x0501 [] none
      else
        let key := dukptWorking ikid regs ctr usage type
        let s := s.setEntry k { e with secret := padTo 32 (ikid ++ leN 4 next), wcnt := e.wcnt + 1 }
        let new := (((dukptRun k).drop 1).zip (List.range 32)).map fun (j, r) => (j, padTo 32 (dukptAfter ikid regs ctr r))
        let changed := new.filter fun (j, b) => decide (b ≠ (s.entry j).secret)
        let s := changed.foldl (fun s (j, b) => s.setEntry j { s.entry j with secret := b, wcnt := (s.entry j).wcnt + 1 }) s
        let s := s.commitEntries (k :: changed.map (·.1))
        let ans := s.create i { cls, alg, vol := true, usage := bits, limit := 1 } key (kcvOf cls alg key)
        let s := ans.1
        match ans.2 with
        | .error st => s.kctEnd i st [] none
        | .ok h => s.kctEnd i 0 [h] (some (overlay o.buf 0 (ikid ++ beN 4 ctr)))
  | _, _ => s.kctEnd i 0x0108 [] none

/-- The effect of an operation, at its completion. -/
def State.kctEffect (i : Fin 128) (o : KctOp) (s : State) : State :=
  match o.op.toNat with
  | 0x01 => s.kctGenerate i o
  | 0x02 => s.kctUnwrap i o
  | 0x03 => s.kctWrap i o
  | 0x04 => s.kctDerive i o
  | 0x05 => s.kctDelete i o
  | 0x06 => s.kctRestrict i o
  | 0x07 => s.kctInfo i o
  | 0x08 => s.kctCtrCreate i o
  | 0x09 => s.kctCtrIncr i o
  | 0x0A => s.kctCtrRead i o
  | 0x0B => s.kctDukptLoad i o
  | 0x0C => s.kctDukptNext i o
  | _ => s.kctEnd i 0x0106 [] none

def execGenerate (slot : Fin 128) (s : State) : Res := .next <| s.kctIssue slot 0x01
def execUnwrap (slot : Fin 128) (s : State) : Res := .next <| s.kctIssue slot 0x02
def execWrap (slot : Fin 128) (s : State) : Res := .next <| s.kctIssue slot 0x03
def execDerive (slot : Fin 128) (s : State) : Res := .next <| s.kctIssue slot 0x04
def execDelete (slot : Fin 128) (s : State) : Res := .next <| s.kctIssue slot 0x05
def execRestrict (slot : Fin 128) (s : State) : Res := .next <| s.kctIssue slot 0x06
def execInfo (slot : Fin 128) (s : State) : Res := .next <| s.kctIssue slot 0x07
def execCtrCreate (slot : Fin 128) (s : State) : Res := .next <| s.kctIssue slot 0x08
def execCtrIncr (slot : Fin 128) (s : State) : Res := .next <| s.kctIssue slot 0x09
def execCtrRead (slot : Fin 128) (s : State) : Res := .next <| s.kctIssue slot 0x0A
def execDukptLoad (slot : Fin 128) (s : State) : Res := .next <| s.kctIssue slot 0x0B
def execDukptNext (slot : Fin 128) (s : State) : Res := .next <| s.kctIssue slot 0x0C

/-- The operation in progress completes; a slot without lines keeps no entry in the cache. -/
def execKctOpDone (slot : Fin 128) (s : State) : Res :=
  .next <|
    if s.live then
      match (s.kct.pages[slot]).cur with
      | none => s
      | some o => if o.waiting then s else (s.kctEffect slot o).evictTo (s.lines slot) slot
    else s

end Sys2Proof.Machine
end

