-- ==== Sys2Proof/Machine/Store.lean ====
section
/-! DEFINITION. The main store: records, granules, quotas, the store calls and the store's requests (R343 to
R375). -/

namespace Sys2Proof.Machine

abbrev State.updStore (s : State) (f : Store → Store) : State := { s with store := f s.store }

/-! ### Reading a record (R355 to R360) -/

/-- Bytes that a record of body length `len` occupies (R352). -/
def recSize (len : Nat) : Nat := 24 + 4 * ((len + 3) / 4) + 8

/-- The body length LEN as stored: a tenant's body carries its 16-byte tag, a tombstone none (R353, R358). -/
def Copy.len (c : Copy) (owner : Byte) : Nat := if c.del then 0 else if owner = 0xFE then c.body.length else c.body.length + 16

/-- What a read finds. -/
inductive Found where
  | absent | lost
  | copy (c : Copy)
  deriving DecidableEq, Repr

/-- The newer of two journal entries: by SEQ, then by address (R356). -/
def JEntry.newer (x y : JEntry) : JEntry :=
  if x.copy.seq < y.copy.seq ∨ (x.copy.seq = y.copy.seq ∧ (x.granule < y.granule ∨ (x.granule = y.granule ∧ x.off < y.off)))
  then y else x

/-- The newest valid version of a JOURNAL identity. -/
def Store.journalTop (t : Store) (id : RecId) : Option JEntry :=
  match t.journal.filter fun e => e.id == id && e.copy.commit && e.copy.crc with
  | [] => none
  | e :: r => some (r.foldl JEntry.newer e)

/-- A copy is valid in its slot: commit word, CRC and parity (R359). -/
def Copy.okIn (c : Copy) (slotB : Bool) : Bool := c.commit && c.crc && (c.seq.getLsbD 0 == slotB)

/-- The newest valid copy of a pair. -/
def DPair.top (p : DPair) : Option Copy :=
  match p.a.filter (·.okIn false), p.b.filter (·.okIn true) with
  | some a, some b => if a.seq < b.seq then some b else some a
  | some a, none => some a
  | none, some b => some b
  | none, none => none

/-- The pair of an identity. -/
def Store.pair? (t : Store) (id : RecId) : Option DPair := t.dual.find? (·.id == id)

/-- The read rule of R356 and R359. -/
def Store.find (t : Store) (id : RecId) : Found :=
  match t.pair? id with
  | some p => match p.top with
    | some c => if c.del then .absent else .copy c
    | none =>
      if (match p.a with | some c => c.commit | none => false) || (match p.b with | some c => c.commit | none => false) then .lost
      else .absent
  | none => match t.journalTop id with
    | some e => if e.copy.del then .absent else .copy e.copy
    | none => if t.journal.any fun e => e.id == id && e.copy.commit then .lost else .absent

/-- The main-store page of a byte of a granule. -/
def granulePage (g off : Nat) : Nat := 0x6000 + 16 * g + off / 256

/-- Size of a copy slot by the code of a DUAL granule (Table 15-6). -/
def zSize (k : Nat) : Nat := [64, 256, 1024, 2048].getD (k - 2) 2048
/-- The code of the smallest slot that holds `n` bytes. -/
def zCode (n : Nat) : Nat := if n ≤ 64 then 2 else if n ≤ 256 then 3 else if n ≤ 1024 then 4 else 5

/-- The page of an identity, for the log. -/
def Store.pageOf (t : Store) (id : RecId) : Nat :=
  match t.pair? id with
  | some p => granulePage p.granule (2 * zSize p.size * p.idx)
  | none => match t.journal.find? (·.id == id) with
    | some e => granulePage e.granule e.off
    | none => 0

/-- Copies of a pair that are rejected for their parity alone: slot and copy. -/
def DPair.misplaced (p : DPair) : List (Bool × Copy) :=
  (match p.a with | some c => if c.commit && c.crc && c.seq.getLsbD 0 then [(false, c)] else [] | none => []) ++
  (match p.b with | some c => if c.commit && c.crc && !c.seq.getLsbD 0 then [(true, c)] else [] | none => [])

/-- A copy rejected for its parity is reported once (R359). -/
def State.noteParity (id : RecId) (s : State) : State :=
  match s.store.pair? id with
  | none => s
  | some p => p.misplaced.foldl (fun s (b, c) =>
      if s.store.parityLogged.contains (id, c.seq) then s
      else
        let off := 2 * zSize p.size * p.idx + (if b then zSize p.size else 0)
        let page := granulePage p.granule off
        let s := s.updStore fun t => { t with parityLogged := (id, c.seq) :: t.parityLogged, parityRejects := t.parityRejects + 1 }
        (s.log 0x04 (id.cls.setWidth 8) (leN 2 page ++ [BitVec.ofNat 8 off, 0] ++ leN 6 c.seq.toNat)).devEvent 0x0F 0 0 page) s

/-- A lost identity is counted, and logged the first time (R360). -/
def State.noteLost (id : RecId) (s : State) : State :=
  let s := { s with hrb := { s.hrb with nvErr := s.hrb.nvErr.incHi } }
  let s := s.updStore fun t => { t with readsLost := if t.readsLost = 0xFFFFFFFF then t.readsLost else t.readsLost + 1 }
  if s.store.lostLogged.contains id then s
  else (s.updStore fun t => { t with lostLogged := id :: t.lostLogged }).log 0x03 (id.cls.setWidth 8)
    ([id.owner, 0] ++ leN 2 id.tag.toNat ++ leN 2 (s.store.pageOf id))

/-- A read that finds its identity lost, or a copy of wrong parity, says so. -/
def State.noteRead (id : RecId) (s : State) : State :=
  let s := s.noteParity id
  match s.store.find id with
  | .lost => s.noteLost id
  | _ => s

/-! ### Granules and use (R361, R362) -/

/-- Granules of an owner. -/
def Store.used (t : Store) (owner : Byte) : Nat := t.granules.countP (·.owner == owner)
/-- An owner's granules of a kind, by number. -/
def Store.granulesOf (t : Store) (owner : Byte) (kind : Nat) : List Nat :=
  (List.range 512).filter fun g => match t.granules[g]? with
    | some x => x.owner == owner && x.kind == kind
    | none => false
/-- The first free granule. The device's 64 are kept for it (R219): a slot takes one only where more are free than the device has
still to take. -/
def Store.freeGranule (owner : Byte) (t : Store) : Option Nat :=
  if owner = 0xFE ∨ 64 < t.used 0xFF + t.used 0xFE then t.granules.findIdx? fun x => x.owner == 0xFF else none
/-- A granule enters an owner's map, or leaves it. -/
def Store.assign (t : Store) (g : Nat) (owner : Byte) (kind : Nat) : Store := { t with granules := t.granules.set g { owner, kind } }

/-- Where the free space of a journal granule begins (R355). -/
def Store.tail (t : Store) (g : Nat) : Nat :=
  t.journal.foldl (fun m e => if e.granule = g then max m (e.off + recSize (e.copy.len e.id.owner)) else m) 0

/-- A journal granule of the owner, other than `not`, with room for `n` bytes: the one written last where it fits. -/
def Store.room (t : Store) (owner : Byte) (n : Nat) (not : Option Nat) : Option Nat :=
  let gs := (t.granulesOf owner 1).filter fun g => some g != not && decide (t.tail g + n ≤ 4096)
  let cur := (t.journal.filter fun e => e.id.owner == owner).foldl (fun (m : Option JEntry) e => some (match m with | none => e | some x => x.newer e)) none
  match cur with
  | some e => if gs.contains e.granule then some e.granule else gs.head?
  | none => gs.head?

/-- A free pair of a size in a granule of the owner other than `not`. -/
def Store.freePair (t : Store) (owner : Byte) (k : Nat) (not : Option Nat) : Option (Nat × Nat) :=
  let gs := (t.granulesOf owner k).filter fun g => some g != not
  (gs.flatMap fun g => (List.range (2048 / zSize k)).map fun i => (g, i)).find? fun (g, i) =>
    !t.dual.any fun p => p.granule == g && p.idx == i

/-- The next SEQ of an owner's JOURNAL identities (R356). -/
def Store.nextSeq (t : Store) (owner : Byte) : BitVec 48 := ((t.journalSeq.find? (·.1 == owner)).map (·.2)).getD 0

/-- A JOURNAL version appended to a granule under the owner's next SEQ. -/
def Store.append (t : Store) (g : Nat) (id : RecId) (c : Copy) : Store :=
  let q := t.nextSeq id.owner
  { t with journal := t.journal ++ [{ id, granule := g, off := t.tail g, copy := { c with seq := q } }]
           journalSeq := (id.owner, q + 1) :: t.journalSeq.filter (·.1 != id.owner) }

/-- A copy put into its slot of a pair by the parity of its SEQ (R358). -/
def DPair.put (p : DPair) (c : Copy) : DPair := if c.seq.getLsbD 0 then { p with b := some c } else { p with a := some c }

/-- The SEQ of the next copy of a pair (R358). -/
def DPair.nextSeq (p : DPair) : BitVec 48 := match p.top with | some c => c.seq + 1 | none => 0

/-- Live bytes of a granule (R362). -/
def Store.live (t : Store) (g : Nat) : List JEntry :=
  t.journal.filter fun e => e.granule == g && t.journalTop e.id == some e &&
    (!e.copy.del || t.journal.any fun x => x.id == e.id && x.granule != g)
/-- Live pairs of a granule: those whose newest copy is no tombstone, and lost ones. -/
def Store.livePairs (t : Store) (g : Nat) : List DPair :=
  t.dual.filter fun p => p.granule == g && (match p.top with | some c => !c.del | none => p.a.isSome || p.b.isSome)

/-- Bytes that the live records of a granule take. -/
def Store.liveBytes (t : Store) (g kind : Nat) : Nat :=
  if kind = 1 then ((t.live g).map fun e => recSize (e.copy.len e.id.owner)).sum
  else ((t.livePairs g).map fun p => match p.top with | some c => recSize (c.len p.id.owner) | none => 0).sum

/-- The live records of a journal granule copied into other granules. -/
def Store.moveJournal (g : Nat) : List JEntry → Store → Option Store
  | [], t => some t
  | e :: r, t => match t.room e.id.owner (recSize (e.copy.len e.id.owner)) (some g) with
    | none => none
    | some h => Store.moveJournal g r (t.append h e.id e.copy)

/-- The live pairs of a DUAL granule copied into free pairs of others, each newest copy under its pair's next SEQ. -/
def Store.movePairs (g : Nat) : List DPair → Store → Option Store
  | [], t => some t
  | p :: r, t => match t.freePair p.id.owner p.size (some g) with
    | none => none
    | some (h, i) =>
      let q : DPair := { p with granule := h, idx := i, a := none, b := none }
      let q := match p.top with | some c => q.put { c with seq := p.nextSeq } | none => { p with granule := h, idx := i }
      Store.movePairs g r { t with dual := q :: t.dual.filter (· != p) }

/-- One compaction: the granule of the kind with the fewest live bytes is emptied and freed (R362 step 3). -/
def Store.compact (t : Store) (owner : Byte) (kind : Nat) : Option Store :=
  let best := (t.granulesOf owner kind).foldl (fun (m : Option (Nat × Nat)) g =>
    let n := t.liveBytes g kind
    match m with
    | none => some (g, n)
    | some (h, k) => if n < k then some (g, n) else some (h, k)) none
  match best with
  | none => none
  | some (g, _) =>
    let moved := if kind = 1 then Store.moveJournal g (t.live g) t else Store.movePairs g (t.livePairs g) t
    moved.map fun t =>
      ({ t with journal := t.journal.filter (·.granule != g), dual := t.dual.filter (·.granule != g) }).assign g 0xFF 0

/-- A granule for the owner: within the quota, else after compactions (R362); none where the copies do not fit. -/
def Store.newGranule (quota : Nat) (owner : Byte) (kind : Nat) : Nat → Store → Option (Store × Nat)
  | 0, _ => none
  | n + 1, t =>
    match (if t.used owner < quota then t.freeGranule owner else none) with
    | some g => some (t.assign g owner kind, g)
    | none => match t.compact owner kind with
      | none => none
      | some u => Store.newGranule quota owner kind n u

/-! ### Writing a record -/

/-- A version written, tombstone or body: the new store and its SEQ, or a status. `ok` is its read-back (R345): a
write that does not compare equal takes its place without a commit word. -/
def Store.write (quota : Nat) (dualNew : Bool) (id : RecId) (c : Copy) (ok : Bool) (t : Store) : Except (BitVec 16) (Store × BitVec 48) :=
  let n := recSize (c.len id.owner)
  let c := { c with commit := ok }
  let fresh (t : Store) (q : BitVec 48) : Except (BitVec 16) (Store × BitVec 48) :=
    let k := zCode n
    let add (t : Store) (g i : Nat) : Store :=
      let p : DPair := { id, granule := g, idx := i, size := k }
      { t with dual := p.put { c with seq := q } :: t.dual }
    match t.freePair id.owner k none with
    | some (g, i) => .ok (add t g i, q)
    | none => match Store.newGranule quota id.owner k 513 t with
      | some (t, g) => .ok (add t g 0, q)
      | none => .error 0x0505
  match t.pair? id with
  | some p =>
    if n ≤ zSize p.size then
      let q := p.nextSeq
      .ok ({ t with dual := p.put { c with seq := q } :: t.dual.filter (· != p) }, q)
    else match p.top with
      | some x => if x.del then fresh { t with dual := t.dual.filter (· != p) } p.nextSeq else .error 0x0506
      | none => .error 0x0506
  | none =>
    if dualNew ∧ !t.journal.any (·.id == id) then fresh t 0
    else
      let q := t.nextSeq id.owner
      match t.room id.owner n none with
      | some g => .ok (t.append g id c, q)
      | none => match Store.newGranule quota id.owner 1 513 t with
        | some (t, g) => .ok (t.append g id c, t.nextSeq id.owner)
        | none => .error 0x0505

/-- The class of a tenant's records is SECRET (Table 15-5). -/
def secretClass (c : BitVec 5) : Bool := decide (c < 8) || c == 16

/-- The nonce counter moves on by one encrypted write, with its reservation ahead (R353, R365). -/
def Store.takeNonce (t : Store) : Store :=
  let v := t.nctr + 1
  { t with nctr := v, nctrRes := if t.nctrRes ≤ v then v + 65536 else t.nctrRes }

/-- A slot's record identity. -/
def slotRec (i : Fin 128) (cls : BitVec 5) (tag : BitVec 16) : RecId := ⟨BitVec.ofNat 8 i.val, cls, tag⟩

/-- The scheme of a class for new identities is DUAL (R354). -/
def State.dualClass (c : BitVec 5) (s : State) : Bool := if c < 16 then s.param (0x0510 + c.toNat) == 1 else false

/-- A slot's record written or deleted. -/
def State.writeRec (i : Fin 128) (id : RecId) (del : Bool) (body : Bytes) (ok : Bool) (s : State) : State × BitVec 16 × BitVec 48 :=
  let t := if del then s.store else s.store.takeNonce
  let c : Copy := { secret := secretClass id.cls, del, nctr := if del then 0 else t.nctr, body := if del then [] else body }
  if del ∧ t.find id = .absent then (s, 0x0503, 0)
  else match Store.write (s.tenants.slots[i]).run.store (s.dualClass id.cls) id c ok t with
    | .error st => (if st = 0x0506 then { s with hrb := { s.hrb with nvErr := s.hrb.nvErr.incLo } } else s, st, 0)
    | .ok (u, q) =>
      let s := { s with store := u }
      if ok then (s, 0, q)
      else (s.log 0x0A (id.cls.setWidth 8) ([id.owner, 0] ++ leN 2 id.tag.toNat ++ leN 2 (u.pageOf id)), 0x0501, 0)

/-! ### Calls of a tenant (R363, R364) -/

/-- The identity in a0 (R363). -/
def recArg (i : Fin 128) (a0 : Word) : Option RecId :=
  if a0.toNat < 0x100000 then some (slotRec i ((a0 >>> 16).setWidth 5) (a0.setWidth 16)) else none

/-- A write joins the controller's queue, and the slot waits. -/
def State.enqueue (w : PendingWrite) (s : State) : State :=
  ((s.updStore fun t => { t with queue := t.queue ++ [w] }).updSlot w.slot fun k => { k with inCall := true }).leaveCore w.slot

/-- An identity is or will be a DUAL record. -/
def State.isDual (id : RecId) (s : State) : Bool :=
  (s.store.pair? id).isSome || (s.dualClass id.cls && !s.store.journal.any (·.id == id))

def execRecPut (slot : Fin 128) (a0 a1 a2 : Word) (s : State) : Res :=
  .next <|
    if s.calls slot then
      let s := s.callTaken slot
      match recArg slot a0 with
      | none => s.ret slot 0x0108 []
      | some id =>
        if (if s.isDual id then 2000 else 2048) < a2.toNat then s.ret slot 0x0108 []
        else if (s.badByte slot a1.toNat a2.toNat false).isSome then (s.split slot).ret slot 0x0308 []
        else if !s.store.cellOk then s.ret slot 0x0501 []
        else s.enqueue { id, body := s.dmaRead slot a1.toNat a2.toNat, slot }
    else s

/-- A secret record cannot be read while the BBK is not VALID (R360, R461). -/
def State.recLocked (id : RecId) (s : State) : Bool := secretClass id.cls && (s.guard.tampered || s.guard.bbk != .valid)

def execRecGet (slot : Fin 128) (a0 a1 a2 : Word) (s : State) : Res :=
  .next <|
    if s.calls slot then
      let s := s.callTaken slot
      match recArg slot a0 with
      | none => s.ret slot 0x0108 []
      | some id =>
        if (s.badByte slot a1.toNat a2.toNat true).isSome then (s.split slot).ret slot 0x0308 []
        else if !s.store.cellOk then s.ret slot 0x0501 []
        else if s.recLocked id then s.ret slot 0x0703 []
        else
          let s := s.noteParity id
          match s.store.find id with
          | .absent => s.ret slot 0x0503 []
          | .lost => (s.noteLost id).ret slot 0x0504 []
          | .copy c =>
            if a2.toNat < c.body.length then s.ret slot 0x0506 [BitVec.ofNat 32 c.body.length]
            else (s.dmaWrite slot a1.toNat c.body).ret slot 0 [BitVec.ofNat 32 c.body.length]
    else s

def execRecDel (slot : Fin 128) (a0 : Word) (s : State) : Res :=
  .next <|
    if s.calls slot then
      let s := s.callTaken slot
      match recArg slot a0 with
      | none => s.ret slot 0x0108 []
      | some id =>
        if !s.store.cellOk then s.ret slot 0x0501 []
        else s.enqueue { id, del := true, slot }
    else s

/-- The controller finishes the write it has in hand, `ok` by its read-back, and starts the next. -/
def execStoreCommitDone (ok : Bool) (s : State) : Res :=
  .next <|
    if s.live then
      let s := s.updStore fun t => { t with writeOk := ok }
      match s.store.queue with
      | [] => s
      | w :: rest =>
        let put := (s.updStore fun t => { t with queue := rest }).writeRec w.slot w.id w.del w.body ok
        let st := put.2.1
        let q := put.2.2
        let s := (put.1.updSlot w.slot fun k => { k with inCall := false }).joinRun w.slot
        s.ret w.slot st (if st = 0 ∧ !w.del then [q.setWidth 32] else [])
    else s

/-- Identities of an owner. -/
def Store.ids (t : Store) (owner : Byte) : List RecId :=
  (((t.journal.map (·.id)) ++ (t.dual.map (·.id))).filter (·.owner == owner)).eraseDups

/-- Identities that an owner holds: those with a live newest version. -/
def Store.held (t : Store) (owner : Byte) : List (RecId × Copy) :=
  (t.ids owner).filterMap fun id => match t.find id with | .copy c => some (id, c) | _ => none

/-- Live bytes of an owner. -/
def Store.ownerLive (t : Store) (owner : Byte) : Nat := ((t.held owner).map fun (_, c) => recSize (c.len owner)).sum

def execStoreUse (slot : Fin 128) (s : State) : Res :=
  .next <|
    if s.calls slot then
      let o := BitVec.ofNat 8 slot.val
      (s.callTaken slot).ret slot 0 [BitVec.ofNat 32 (s.store.used o * 65536 + (s.tenants.slots[slot]).run.store), BitVec.ofNat 32 (s.store.ownerLive o)]
    else s

/-- The place of a slot's SAVE_ON_FAIL value (R366). -/
def valIndex (slot : Fin 128) (k : Fin 24) : Fin 4096 := ⟨1024 + 24 * slot.val + k.val, by omega⟩

/-- A 64-bit value in a1 and a2. -/
def twoWords (v : BitVec 64) : List Word := [v.setWidth 32, (v >>> 32).setWidth 32]

def execValAdd (slot : Fin 128) (a0 a1 : Word) (s : State) : Res :=
  .next <|
    if s.calls slot then
      let s := s.callTaken slot
      if h : a0.toNat < 24 then
        let k := valIndex slot ⟨a0.toNat, h⟩
        let v := s.store.vals[k] + a1.setWidth 64
        (s.updStore fun t => { t with vals := t.vals.set k v }).ret slot 0 (twoWords v)
      else s.ret slot 0x0108 []
    else s

def execValGet (slot : Fin 128) (a0 : Word) (s : State) : Res :=
  .next <|
    if s.calls slot then
      let s := s.callTaken slot
      if h : a0.toNat < 24 then s.ret slot 0 (twoWords s.store.vals[valIndex slot ⟨a0.toNat, h⟩])
      else s.ret slot 0x0108 []
    else s

/-! ### Refresh and requests (R372, R375) -/

/-- One page rewritten in place; its contents stay. -/
def execStoreRefresh (s : State) : Res :=
  .next <| if s.live then s.updStore fun t => { t with refreshPage := t.refreshPage + 1 } else s

/-- Granules that images take in the pool. -/
def Slot.imageGranules (k : Slot) : Nat :=
  (match k.image with | none => 0 | some b => (b.length + 4095) / 4096) + (match k.staged with | none => 0 | some g => (g.size + 4095) / 4096)
/-- Free granules of the image pool (R221). -/
def State.poolFree (s : State) : Nat := 2048 - (s.tenants.slots.toList.map Slot.imageGranules).sum

/-- The 64 bytes of an event log entry (Table 15-11). -/
def LogEntry.bytes (e : LogEntry) : Bytes :=
  let b := leN 6 e.seq.toNat ++ [e.code, e.sub] ++ leN 6 e.rtc.toNat ++ leN 2 e.boot.toNat ++ padTo 40 e.data
  b ++ leN 4 (crc32c b).toNat ++ [0x3C, 0x5A, 0xA5, 0xC3]

/-- SEQ of the oldest and of the newest entry held. -/
def Store.logEnds (t : Store) : BitVec 48 × BitVec 48 :=
  (match t.log with | [] => 0 | e :: _ => e.seq, match t.log.getLast? with | none => 0 | some e => e.seq)

def execStoreStatus (r : Req) (s : State) : Res :=
  .next <|
    let sel := fld r.body 0 1
    let ix := fld r.body 2 2
    let fits := r.body.length = 4 ∧ byteAt r.body 1 = 0 ∧ (if sel = 0 then ix = 0 else if sel = 1 then ix < 128 else sel = 2 ∧ ix < 512)
    s.request 0x0501 r fits fun s =>
      let t := s.store
      if sel = 0 then
        let assigned := t.granules.countP (·.owner != 0xFF)
        let (lo, hi) := t.logEnds
        let bits := b2n (!s.power.nvWpN) + 2 * b2n t.ptableAwait + 4 * b2n s.tag.rowsAwait
        s.respond r 0x0501 0 ([0, BitVec.ofNat 8 s.recallBits] ++ leN 2 (512 - assigned - (64 - t.used 0xFE)) ++ leN 2 s.poolFree ++ [0, 0] ++
          leN 6 hi.toNat ++ leN 6 lo.toNat ++ leN 4 t.readsLost.toNat ++ leN 4 t.parityRejects.toNat ++ [BitVec.ofNat 8 bits, 0, 0, 0])
      else if h : sel = 1 ∧ ix < 128 then
        let o := BitVec.ofNat 8 ix
        s.respond r 0x0501 0 ([1, 0] ++ leN 2 ix ++ leN 2 ((s.tenants.slots[ix]'h.2).run.store) ++ leN 2 (t.used o) ++ leN 4 (t.ownerLive o) ++
          leN 4 (t.held o).length)
      else
        let v (k : Nat) : Nat := (t.vals.toList.getD k 0).toNat
        s.respond r 0x0501 0 ([2, 0] ++ leN 2 ix ++ leN 8 (v (2 * ix)) ++ leN 8 (v (2 * ix + 1)))

def execLogRead (r : Req) (s : State) : Res :=
  .next <|
    let n := fld r.body 6 1
    s.request 0x0502 r (r.body.length = 8 ∧ 1 ≤ n ∧ n ≤ 63 ∧ byteAt r.body 7 = 0) fun s =>
      let (lo, hi) := s.store.logEnds
      let es := (s.store.log.filter fun e => fld r.body 0 6 ≤ e.seq.toNat).take n
      s.respond r 0x0502 0 (leN 6 lo.toNat ++ leN 6 hi.toNat ++ [BitVec.ofNat 8 es.length, 0, 0, 0] ++ es.flatMap LogEntry.bytes)

end Sys2Proof.Machine
end

