-- ==== Sys2Proof/Machine/Tenants.lean ====
section
/-! DEFINITION. Slot requests, images and mailboxes (R213 to R240, R252 to R254). -/

namespace Sys2Proof.Machine

/-- The slot that a request names. -/
def Req.slot (r : Req) : Fin 128 := ⟨r.index.toNat % 128, Nat.mod_lt _ (by decide)⟩

/-- The slot takes no request: it is being removed (R232). -/
def State.slotRequest (op : BitVec 16) (r : Req) (fits : Bool) (k : Fin 128 → State → State) (s : State) : State :=
  s.request op r fits fun s => if (s.tenants.slots[r.slot]).removing then s.respond r op 0x030A [] else k r.slot s

/-- A slot that is exported (R490). -/
def State.exported (i : Fin 128) (s : State) : Bool := (s.bqt.exports[i]).isSome

/-- The state of a slot is one of those named. -/
def Slot.among (k : Slot) (l : List SlotState) : Bool := l.contains k.state

/-! ### Assignment and status (R213, R240) -/

def execSlotAssign (r : Req) (s : State) : Res :=
  .next <|
    let i : Fin 128 := Fin.ofNat 128 (fld r.body 0 1)
    let id := BitVec.ofNat 64 (fld r.body 4 8)
    let twice := (List.finRange 128).any fun j => j != i && !(s.tenants.slots[j]).among [.free, .retired] && (s.tenants.slots[j]).tenantId == id
    let fits := r.body.length = 44 ∧ fld r.body 0 1 < 128 ∧ fld r.body 1 1 ≤ 3 ∧ fld r.body 2 1 ≤ 1 ∧ byteAt r.body 3 = 0 ∧ id ≠ 0 ∧ !twice
    s.request 0x0302 r fits fun s =>
      if !(s.tenants.slots[i]).among [.free, .retired] then s.respond r 0x0302 0x030A []
      else if !s.commits then s.respond r 0x0302 0x0501 []
      else
        let s₀ := s
        let s := (s.updSlot i fun _ => { state := .assigned, tenantId := id, authHash := slice r.body 12 32, role := byteAt r.body 1
                                         importing := byteAt r.body 2 == 1 }).bumpSlot i
        let s := { s with bqt := { s.bqt with exports := s.bqt.exports.set i none, imports := s.bqt.imports.set i none, imported := s.bqt.imported.set i none } }
        let s := s.slotEvent i
        s₀.respondFirst r 0x0302 0 ([BitVec.ofNat 8 i.val, 1] ++ leN 2 (s.store.slotEpoch[i]).toNat) s

def execSlotStatus (r : Req) (s : State) : Res :=
  .next <| s.request 0x0301 r (r.body.length = 4 ∧ fld r.body 0 1 < 128 ∧ allZero (r.body.drop 1)) fun s =>
    let i : Fin 128 := Fin.ofNat 128 (fld r.body 0 1)
    let k := s.tenants.slots[i]
    let id := match k.retired with | some x => x.tenant | none => k.tenantId
    s.respond r 0x0301 0 ([BitVec.ofNat 8 i.val, BitVec.ofNat 8 k.state.code] ++ leN 2 (s.store.slotEpoch[i]).toNat ++ [k.role, 0, 0, 0] ++ leN 8 id.toNat)

/-! ### Applying a stage (R222 to R226) -/

/-- Ranges and device totals of Table 09-5: value, per-slot range, total where there is one. -/
def resourceRules : List ((Resources → Nat) × Nat × Option Nat) :=
  [(Resources.weight, 64, none), (Resources.sram, 32, some 128), (Resources.store, 512, some 448), (Resources.kct, 8192, some 32256),
   (Resources.cipher, 32, some 240), (Resources.drbg, 3, some 16), (Resources.pke, 100, some 100), (Resources.class0, 32, none)]

/-- The sum of a resource with the stage of slot `i` and the running values of the others. -/
def State.total (i : Fin 128) (f : Resources → Nat) (s : State) : Nat :=
  ((List.finRange 128).map fun j => if j = i then f (s.tenants.slots[j]).stage else f (s.tenants.slots[j]).run).sum

/-- Step 3 of Table 09-6. -/
def State.totalsHold (i : Fin 128) (s : State) : Bool :=
  resourceRules.all fun (f, top, all) =>
    decide (f (s.tenants.slots[i]).stage ≤ top) && (match all with | none => true | some n => decide (s.total i f ≤ n))

/-- Step 4: the role limits (Table 09-2). -/
def Slot.roleHolds (k : Slot) : Bool :=
  let top := if k.role = 0 ∨ k.role = 1 then 32 else if k.role = 2 then 4 else 0
  decide (k.stage.class0 ≤ top) && (k.role != 3 || k.stage.ports.toList.all (· == 0))

/-- Step 5: a staged port belongs to another slot. -/
def State.portConflict (i : Fin 128) (s : State) : Bool :=
  (List.finRange 512).any fun p => (s.tenants.slots[i]).stage.hasPort p &&
    (match (s.sprig.ports[p]).owner with | some j => j != i | none => false)

/-- Cipher pages of a slot in use. -/
def State.pagesUsed (i : Fin 128) (s : State) : Nat := (s.cipher.pages[i]).toList.countP CipherPage.inUse
/-- Extra DRBG instances of a slot that are instantiated. -/
def State.extraUsed (i : Fin 128) (s : State) : Nat := (s.mint.extra[i]).countP fun n => (s.mint.insts[n]).inst

/-- Step 6: a quota falls below its use. -/
def State.belowUse (i : Fin 128) (s : State) : Bool :=
  let t := (s.tenants.slots[i]).stage
  decide (t.store < s.store.used (slotOwner i)) || decide (t.kct < s.kctUsed i) || decide (t.cipher < s.pagesUsed i) || decide (t.drbg < s.extraUsed i)

/-- Step 7: the SRAM grant holds the image's need and every region of the slot. -/
def Slot.grantHolds (k : Slot) : Bool :=
  (k.image.isNone || decide (k.sramNeed ≤ k.stage.sram)) &&
  k.regions.toList.all fun g => match g with | none => true | some g => decide (g.last.toNat < 0x10000000 + 0x10000 * k.stage.sram)

/-- A port carries an exchange (R224). -/
def Port.carries (p : Port) : Bool := p.state == .active && (p.page.busy || (p.ctx.phase != .idle && p.ctx.phase != .polling))

/-- Ports that leave a slot under new resources, and those that join it. -/
def State.leaving (i : Fin 128) (t : Resources) (s : State) : List (Fin 512) := (s.portsOf i).filter fun p => !t.hasPort p
/-- Ports gained. -/
def State.joining (i : Fin 128) (t : Resources) (s : State) : List (Fin 512) :=
  (List.finRange 512).filter fun p => t.hasPort p && !(s.sprig.ports[p]).ownedBy i

/-- Step 8: a port that leaves carries an exchange. -/
def State.portBusy (i : Fin 128) (t : Resources) (s : State) : Bool := (s.leaving i t).any fun p => (s.sprig.ports[p]).carries

/-- The checks of SLOT_APPLY (Table 09-6). -/
def State.applyCheck (i : Fin 128) (force : Bool) (s : State) : Option (BitVec 16) :=
  let k := s.tenants.slots[i]
  if !k.among [.assigned, .running, .quiesced] || k.apply.isSome || s.exported i then some 0x030A
  else if k.stage = k.run then some 0x030B
  else if !s.totalsHold i then some 0x0301
  else if !k.roleHolds then some 0x0301
  else if s.portConflict i then some 0x0302
  else if s.belowUse i ∧ !force then some 0x0303
  else if !k.grantHolds then some 0x0304
  else if s.portBusy i k.stage ∧ !force then some 0x0306
  else none

def execSlotApply (r : Req) (s : State) : Res :=
  .next <| s.slotRequest 0x0303 r (r.body.length = 4 ∧ fld r.body 0 4 ≤ 1) fun i s =>
    let force := byteAt r.body 0 == 1
    match s.applyCheck i force with
    | some st => s.respond r 0x0303 st []
    | none =>
      if s.commits then (s.updSlot i fun k => { k with apply := some { force, target := k.stage } }).wait (.apply i) r 0x0303
      else s.respond r 0x0303 0x0501 []

/-- Two ranges share a byte. -/
def overlap (a n b m : Nat) : Bool := decide (0 < n) && decide (0 < m) && decide (a < b + m) && decide (b < a + n)

/-- Jobs of a slot whose ranges lose the area from `a` on are ended (R266). -/
def State.abortRange (i : Fin 128) (a n : Nat) (s : State) : State :=
  let was := s
  let hitC (p : CipherPage) : Bool := match p.job with
    | some j => overlap j.src.toNat j.len a n || overlap j.dst.toNat j.len a n || overlap j.aad.toNat j.aadlen a n
    | none => false
  let s := s.cutPages i hitC
  let p := s.pke.pages[i]
  let s := if p.busy && (overlap p.src.toNat p.srclen.toNat a n || overlap p.dst.toNat p.dstlen.toNat a n) then s.stopPke i else s
  let s := if p.hbusy && overlap p.hsrc.toNat p.hlen.toNat a n then s.updPk i (JobPage.abortHash false) else s
  State.ended i was (s.endPages i 0x0409 fun q => overlap q.dst.toNat q.len.toNat a n && !q.cmd.getLsbD 12)

/-- The address of a port page. -/
def portAddr (p : Fin 512) : Nat := 0x42000000 + 0x1000 * p.val

/-- Extra DRBG instances follow their count: those above it are withdrawn, new ones take the lowest free numbers. -/
def State.setExtra (i : Fin 128) (n : Nat) (s : State) : State :=
  let have_ := s.mint.extra[i]
  let was := s
  if n < have_.length then
    let gone := have_.drop n
    let s := { s with mint := { s.mint with extra := s.mint.extra.set i (have_.take n)
                                            insts := gone.foldl (fun (v : Vector Drbg 160) (g : Fin 160) => v.set g {}) s.mint.insts } }
    State.ended i was ((List.finRange 4).foldl (fun s d => if n < d.val then s.endPage i d 0x0603 else s) s)
  else
    let taken := s.mint.extra.toList.flatten
    let free := ((List.finRange 160).filter fun g => decide (128 ≤ g.val ∧ g.val < 144)).filter fun g => !taken.contains g
    { s with mint := { s.mint with extra := s.mint.extra.set i (have_ ++ free.take (n - have_.length)) } }

/-- Cipher pages that no longer map are cleared; those in use are held (R293). -/
def State.trimCipher (i : Fin 128) (s : State) : State :=
  let n := (s.tenants.slots[i]).run.cipher
  let v := s.cipher.pages[i]
  let above := (List.finRange 32).filter fun p => decide (n ≤ p.val) && (v[p]).inUse
  let pages := s.cipher.pages.set i (v.mapFinIdx fun k p _ => if n ≤ k ∧ !p.inUse then {} else p)
  { s with cipher := { s.cipher with pages, held := s.cipher.held.filter (·.slot != i) ++ above.map fun p => ⟨i, p⟩ } }

/-- An apply takes effect (R225, R226, Table 09-7): a slot on a core is charged at its old weight up to here (R243), and its MPU maps
the new grant. -/
def State.applyNow (i : Fin 128) (t : Resources) (s : State) : State :=
  let k := s.tenants.slots[i]
  let lost := s.leaving i t
  let got := s.joining i t
  let busy := lost.filter fun p => (s.sprig.ports[p]).carries
  let top := 0x10000 * t.sram
  let s := lost.foldl (fun s p => s.abortRange i (portAddr p) 0x1000) s
  let s := if t.sram < k.run.sram then s.abortRange i (0x10000000 + top) (0x10000 * (k.run.sram - t.sram)) else s
  let changed := t.eight ≠ k.run.eight
  let s := if t.weight ≠ k.run.weight then s.account i else s
  let s := s.updSlot i fun k => { k with run := t, apply := none, sram := k.sram.filter fun c => decide (c.1 < top) }
  let s := ((s.setExtra i t.drbg).evictTo (t.kct / 8) i).trimCipher i
  let s := lost.foldl (fun s p => s.movePort p none (busy.contains p)) s
  let s := (got.foldl (fun s p => s.movePort p (some i) false) s).reloadMpu i
  if changed then s.updSlot i fun k => k.notify ⟨0x03, t.eight.flatMap (leN 4)⟩ else s

/-- The boundary of an apply: step 8 is made again from the port states of the frame that ends, then every staged value runs. The
ports' transitions follow in FRAME_BOUNDARY (log 69). -/
def execApplyBoundary (slot : Fin 128) (s : State) : Res :=
  .next <|
    if s.live then
      match (s.tenants.slots[slot]).apply with
      | none => s
      | some a =>
        if s.portBusy slot a.target ∧ !a.force then
          (s.updSlot slot fun k => { k with apply := none }).answer (.apply slot) 0x0306 []
        else
          let lost := s.leaving slot a.target
          let got := s.joining slot a.target
          let n := (lost.map fun p => (s.sprig.ports[p]).unread).sum
          let b := leN 3 s.boundary24.toNat ++ [0] ++ leN 2 got.length ++ leN 2 lost.length ++ leN 4 n
          (s.applyNow slot a.target).answer (.apply slot) 0 b
    else s

def execSlotDiscardStage (r : Req) (s : State) : Res :=
  .next <| s.slotRequest 0x0304 r (r.body = []) fun i s =>
    if !(s.tenants.slots[i]).among [.assigned, .running, .quiesced] then s.respond r 0x0304 0x030A []
    else if !s.commits then s.respond r 0x0304 0x0501 []
    else (s.updSlot i fun k => { k with stage := k.run }).respond r 0x0304 0 []

/-! ### The page of a moved port (Table 03-16) -/

/-- PORTS_CHANGED for a slot, once every port that moves to or from it has its page. -/
def State.portsChanged (i : Fin 128) (f : BitVec 24) (s : State) : State :=
  let open_ := s.sprig.ports.toList.any fun p => match p.moved with
    | some m => m.old == some i || p.owner == some i
    | none => false
  if open_ ∨ (s.tenants.slots[i]).among [.free, .retired] then s
  else s.updSlot i fun k => k.notify ⟨0x01, k.run.portBytes ++ leN 3 f.toNat⟩

/-- The boundary of B + 1: the page maps, the discarded events are reported, the owners are told. -/
def execPageMapNewOwner (port : Fin 512) (s : State) : Res :=
  .next <|
    if s.live then
      match (s.sprig.ports[port]).moved with
      | none => s
      | some m =>
        let s := s.updPort port fun x => { x with moved := none }
        let owner := (s.sprig.ports[port]).owner
        let sub : Byte := match owner with | some j => slotOwner j | none => 0xFF
        let s := s.devEvent 0x07 sub port.val (m.discarded + (s.store.portEpoch[port]).toNat * 0x100000000)
        let s := match m.old with
          | some j =>
            let s := if m.forced ∧ !(s.tenants.slots[j]).among [.free, .retired] then
              s.updSlot j fun k => k.notify ⟨0x02, leN 2 port.val ++ leN 2 m.epoch.toNat ++ leN 3 m.frame.toNat⟩ else s
            s.portsChanged j m.frame
          | none => s
        match owner with
        | some j => s.portsChanged j m.frame
        | none => s
    else s

/-! ### Quiescing (R228) -/

def execSlotQuiesce (r : Req) (s : State) : Res :=
  .next <| s.slotRequest 0x0305 r (r.body = []) fun i s =>
    if (s.tenants.slots[i]).state = .running then (s.beginQuiesce i).wait (.quiesce i) r 0x0305
    else s.respond r 0x0305 0x030A []

/-- Work in flight is finished and the ports have left ACTIVE: the slot is QUIESCED. -/
def execQuiesceComplete (slot : Fin 128) (us : Word) (s : State) : Res :=
  .next <|
    if s.live && (s.tenants.slots[slot]).state == .quiescing && !s.slotBusy slot && s.activePorts slot == 0 then s.endQuiesce slot us
    else s

/-- 15 ms after the request, jobs that still run are aborted. -/
def execQuiesceJobTimeout (slot : Fin 128) (s : State) : Res :=
  .next <|
    if s.live && (s.tenants.slots[slot]).state == .quiescing then
      let late := match (s.pke.pages[slot]).job with | some j => j.ending.isSome | none => false
      let n := s.engineJobs slot - b2n late
      (s.abortEngines slot true).updSlot slot fun k => { k with quiesce := k.quiesce.map fun q => { q with jobs := q.jobs + n } }
    else s

/-! ### Starting and reset (R227, R231) -/

/-- The checks of SLOT_START, in order. -/
def State.startCheck (i : Fin 128) (s : State) : Option (BitVec 16) :=
  let k := s.tenants.slots[i]
  let unsent := match s.bqt.imported[i] with | some m => !m.begun | none => false
  if !k.among [.assigned, .quiesced] || k.importing || s.exported i || unsent then some 0x030A
  else if s.guard.tampered then some 0x0703
  else if k.image.isSome && !k.imageOk then some 0x0504
  else if k.image.isNone || k.run.weight == 0 || decide (k.run.sram < k.sramNeed) then some 0x0301
  else none

def execSlotStart (r : Req) (s : State) : Res :=
  .next <| s.slotRequest 0x0306 r (r.body = []) fun i s =>
    match s.startCheck i with
    | some st => s.respond r 0x0306 st []
    | none =>
      let cold := (s.tenants.slots[i]).cold || (s.tenants.slots[i]).state == .assigned
      let t := if cold then s.coldStart i else s.resume i
      s.respondFirst r 0x0306 0 [if cold then 0 else 1, 0, 0, 0] (t.tellSlot 2 i)

/-- A slot's DRBG instance is uninstantiated. -/
def State.dropInstance (n : Fin 160) (s : State) : State := { s with mint := { s.mint with insts := s.mint.insts.set n {} } }

/-- The number of a slot's fixed instance (Table 14-3). -/
def fixedInst (i : Fin 128) : Fin 160 := Fin.castLE (by decide) i

/-- What a reset does to a slot (Table 09-8). -/
def State.resetSlot (i : Fin 128) (s : State) : State :=
  let s := ((s.clearPages i).dropVolatile i).dropInstance (fixedInst i)
  let s := (s.renewPorts i).bumpSlot i
  (s.updSlot i fun k => { k.wipe with state := .assigned, restart := false }).evC 4

def execSlotReset (r : Req) (s : State) : Res :=
  .next <| s.slotRequest 0x0307 r (r.body = []) fun i s =>
    let k := s.tenants.slots[i]
    if k.among [.running, .quiescing] then s.respond r 0x0307 0x0305 []
    else if s.exported i then s.respond r 0x0307 0x030A []
    else if !s.commits then s.respond r 0x0307 0x0501 []
    else s.respondFirst r 0x0307 0 [] ((s.resetSlot i).tellSlot 1 i)

/-! ### Removal (R232) -/

/-- The records of a slot are destroyed and its granules freed; its statistics are zeroed. -/
def Store.dropOwner (i : Fin 128) (t : Store) : Store :=
  let o := slotOwner i
  { t with journal := t.journal.filter (·.id.owner != o), dual := t.dual.filter (·.id.owner != o)
           granules := t.granules.map fun g => if g.owner = o then {} else g
           vals := (List.finRange 24).foldl (fun v k => v.set (valIndex i k) 0) t.vals }

/-- Everything that removal and retirement destroy (Table 09-8). -/
def State.destroySlot (i : Fin 128) (s : State) : State :=
  let s := ((s.clearPages i).freeAll i).dropInstance (fixedInst i)
  let s := (s.setExtra i 0).updStore (Store.dropOwner i)
  let s := (s.freePorts i).bumpSlot i
  { s with bqt := { s.bqt with exports := s.bqt.exports.set i none, imports := s.bqt.imports.set i none, imported := s.bqt.imported.set i none } }

/-- Destruction has been committed. -/
def execSlotRemoveDone (slot : Fin 128) (s : State) : Res :=
  .next <|
    if s.live && (s.tenants.slots[slot]).removing then
      let entries := s.kctUsed slot
      let granules := s.store.used (slotOwner slot)
      let s := ((s.destroySlot slot).updSlot slot fun _ => {}).evC 4
      (s.answer (.remove slot) 0 (leN 4 entries ++ leN 4 granules)).tellSlot 0 slot
    else s

/-! ### Images (R234, R235) -/

/-- The size that an image header gives. -/
def imageSize (b : Bytes) : Nat := 256 + fld b 20 4 + fld b 24 4

/-- Highest staged byte + 1. -/
def Staged.high (g : Staged) : Nat := g.pieces.foldl (fun m (o, b) => max m (o + b.length)) 0
/-- Every byte has been written. -/
def Staged.whole (g : Staged) : Bool := (List.range g.size).all fun i => g.pieces.any fun (o, b) => decide (o ≤ i ∧ i < o + b.length)

/-- A piece of an image staged: the slot's new staged image, or why not. -/
def State.stageImage (i : Fin 128) (off : Nat) (data : Bytes) (s : State) : Except (BitVec 16) Staged :=
  let k := s.tenants.slots[i]
  if off = 0 then
    let size := imageSize data
    let freed := match k.staged with | none => 0 | some g => (g.size + 4095) / 4096
    if s.poolFree + freed < (size + 4095) / 4096 then .error 0x0502
    else if size < data.length then .error 0x0506
    else .ok { size, pieces := [(0, data)] }
  else match k.staged with
    | none => .error 0x0506
    | some g => if g.size < off + data.length then .error 0x0506 else .ok { g with pieces := (off, data) :: g.pieces }

def execImageWrite (r : Req) (s : State) : Res :=
  .next <|
    let off := fld r.body 0 4
    let data := r.body.drop 8
    s.slotRequest 0x0309 r (9 ≤ r.body.length ∧ r.body.length ≤ 4080 ∧ fld r.body 4 4 = 0 ∧ (off ≠ 0 ∨ 256 ≤ data.length)) fun i s =>
      let k := s.tenants.slots[i]
      if !k.among [.assigned, .running, .quiesced] || k.importing || s.exported i then s.respond r 0x0309 0x030A []
      else match s.stageImage i off data with
        | .error st =>
          (if st = 0x0506 then { s with hrb := { s.hrb with nvErr := s.hrb.nvErr.incLo } } else s).respond r 0x0309 st []
        | .ok g =>
          if s.commits then (s.updSlot i fun k => { k with staged := some g }).respond r 0x0309 0 (leN 4 g.high)
          else s.respond r 0x0309 0x0501 []

/-- The header fields lie within Table 09-9. -/
def headerOk (b : Bytes) : Bool :=
  let code := fld b 20 4
  let data := fld b 24 4
  let need := fld b 32 1
  b.take 4 == ascii "TIMG" && byteAt b 4 == 1 && allZero (slice b 5 3) && decide (1 ≤ fld b 16 4) && decide (4 ≤ code) && decide (code ≤ 1048576) &&
    code % 4 == 0 && decide (data ≤ 2097152) && decide (fld b 28 4 < code) && decide (1 ≤ need) && decide (need ≤ 32) &&
    decide ((data + 65535) / 65536 ≤ need) && allZero (slice b 33 31) && allZero (slice b 160 32)

/-- Steps 3 to 5 of IMAGE_COMMIT. -/
def Slot.imageCheck (k : Slot) (b : Bytes) : Option (BitVec 16) :=
  if fld b 8 8 ≠ k.tenantId.toNat ∨ fld b 16 4 < k.version.toNat then some 0x0704
  else if sha (slice b 96 64) ≠ k.authHash ∨ !ecdsaVerify (slice b 96 64) (b.take 192) (slice b 192 64) ∨ sha (b.drop 256) ≠ slice b 64 32 then
    some 0x0705
  else if k.run.sram < fld b 32 1 then some 0x0304
  else none

/-- An image becomes the committed one; the next start is cold. -/
def Slot.install (b : Bytes) (k : Slot) : Slot :=
  { k with image := some b, staged := none, version := BitVec.ofNat 32 (fld b 16 4), cold := true, imageOk := true }

def execImageCommit (r : Req) (s : State) : Res :=
  .next <| s.slotRequest 0x030A r (r.body.length = 4) fun i s =>
    let k := s.tenants.slots[i]
    if !k.among [.assigned, .quiesced] || k.importing || s.exported i then s.respond r 0x030A 0x030A []
    else match k.staged with
      | none => s.respond r 0x030A 0x0108 []
      | some g =>
        let b := pieceBytes g.pieces g.size
        if fld r.body 0 4 ≠ g.size ∨ !g.whole ∨ !headerOk b then s.respond r 0x030A 0x0108 []
        else match k.imageCheck b with
          | some st => s.respond r 0x030A st []
          | none =>
            if s.commits then
              (s.updSlot i (Slot.install b)).respond r 0x030A 0 (slice b 16 4 ++ leN 4 ((g.size + 4095) / 4096))
            else s.respond r 0x030A 0x0501 []

/-! ### Mailboxes (R237, R252 to R254) -/

/-- Ring bytes that unconsumed entries take. -/
def Mailbox.ringUsed (m : Mailbox) : Nat :=
  ((List.range m.unread).map fun j => (m.ins[Fin.ofNat 16 ((m.inRd + BitVec.ofNat 16 j).toNat)]).used).sum

/-- Bytes rounded up to 16. -/
def round16 (n : Nat) : Nat := (n + 15) / 16 * 16

/-- Where a body goes: its ring offset, the bytes it takes, the next offset; none where there is no room (R253). -/
def Slot.ringPlace (k : Slot) (len : Nat) : Option (Nat × Nat × Nat) :=
  let m := k.mbox
  let base := m.ringBase.toNat
  let size := m.ringSize.toNat
  let pos := m.inPos.toNat
  if m.unread ≥ 16 ∨ size = 0 ∨ base % 4096 ≠ 0 ∨ size % 4096 ≠ 0 ∨ 0x10000 * k.run.sram < base + size then none
  else
    let (off, skip) := if pos + len ≤ size then (pos, 0) else (0, size - pos)
    let used := skip + round16 len
    if size < m.ringUsed + used ∨ size < len then none else some (off, used, (off + round16 len) % size)

/-- A host message placed in the inbound mailbox. -/
def Slot.placeHost (r : Req) (off used next : Nat) (k : Slot) : Slot :=
  let m := k.mbox
  let e : InEntry := { kind := 0, cls := r.cls.setWidth 8, len := BitVec.ofNat 16 r.body.length, offset := BitVec.ofNat 32 off, tag := r.tag, used }
  let m := { m with ins := m.ins.set (Fin.ofNat 16 m.inWr.toNat) e, inWr := m.inWr + 1, inPos := BitVec.ofNat 32 next }
  { k with mbox := m, sram := Memory.writeN k.sram (k.mbox.ringBase.toNat + off) r.body
           class0 := if r.cls = 0 then k.class0 ++ [k.mbox.inWr] else k.class0 }

def execMbxSend (r : Req) (s : State) : Res :=
  .next <| s.request 0x0401 r (1 ≤ r.body.length ∧ r.body.length ≤ 4080) fun s =>
    let i := r.slot
    let k := s.tenants.slots[i]
    if k.state ≠ .running ∨ k.removing then s.respond r 0x0401 0x0204 []
    else if r.cls = 0 ∧ k.run.class0 ≤ k.class0.length then s.respond r 0x0401 0x0307 []
    else match k.ringPlace r.body.length with
      | none => s.respond r 0x0401 0x0309 []
      | some (off, used, next) =>
        let s := s.updSlot i (Slot.placeHost r off used next)
        s.respond r 0x0401 0 (leN 2 (16 - (s.tenants.slots[i]).mbox.unread) ++ [0, 0])

/-- IN_RD moves on: entries are consumed, class-0 messages are taken, waiting notices are placed. -/
def execMbxInRdWrite (slot : Fin 128) (v : BitVec 16) (s : State) : Res :=
  .next <|
    if s.calls slot then
      s.updSlot slot fun k =>
        let m := k.mbox
        if 16 < (m.inWr - v).toNat then { k with mbox := { m with errWrites := sat16 m.errWrites } }
        else { k with mbox := { m with inRd := v }.settle, class0 := k.class0.filter fun n => decide ((m.inWr - n).toNat ≤ (m.inWr - v).toNat) }
    else s

/-- The outbound entry that the supervisor takes next: sent, or discarded and counted (R254). -/
def State.takeOne (i : Fin 128) (s : State) : State :=
  let m := (s.tenants.slots[i]).mbox
  let e := m.outs[Fin.ofNat 16 m.outRd.toNat]
  let n := e.len.toNat
  let bad := n = 0 ∨ 4080 < n ∨ 3 < e.cls ∨ (s.badByte i e.addr.toNat n false).isSome
  if bad then s.updSlot i fun k => { k with mbox := { k.mbox with outRd := k.mbox.outRd + 1, errDrops := sat16 k.mbox.errDrops } }
  else
    let cls : BitVec 2 := if e.cls = 0 then 1 else e.cls.setWidth 2
    let b := message (BitVec.ofNat 8 s.treor.verMaj) cls false true 1 (BitVec.ofNat 14 i.val) (s.store.slotEpoch[i]) e.tag 0x0402 0 (s.dmaRead i e.addr.toNat n)
    (s.send { src := .mbxMsg, cls, bytes := b }).updSlot i fun k => { k with mbox := { k.mbox with outRd := k.mbox.outRd + 1 } }

/-- The supervisor takes posted entries, up to `n` of them, while the host accepts MBX_MSG (R202). -/
def State.takeOut (i : Fin 128) : Nat → State → State
  | 0, s => s
  | n + 1, s =>
    if s.accepts 4 && (s.tenants.slots[i]).mbox.outRd != (s.tenants.slots[i]).mbox.outWr then State.takeOut i n (s.takeOne i) else s

def execMbxOutWrWrite (slot : Fin 128) (v : BitVec 16) (s : State) : Res :=
  .next <|
    if s.calls slot then
      let m := (s.tenants.slots[slot]).mbox
      if 16 < (v - m.outRd).toNat ∨ (v - m.outRd).toNat < (m.outWr - m.outRd).toNat then
        s.updSlot slot fun k => { k with mbox := { k.mbox with errWrites := sat16 k.mbox.errWrites } }
      else (s.updSlot slot fun k => { k with mbox := { k.mbox with outWr := v } }).takeOut slot 16
    else s

end Sys2Proof.Machine
end

