-- ==== Sys2Proof/Machine/Bouquet.lean ====
section
/-! DEFINITION. Bouquets: membership, revocation, and envelopes in format E1 (R480 to R488, R494). -/

namespace Sys2Proof.Machine

abbrev State.updBqt (s : State) (f : Bqt → Bqt) : State := { s with bqt := f s.bqt }

/-! ### Membership (R480 to R482) -/

/-- The device's member private key (R480). -/
def State.memberKey (s : State) : Nat := keyScalar (s.dukKey "BQT")

/-- A member's bit in a revocation bitmap (R483). -/
def bitmapBit (b : Bytes) (m : Nat) : Bool := (byteAt b (m / 8)).getLsbD (m % 8)
/-- Members revoked in a bitmap. -/
def bitmapCount (b : Bytes) : Nat := (b.map fun x => (List.range 8).countP fun j => x.getLsbD j).sum
/-- The device's list revokes a member. -/
def Bqt.revoked (b : Bqt) (m : BitVec 14) : Bool := bitmapBit b.bitmap m.toNat

/-- The layout of a membership certificate (Table 20-1). -/
def certLayout (c : Bytes) : Bool :=
  c.length == 168 && slice c 0 4 == ascii "BQMC" && byteAt c 4 == 1 && allZero (slice c 5 3) && decide (fld c 12 2 < 16384) &&
    allZero (slice c 14 2) && allZero (slice c 32 8)
/-- BQT_ID of a certificate. -/
def certBqt (c : Bytes) : Nat := fld c 8 4
/-- MEMBER of a certificate. -/
def certMember (c : Bytes) : BitVec 14 := BitVec.ofNat 14 (fld c 12 2)
/-- MPUB of a certificate. -/
def certKey (c : Bytes) : Bytes := slice c 40 64
/-- A certificate verifies under an authority key. -/
def certOk (auth c : Bytes) : Bool := ecdsaVerify auth (c.take 104) (slice c 104 64)

/-- A revocation list of its layout that verifies under an authority key (Table 20-2). -/
def listOk (auth l : Bytes) : Bool :=
  l.length == 2128 && slice l 0 4 == ascii "BQRL" && byteAt l 4 == 1 && allZero (slice l 5 3) &&
    ecdsaVerify auth (l.take 2064) (slice l 2064 64)
/-- BQT_ID of a list. -/
def listBqt (l : Bytes) : Nat := fld l 8 4
/-- BE of a list. -/
def listBe (l : Bytes) : Word := BitVec.ofNat 32 (fld l 12 4)
/-- Bitmap of a list. -/
def listMap (l : Bytes) : Bytes := slice l 16 2048

/-- The checks of a join, in order (R481). -/
def State.joinCheck (auth cert list : Bytes) (s : State) : Option (BitVec 16) :=
  if !certLayout cert || slice cert 16 16 != padTo 16 s.lc.unitId || certKey cert != pubKey s.memberKey then some 0x0108
  else if !certOk auth cert || !listOk auth list || certBqt cert != listBqt list then some 0x0705
  else if bitmapBit (listMap list) (certMember cert).toNat then some 0x0208
  else match s.bqt.member with
    | none => none
    | some m =>
      if m.bqtId.toNat = certBqt cert ∧ m.auth = auth ∧ m.member = certMember cert then none else some 0x0306

/-- The bouquet is left: the send counter and the records of slots stay (R481). -/
def Bqt.leave (b : Bqt) : Bqt :=
  { b with member := none, be := 0, bitmap := List.replicate 2048 0, cache := [], replay := [] }

/-- A staged import is destroyed, as removal destroys; the slot keeps IMPORT (R491). -/
def State.dropImport (i : Fin 128) (s : State) : State :=
  let s := (s.freeAll i).updStore (Store.dropOwner i)
  let s := s.updSlot i fun k => { k with staged := none }
  s.updBqt fun b => { b with imports := modify b.imports i (Option.map fun x => { x with failed := true, manifest := none, staged := [], early := [], handles := [] }) }

/-- An import is in progress (R481). -/
def Import.live (x : Import) : Bool := !x.failed
/-- The slot holds an import in progress. -/
def State.importing (i : Fin 128) (s : State) : Bool := match s.bqt.imports[i] with | some x => x.live | none => false

/-- A list newer than the stored one takes effect (R484). -/
def State.applyList (be : Word) (map : Bytes) (s : State) : State :=
  let old := s.bqt.bitmap
  let fresh (m : BitVec 14) : Bool := bitmapBit map m.toNat && !bitmapBit old m.toNat
  let s := s.updBqt fun b => { b with be, bitmap := map, cache := b.cache.filter fun e => !fresh e.peer, replay := b.replay.filter fun e => !fresh e.peer }
  let s := (List.finRange 128).foldl (fun (s : State) (i : Fin 128) => match s.bqt.imports[i] with
    | some x => if x.live && s.bqt.revoked x.src then s.dropImport i else s
    | none => s) s
  match s.bqt.member with
  | none => s
  | some m =>
    if s.bqt.revoked m.member then
      s.updBqt fun b => { b.leave with exports := b.exports.map (Option.map fun x => { x with stuck := true }) }
    else s

/-- The answer of BQT_JOIN. -/
def State.joinAnswer (s : State) : Bytes :=
  match s.bqt.member with
  | some m => leN 4 m.bqtId.toNat ++ leN 2 m.member.toNat ++ [0, 0] ++ leN 4 s.bqt.be.toNat
  | none => leN 4 0 ++ [0xFF, 0xFF, 0, 0] ++ leN 4 0

/-- BQT_JOIN with ACTION 0: a membership, or its renewal (R481). -/
def State.joinBouquet (r : Req) (s : State) : State :=
  let auth := slice r.body 4 64
  let cert := slice r.body 68 168
  let list := slice r.body 236 2128
  match s.joinCheck auth cert list with
  | some st => s.respond r 0x0B02 st []
  | none =>
    if !s.commits then s.respond r 0x0B02 0x0501 []
    else
      let s₀ := s
      let m : Membership := { bqtId := BitVec.ofNat 32 (certBqt cert), member := certMember cert, auth, cert }
      let renew := s.bqt.member.isSome
      let s := s.updBqt fun b => { b with member := some m }
      let s := if renew && decide ((listBe list).toNat ≤ s.bqt.be.toNat) then s else s.applyList (listBe list) (listMap list)
      s₀.respondFirst r 0x0B02 0 s.joinAnswer s

/-- BQT_JOIN with ACTION 1: the bouquet is left (R481). -/
def State.leaveBouquet (r : Req) (s : State) : State :=
  if (List.finRange 128).any fun i => s.exported i || s.importing i then s.respond r 0x0B02 0x0306 []
  else if !s.commits then s.respond r 0x0B02 0x0501 []
  else
    let s := s.updBqt Bqt.leave
    s.respond r 0x0B02 0 s.joinAnswer

/-- BQT_JOIN, by its ACTION. -/
def State.bqtJoin (r : Req) (s : State) : State :=
  let a := byteAt r.body 0
  let fits := allZero (slice r.body 1 3) ∧ ((a = 0 ∧ r.body.length = 2364) ∨ (a = 1 ∧ r.body.length = 4))
  s.request 0x0B02 r fits fun s => if a = 0 then s.joinBouquet r else s.leaveBouquet r

def execBqtJoin (r : Req) (s : State) : Res := .next (s.bqtJoin r)

/-- The same opcode with ACTION 1. -/
def execBqtLeave (r : Req) (s : State) : Res := .next (s.bqtJoin r)

def execBqtStatus (r : Req) (s : State) : Res :=
  .next <| s.request 0x0B01 r (r.body = []) fun s =>
    let b := s.bqt
    let relay := match b.member with | some m => s.relay m.member | none => false
    let (id, ix, auth) : Nat × Nat × Bytes := match b.member with
      | some m => (m.bqtId.toNat, m.member.toNat, sha m.auth)
      | none => (0, 0xFFFF, zeros 32)
    let staged := (List.finRange 128).find? fun i => s.importing i
    s.respond r 0x0B01 0 ([BitVec.ofNat 8 (b2n b.member.isSome + 2 * b2n relay), 1, 1, 0] ++ leN 4 id ++ leN 2 ix ++ [0, 0] ++ leN 4 b.be.toNat ++
      leN 2 (bitmapCount b.bitmap) ++ leN 2 b.cache.length ++ leN 8 (b.seq + 1).toNat ++ pubKey s.memberKey ++ auth ++
      [match staged with | some i => BitVec.ofNat 8 i.val | none => 0xFF, BitVec.ofNat 8 ((List.finRange 128).countP fun i => s.exported i), 0, 0])

/-- BQT_REVOKE (R483, R484). -/
def execBqtRevoke (r : Req) (s : State) : Res :=
  .next <| s.request 0x0B03 r (r.body.length = 2128) fun s =>
    let l := r.body
    match s.bqt.member with
    | none => s.respond r 0x0B03 0x0207 []
    | some m =>
      if !listOk m.auth l || listBqt l != m.bqtId.toNat then s.respond r 0x0B03 0x0705 []
      else if (listBe l).toNat ≤ s.bqt.be.toNat ∨ (List.range 16384).any fun j => bitmapBit s.bqt.bitmap j && !bitmapBit (listMap l) j then
        s.respond r 0x0B03 0x0704 []
      else if !s.commits then s.respond r 0x0B03 0x0501 []
      else
        let out := leN 4 (listBe l).toNat ++ leN 2 (bitmapCount (listMap l)) ++ [BitVec.ofNat 8 (b2n (bitmapBit (listMap l) m.member.toNat)), 0]
        s.respondFirst r 0x0B03 0 out (s.applyList (listBe l) (listMap l))

/-! ### Envelopes (R485 to R488) -/

/-- K_P from the peer's public key (R485). -/
def State.pairKey (m : Membership) (peer : BitVec 14) (peerPub : Bytes) (s : State) : Bytes :=
  let z := p256.shared s.memberKey peerPub
  let lo := min m.member.toNat peer.toNat
  let hi := max m.member.toNat peer.toNat
  kdfBytes z (ascii "BQT-PAIR") (leN 4 m.bqtId.toNat ++ leN 2 lo ++ leN 2 hi)

/-- A cache entry still serves (R488). -/
def State.pairFresh (e : PairEntry) (s : State) : Bool := decide (e.age < s.param 0x0C02)

/-- K_P for a certificate presented: from the cache, or by agreement, and the entry that holds it comes first. -/
def State.pairFor (m : Membership) (cert : Bytes) (s : State) : State × Bytes :=
  let peer := certMember cert
  let rest := s.bqt.cache.filter (·.peer != peer)
  let e : PairEntry := match s.bqt.cache.find? (·.peer == peer) with
    | some e => if e.certHash = sha cert ∧ s.pairFresh e then e else { peer, certHash := sha cert, key := s.pairKey m peer (certKey cert) }
    | none => { peer, certHash := sha cert, key := s.pairKey m peer (certKey cert) }
  (s.updBqt fun b => { b with cache := (e :: rest).take 256 }, e.key)

/-- K_P for an envelope to a member: from the cache, else from the key that the member has (log 16). -/
def State.pairTo (m : Membership) (dst : BitVec 14) (s : State) : Bytes :=
  match s.bqt.cache.find? (·.peer == dst) with
  | some e => e.key
  | none => s.pairKey m dst ((List.range 64).map (Config.memberPub m.bqtId.toNat dst.toNat))

/-- What differs between envelopes: the fields of Table 20-4 that their sender chooses. -/
structure EnvHead where
  kind : Byte
  dst : BitVec 14
  dslot : Byte
  depoch : BitVec 16 := 0
  tenant : BitVec 64
  mid : BitVec 64
  part : Nat := 0
  parts : Nat := 1
  deriving DecidableEq, Repr

/-- Bytes 0 to 231 of an envelope. -/
def State.envHead (m : Membership) (h : EnvHead) (seq : BitVec 64) (bodyLen : Nat) (s : State) : Bytes :=
  ascii "BQEV" ++ [1, h.kind] ++ leN 2 (248 + bodyLen) ++ leN 4 m.bqtId.toNat ++ leN 2 m.member.toNat ++ leN 2 h.dst.toNat ++ leN 8 seq.toNat ++
    leN 6 s.guard.rtc.toNat ++ [0, 0] ++ leN 4 s.bqt.be.toNat ++ [h.dslot, 0] ++ leN 2 h.depoch.toNat ++ leN 8 h.tenant.toNat ++ leN 8 h.mid.toNat ++
    leN 2 h.part ++ leN 2 h.parts ++ zeros 4 ++ padTo 168 m.cert

/-- The nonce of an envelope. -/
def envNonce (src : BitVec 14) (seq : BitVec 64) : Bytes := leN 2 src.toNat ++ leN 8 seq.toNat ++ [0, 0]

/-- The send counter moves on, with its reservation ahead (R365, R485). -/
def Bqt.takeSeq (b : Bqt) : Bqt :=
  let v := b.seq + 1
  { b with seq := v, seqRes := if b.seqRes ≤ v then v + 65536 else b.seqRes }

/-- Envelopes that were held back go out while the host accepts ENV_OUT (R202, R487). -/
def State.flushEnv (s : State) : State :=
  if s.accepts 0x0B then
    let s' := s.bqt.held.foldl (fun (s : State) (e : BitVec 2 × BitVec 14 × Bytes) =>
      s.send { src := .envOut, cls := e.1, bytes :=
        message (BitVec.ofNat 8 s.treor.verMaj) e.1 false true 3 e.2.1 (s.unitEpoch 3 e.2.1) 0 0x0B05 0 e.2.2 }) s
    s'.updBqt fun b => { b with held := [] }
  else s

/-- An envelope sealed and sent as ENV_OUT; none is sent to a revoked member or without a membership. -/
def State.emit (cls : BitVec 2) (h : EnvHead) (body : Bytes) (s : State) : State :=
  match s.bqt.member with
  | none => s
  | some m =>
    if s.bqt.revoked h.dst then s
    else
      let key := s.pairTo m h.dst
      let s := s.updBqt Bqt.takeSeq
      let head := s.envHead m h s.bqt.seq body.length
      let sealed_ := gcmSeal key (envNonce m.member s.bqt.seq) head body
      (s.updBqt fun b => { b with held := b.held ++ [(cls, h.dst, head ++ sealed_)] }).flushEnv

/-- SEQ is marked in the replay state, or lies too far below its highest (R486). -/
def Replay.seen (x : Replay) (q : BitVec 64) : Bool :=
  if x.top < q then false
  else if q = x.top then true
  else if 64 < (x.top - q).toNat then true
  else x.map.getLsbD ((x.top - q).toNat - 1)

/-- A SEQ is marked: bit j of the map stands for the value j + 1 below the highest. -/
def Replay.mark (x : Replay) (q : BitVec 64) : Replay :=
  if x.top < q then
    let d := (q - x.top).toNat
    { x with top := q, map := if 64 < d then 0 else (x.map <<< d) ||| (1 <<< (d - 1)) }
  else if q = x.top then x
  else { x with map := x.map ||| (1 <<< ((x.top - q).toNat - 1)) }

/-- The replay state of a sender. -/
def Bqt.replayOf (b : Bqt) (src : BitVec 14) : Option Replay := b.replay.find? (·.peer == src)

/-- The replay state after an envelope that passed. -/
def Bqt.accept (src : BitVec 14) (q : BitVec 64) (b : Bqt) : Bqt :=
  let x : Replay := match b.replayOf src with | some x => x.mark q | none => { peer := src, top := q }
  { b with replay := x :: b.replay.filter (·.peer != src) }

/-- SRC, MID and the certificate of an envelope. -/
def envSrc (e : Bytes) : BitVec 14 := BitVec.ofNat 14 (fld e 12 2)
def envSeq (e : Bytes) : BitVec 64 := BitVec.ofNat 64 (fld e 16 8)
def envMid (e : Bytes) : BitVec 64 := BitVec.ofNat 64 (fld e 48 8)
def envCert (e : Bytes) : Bytes := slice e 64 168

/-- Step 6 of Table 20-7. -/
def State.envFresh (e : Bytes) (s : State) : Bool :=
  let t := fld e 24 6
  let now := s.guard.rtc.toNat
  let w := s.param 0x0C01
  s.guard.rtcSet && decide (t ≤ now + w) && decide (now ≤ t + w) && decide (s.bqt.resetRtc.toNat < t) &&
    (match s.bqt.replayOf (envSrc e) with | some x => !x.seen (envSeq e) | none => true)

/-- Steps 1 to 6 of Table 20-7. -/
def State.envCheck (m : Membership) (e : Bytes) (s : State) : Option (BitVec 16) :=
  if slice e 0 4 ≠ ascii "BQEV" ∨ fld e 6 2 ≠ e.length then some 0x0108
  else if byteAt e 4 ≠ 1 then some 0x020A
  else if fld e 8 4 ≠ m.bqtId.toNat ∨ fld e 14 2 ≠ m.member.toNat then some 0x0207
  else if !certLayout (envCert e) || !certOk m.auth (envCert e) || certBqt (envCert e) != m.bqtId.toNat || (certMember (envCert e)).toNat != fld e 12 2 then
    some 0x0705
  else if s.bqt.revoked (envSrc e) then some 0x0208
  else if !s.envFresh e then some 0x0209
  else none

end Sys2Proof.Machine
end

