-- ==== Sys2Proof/Machine/Cores.lean ====
section
/-! DEFINITION. Tenant cores: environment calls, wakes, quanta, the MPU's judgement, traps and stops (R241 to R263). -/

namespace Sys2Proof.Machine

/-! ### Waiting (R248) -/

/-- Bit j of PEND: an owned port whose page is mapped has events (Table 10-5). -/
def State.portPending (i : Fin 128) (s : State) : Bool :=
  s.sprig.ports.toList.any fun p => p.ownedBy i && p.moved.isNone && p.page.evqWr != p.page.evqRd

/-- The causes that are pending: port events, mailbox, job completion. -/
def State.causes (i : Fin 128) (s : State) : BitVec 4 :=
  let k := s.tenants.slots[i]
  BitVec.ofNat 4 (b2n (s.portPending i) + 2 * b2n (k.mbox.inWr != k.mbox.inRd) + 4 * b2n k.jobDone)

/-- WAIT returns with the causes given. -/
def State.waitEnd (i : Fin 128) (c : BitVec 4) (s : State) : State :=
  s.updSlot i fun k => { k.ret 0 [c.setWidth 32] with waiting := none, jobDone := false }

def execWait (slot : Fin 128) (mask us : Word) (s : State) : Res :=
  .next <|
    if s.calls slot then
      let s := s.callTaken slot
      if mask = 0 ∨ 16 ≤ mask.toNat ∨ (mask.getLsbD 3 ∧ (us = 0 ∨ 10000000 < us.toNat)) then s.ret slot 0x0108 []
      else
        let m : BitVec 4 := mask.setWidth 4
        let c := s.causes slot &&& m
        if c ≠ 0 then s.waitEnd slot c
        else (s.updSlot slot fun k => { k with waiting := some ⟨m, us⟩ }).leaveCore slot
    else s

/-- A waiting slot becomes runnable; a port event or a mailbox entry makes it urgent (R245). -/
def State.wake (i : Fin 128) (c : BitVec 4) (s : State) : State :=
  let s := (s.waitEnd i c).joinRun i
  if c.getLsbD 0 || c.getLsbD 1 then
    ({ s with tenants := { s.tenants with urgent := s.tenants.urgent ++ [i] } }).wakeIdle
  else s

/-- A cause of the slot's mask is pending. `cause` names the causes that became so. -/
def execTenantWake (slot : Fin 128) (cause : BitVec 4) (s : State) : Res :=
  .next <|
    let k := s.tenants.slots[slot]
    if s.live && k.state == .running then
      match k.waiting with
      | none => s
      | some w => if s.causes slot &&& w.mask &&& cause = 0 then s else s.wake slot (s.causes slot &&& w.mask)
    else s

def execWaitTimeout (slot : Fin 128) (s : State) : Res :=
  .next <|
    let k := s.tenants.slots[slot]
    if s.live && k.state == .running then
      match k.waiting with
      | none => s
      | some w => if w.mask.getLsbD 3 then s.wake slot ((s.causes slot &&& w.mask) ||| 8) else s
    else s

/-! ### Quanta (R243, R244) -/

def execYield (slot : Fin 128) (s : State) : Res :=
  .next <|
    if s.calls slot then
      let s := (s.callTaken slot).ret slot 0 []
      match s.coreOf slot with
      | some c => s.choose c (!(s.tenants.cores[c]).urgent)
      | none => s
    else s

/-! ### Tenant regions and the MPU (R256 to R260) -/

/-- REGION_SET's argument checks: the region, or a status. -/
def Slot.regionArg (k : Slot) (a1 a2 a3 : Word) : Except (BitVec 16) (Option Region) :=
  if a3 = 0x80 then .ok none
  else if a3 ≠ 0 ∧ a3 ≠ 1 ∧ a3 ≠ 3 then .error 0x0108
  else if a1.toNat % 32 ≠ 0 ∨ (a2.toNat + 1) % 32 ≠ 0 ∨ a2 < a1 ∨ a1 < 0x10000000 ∨ 0x10000000 + 0x10000 * k.run.sram ≤ a2.toNat then .error 0x0304
  else .ok (some ⟨a1, a2, a3.toNat⟩)

def execRegionSet (slot : Fin 128) (a0 a1 a2 a3 : Word) (s : State) : Res :=
  .next <|
    if s.calls slot then
      let s := s.callTaken slot
      if h : 1 ≤ a0.toNat ∧ a0.toNat ≤ 4 then
        match (s.tenants.slots[slot]).regionArg a1 a2 a3 with
        | .error st => s.ret slot st []
        | .ok g =>
          ((s.updSlot slot fun k => { k with regions := k.regions.set (a0.toNat - 1) g (by omega) }).ret slot 0 []).reloadMpu slot
      else s.ret slot 0x0108 []
    else s

/-- Region n's registers are written only while the MPU is disabled. -/
def execMpuRegionWrite (core : Fin 8) (n : Fin 16) (lim : Bool) (v : Word) (s : State) : Res :=
  .next <|
    if s.live then
      s.updCore core fun x =>
        let m := x.mpu
        if m.en then { x with mpu := { m with ignored := sat16 m.ignored } }
        else if lim then { x with mpu := { m with rlim := m.rlim.set n (v &&& 0xFFFFFFE1) } }
        else { x with mpu := { m with rbase := m.rbase.set n v } }
    else s

/-- The lowest-numbered region that contains a byte (R256). -/
def Mpu.regionOf (m : Mpu) (b : Nat) : Option (Fin 16) :=
  (List.finRange 16).find? fun n =>
    (m.rlim[n]).getLsbD 0 && decide ((m.rbase[n]).toNat / 32 * 32 ≤ b) && decide (b ≤ (m.rlim[n]).toNat / 32 * 32 + 31)

/-- The access that a region's RD, WR and EX grant. -/
def grants (w : Word) (k : AccessKind) : Bool :=
  match k with
  | .load => w.getLsbD 0
  | .store => w.getLsbD 1
  | .fetch => w.getLsbD 2

/-- The unit access checker holds the page of an address for a slot (R250, Table 10-3). -/
def State.unitPage (i : Fin 128) (a : Nat) (s : State) : Bool :=
  let k := s.tenants.slots[i]
  if h : 0x40000000 ≤ a ∧ a < 0x40020000 then
    let p : Fin 32 := ⟨(a - 0x40000000) / 0x1000, by omega⟩
    decide (p.val < k.run.cipher) || ((s.cipher.pages[i])[p]).inUse || s.cipher.held.contains ⟨i, p⟩
  else if 0x41000000 ≤ a ∧ a < 0x41004000 then decide ((a - 0x41000000) / 0x1000 ≤ k.run.drbg)
  else if h : 0x42000000 ≤ a ∧ a < 0x42200000 then
    let p : Fin 512 := ⟨(a - 0x42000000) / 0x1000, by omega⟩
    (s.sprig.ports[p]).ownedBy i && (s.sprig.ports[p]).moved.isNone
  else decide (0x43000000 ≤ a ∧ a < 0x43001000) || decide (0x44000000 ≤ a ∧ a < 0x44001000)

/-- Why user mode may not reach a byte: SOURCE and REGION of Table 10-14; none where it may. -/
def State.userByte (c : Fin 8) (i : Fin 128) (k : AccessKind) (b : Nat) (s : State) : Option (Nat × Nat) :=
  let m := (s.tenants.cores[c]).mpu
  if !m.en then some (3, 15)
  else match m.regionOf b with
    | none => some (2, 15)
    | some n =>
      let w := m.rbase[n]
      if w.getLsbD 4 || !grants w k then some (1, n.val)
      else if w.getLsbD 3 && !s.unitPage i b then some (4, n.val)
      else none

/-- The rule of alignment of an address (R241, R80). -/
inductive AlignRule where
  | free | word | natural
  deriving DecidableEq, Repr

/-- How accesses at an address must be aligned. -/
def alignRule (a : Nat) (k : AccessKind) : AlignRule :=
  if a < 0x20000000 then .free
  else if 0x42000000 ≤ a ∧ a < 0x42200000 ∧ 0x10 ≤ a % 0x1000 then
    if a % 0x1000 < 0x40 ∧ k = .store then .free else .natural
  else .word

/-- The access obeys the rule. -/
def alignedBy (r : AlignRule) (a size : Nat) : Bool :=
  match r with
  | .free => true
  | .word => size == 4 && a % 4 == 0
  | .natural => (size == 1 || size == 2 || size == 4) && a % size == 0

/-- The forbidden byte of an access with SOURCE and REGION, if it is refused (R256, R261): the first byte, else the lowest one
where the last is forbidden; else its alignment. `judge` judges a byte. -/
def State.judged (c : Fin 8) (k : AccessKind) (a size : Nat) (judge : Nat → Option (Nat × Nat)) (s : State) : Option (Nat × Nat × Nat) :=
  match judge a with
  | some (q, n) => some (a, q, n)
  | none =>
    let bad := if (judge (a + size - 1)).isSome then (List.range size).filterMap fun j => (judge (a + j)).map fun (q, n) => (a + j, q, n)
      else []
    match bad with
    | x :: _ => some x
    | [] =>
      if alignedBy (alignRule a k) a size then none
      else some (a, 5, match (s.tenants.cores[c]).mpu.regionOf a with | some n => n.val | none => 15)

/-- The forbidden byte of a user access. -/
def State.userFault (c : Fin 8) (i : Fin 128) (k : AccessKind) (a size : Nat) (s : State) : Option (Nat × Nat × Nat) :=
  s.judged c k a size fun b => s.userByte c i k b

/-- What the default map of machine mode grants (Table 10-9); unit pages only where the slot that runs has them. -/
def State.defaultMap (c : Fin 8) (k : AccessKind) (a : Nat) (s : State) : Bool :=
  if a < 0x100000 then k == .load
  else if 0x10000000 ≤ a ∧ a < 0x10200000 then k != .fetch
  else if 0x20000000 ≤ a ∧ a < 0x20001000 then k != .fetch
  else if 0x40000000 ≤ a ∧ a < 0x45000000 then
    k != .fetch && (match (s.tenants.cores[c]).slot with | some i => s.unitPage i a | none => false)
  else if 0x80000000 ≤ a ∧ a < 0x80001000 then k == .load
  else decide (0xF0000000 ≤ a)

/-- Why machine mode may not reach a byte (R256, R257): a region decides, PRIV or not; with none, or with the MPU disabled, the
default map. -/
def State.machineByte (c : Fin 8) (k : AccessKind) (b : Nat) (s : State) : Option (Nat × Nat) :=
  let m := (s.tenants.cores[c]).mpu
  match (if m.en then m.regionOf b else none) with
  | some n => if grants m.rbase[n] k then none else some (1, n.val)
  | none => if s.defaultMap c k b then none else some (6, 15)

/-- The forbidden byte of a machine-mode access, judged as a user's is. -/
def State.machineFault (c : Fin 8) (k : AccessKind) (a size : Nat) (s : State) : Option (Nat × Nat × Nat) :=
  s.judged c k a size fun b => s.machineByte c k b

/-- TYPE of MPU_FAULT_INFO. -/
def AccessKind.code : AccessKind → Nat
  | .load => 0 | .store => 1 | .fetch => 2

/-- MPU_FAULT_INFO of an access; MODE is 0 for user mode and 3 for machine mode. -/
def faultInfo (q n mode : Nat) (k : AccessKind) (size : Nat) : Word :=
  BitVec.ofNat 32 (n * 4096 + q * 256 + mode * 64 + k.code * 16 + size)

/-- The MPU reports a fault at byte `b` (R261). -/
def State.mpuFault (c : Fin 8) (b : Nat) (info : Word) (s : State) : State :=
  s.updCore c fun x => { x with mpu := { x.mpu with faults := sat16 x.mpu.faults, faultAddr := BitVec.ofNat 32 b, faultInfo := info } }

/-! ### Stops (R230, R262) -/

/-- The tenant is stopped: its record is committed, it is quiesced, and jobs on its port pages end (R266). -/
def State.stopTenant (i : Fin 128) (cause : Byte) (pc tval info : Word) (s : State) : State :=
  let s := s.recordStop i cause pc tval info
  let s := (s.portsOf i).foldl (fun s p => s.abortRange i (portAddr p) 0x1000) s
  (s.beginQuiesce i).tellSlot 3 i

/-- A store to a port's control block that is not one aligned word (R80). -/
def fencedStore (k : AccessKind) (a size : Nat) : Bool :=
  k == .store && decide (0x42000000 ≤ a ∧ a < 0x42200000 ∧ 0x10 ≤ a % 0x1000 ∧ a % 0x1000 < 0x40) && !(size == 4 && a % 4 == 0)

/-- An environment call of the microkernel (Table 10-2, R363, R364): the function has a command of its own. -/
def isCall (fn : Word) : Bool := decide (1 ≤ fn.toNat ∧ fn.toNat ≤ 3) || decide (0x10 ≤ fn.toNat ∧ fn.toNat ≤ 0x15)

/-- What the core that runs a slot raises. An access that the MPU and the checker allow traps nothing; a narrow store to a control
block is discarded and counted in FENCE; a refused access of machine mode is reported and stops no tenant; an unknown function
answers 0x0106 (R247). -/
def execTenantTrap (slot : Fin 128) (pc : Word) (t : TenantTrap) (s : State) : Res :=
  .next <|
    if s.calls slot then
      match s.coreOf slot with
      | none => s
      | some c =>
        match t with
        | .illegal w => s.stopTenant slot 2 pc w (s.tenants.cores[c]).mpu.faultInfo
        | .misaligned a => s.stopTenant slot 3 pc a (s.tenants.cores[c]).mpu.faultInfo
        | .breakpoint v => s.stopTenant slot 4 pc v (s.tenants.cores[c]).mpu.faultInfo
        | .call fn => if isCall fn then s else (s.callTaken slot).ret slot 0x0106 []
        | .machine k a size => match s.machineFault c k a.toNat size.val with
          | some (b, q, n) => s.mpuFault c b (faultInfo q n 3 k size.val)
          | none => s
        | .access k a size => match s.userFault c slot k a.toNat size.val with
          | some (b, q, n) =>
            let info := faultInfo q n 0 k size.val
            (s.mpuFault c b info).stopTenant slot 1 pc (BitVec.ofNat 32 b) info
          | none =>
            if fencedStore k a.toNat size.val then
              s.updPort (Fin.ofNat 512 ((a.toNat - 0x42000000) / 0x1000)) fun x => { x with page := { x.page with fence := sat16 x.page.fence } }
            else s
    else s

/-- 250 ms of core time without an environment call. -/
def execTenantWatchdog (slot : Fin 128) (pc : Word) (s : State) : Res :=
  .next <|
    if s.calls slot && decide (250000 ≤ (s.tenants.slots[slot]).sinceCall) then
      match s.coreOf slot with
      | some c => s.stopTenant slot 5 pc 0 (s.tenants.cores[c]).mpu.faultInfo
      | none => s
    else s

end Sys2Proof.Machine
end

