-- ==== Sys2Proof/Machine/Cipher.lean ====
section
/-! DEFINITION. The symmetric engine: pages, messages, modes, segments and its countermeasure generators (R292 to
R308). -/

namespace Sys2Proof.Machine

/-! ### Lengths (R299) -/

/-- The lengths of a submission meet R299; `k` is the mode in force. -/
def CipherPage.lengthsFit (p : CipherPage) (k : Nat) (blk : Nat) : Bool :=
  let n := p.len.toNat
  let a := p.aadlen.toNat
  let first := modeFirst p.mode
  let last := modeLast p.mode
  let prog := if first then 0 else p.prog.toNat
  (first || p.msg.isSome) && (first || a == 0) && decide (n ≤ 2097152) && decide (a ≤ 2097152) &&
    (last || (n != 0 && n % blk == 0)) && (!(k == 0 || k == 1) || n % blk == 0) && (!modeSingle p.mode || (first && last)) &&
    decide (prog + n ≤ 4294967295) && (k != 5 || decide (a ≤ 65279)) &&
    (!modeWrites k || p.dst == p.src || !overlap p.src.toNat n p.dst.toNat n) &&
    (!modeAad k || !overlap p.aad.toNat a p.dst.toNat n)

/-! ### Cores (R306) -/

/-- The kind of core of a page's key. -/
def CipherPage.kind (p : CipherPage) : CoreKind := match p.loaded with | some (_, e) => if e.cls = 2 then .tdea else .aes | none => .aes

/-- What the cores of a kind hold. -/
def Cipher.grants (c : Cipher) (k : CoreKind) : List Grant :=
  match k with
  | .aes => c.aes.toList.filterMap id
  | .tdea => c.tdea.toList.filterMap id

/-- A segment of a page waits for a core of a kind. -/
def Cipher.waits (c : Cipher) (k : CoreKind) (g : Grant) : Bool :=
  let p := (c.pages[g.slot])[g.page]
  p.busy && p.kind == k && (match p.job with | some j => j.segs != 0 | none => false) && !(c.grants k).contains g

/-- The first after `last` in cyclic order that `f` accepts. -/
def nextAfter {n : Nat} (last : Option (Fin n)) (f : Fin n → Bool) : Option (Fin n) :=
  let l := (List.finRange n).filter f
  match last with
  | none => l.head?
  | some a => match l.filter fun x => decide (a < x) with
    | x :: _ => some x
    | [] => l.head?

/-- The segment that a core of a kind takes next. -/
def Cipher.pick (c : Cipher) (k : CoreKind) : Option Grant :=
  let last := match k with | .aes => c.lastAes | .tdea => c.lastTdea
  match nextAfter last fun i => (List.finRange 32).any fun p => c.waits k ⟨i, p⟩ with
  | none => none
  | some i => (nextAfter c.lastPage[i] fun p => c.waits k ⟨i, p⟩).map fun p => ⟨i, p⟩

/-- A core of a kind is given a grant, or none. -/
def Cipher.setCore (k : CoreKind) (n : Fin 8) (g : Option Grant) (c : Cipher) : Cipher :=
  match k with
  | .aes => { c with aes := c.aes.set n g }
  | .tdea => if h : n.val < 2 then { c with tdea := c.tdea.set n.val g h } else c

/-- A core takes the next segment that waits. -/
def Cipher.take (k : CoreKind) (n : Fin 8) (c : Cipher) : Cipher :=
  match c.pick k with
  | none => c.setCore k n none
  | some g =>
    let c := c.setCore k n (some g)
    let c := { c with lastPage := c.lastPage.set g.slot (some g.page) }
    match k with
    | .aes => { c with lastAes := some g.slot }
    | .tdea => { c with lastTdea := some g.slot }

/-- The grant of a core. -/
def Cipher.core (c : Cipher) (k : CoreKind) (n : Fin 8) : Option Grant :=
  match k with
  | .aes => c.aes[n]
  | .tdea => if h : n.val < 2 then c.tdea[n.val] else none

/-- A core that is idle takes what waits (the first idle one of the kind). -/
def Cipher.kick (k : CoreKind) (c : Cipher) : Cipher :=
  match (List.finRange 8).find? fun n => (c.core k n).isNone && (k == .aes || decide (n.val < 2)) with
  | none => c
  | some n => c.take k n

/-! ### Operations -/

/-- A page's operation completes or is refused: STATUS, DONE, and the slot may wake. -/
def State.cipherEnd (i : Fin 128) (p : Fin 32) (status : BitVec 16) (f : CipherPage → CipherPage) (s : State) : State :=
  (s.updCp i p fun x => { f x with busy := false, job := none, status, evt := x.evt.hit }).jobDone i

/-- A store of CP_CMD with GO = 1 to a page that the slot has: counted while BUSY, else taken (R295). -/
def State.cipherTake (i : Fin 128) (p : Fin 32) (op : Byte) (f : State → State) (s : State) : State :=
  if s.calls i && s.unitPage i (0x40000000 + 0x1000 * p.val) then
    if ((s.cipher.pages[i])[p]).busy then s.updCp i p fun x => { x with ignored := sat8 x.ignored }
    else f (s.updCp i p fun x => { x with op })
  else s

/-- The keys that LOAD_KEY accepts (R296). -/
def loadable (e : Entry) : Bool := (e.cls == 1 || e.cls == 2) && (e.usage.toNat % 64 != 0)

def State.loadKey (i : Fin 128) (p : Fin 32) (s : State) : State :=
  let h := ((s.cipher.pages[i])[p]).key
  let ans := s.keyFind i h loadable
  let s := ans.1
  match ans.2 with
  | some st => s.cipherEnd i p st id
  | none =>
    if s.kctLocked then s.cipherEnd i p 0x0703 id
    else if !((s.cipher.pages[i])[p]).inUse ∧ (s.tenants.slots[i]).run.cipher ≤ s.pagesUsed i then s.cipherEnd i p 0x030C id
    else
      let e := s.entry (handleIndex h)
      s.cipherEnd i p 0 fun x => { x with loaded := some (h, e), msg := none }

def execLoadKey (slot : Fin 128) (page : Fin 32) (s : State) : Res :=
  .next <| s.cipherTake slot page 0x01 fun s => (s.loadKey slot page).evictTo (s.lines slot) slot

/-- The first range of a submission that is refused: FRANGE and its lowest forbidden byte (R298 step 4). -/
def State.cipherRanges (i : Fin 128) (x : CipherPage) (k : Nat) (s : State) : Option (BitVec 2 × Nat) :=
  match (if modeAad k then s.badByte i x.aad.toNat x.aadlen.toNat false else none) with
  | some b => some (1, b)
  | none => match s.badByte i x.src.toNat x.len.toNat false with
    | some b => some (2, b)
    | none => (if modeWrites k then s.badByte i x.dst.toNat x.len.toNat true else none).map fun b => (3, b)

/-- Step 3 of Table 12-16. -/
def State.runKey (i : Fin 128) (x : CipherPage) (h : Word) (level : Nat) (s : State) : State × Option (BitVec 16) :=
  if modeFirst x.mode then s.keyCheck i h (fun e => e.may (modeUsage x.mode) && modeKey (modeOf x.mode) e) level
  else (s, if s.handleOk (slotOwner i) h then none else some 0x0402)

/-- Segments of one pass of a submission (R306). -/
def passSegs (k len aadlen : Nat) : Nat :=
  let extra := if k = 4 ∨ k = 5 then aadlen + 32 else if k = 3 then 16 else 0
  max 1 ((len + extra + 255) / 256)

/-- A RUN whose checks have passed is submitted. -/
def State.submit (i : Fin 128) (p : Fin 32) (level : Nat) (s : State) : State :=
  let x := (s.cipher.pages[i])[p]
  let first := modeFirst x.mode
  let msg : MsgCtx := if first then { mode := x.mode, iv := x.iv, aad := if modeAad (modeOf x.mode) then s.dmaRead i x.aad.toNat x.aadlen.toNat else [] }
    else x.msg.getD { mode := x.mode, iv := x.iv }
  let k := modeOf msg.mode
  let j : CipherJob := { mode := x.mode, src := x.src, dst := x.dst, len := x.len.toNat, aad := x.aad, aadlen := x.aadlen.toNat
                         input := s.dmaRead i x.src.toNat x.len.toNat, passes := if modeTwoPass msg.mode then 1 else 0
                         segs := passSegs k x.len.toNat x.aadlen.toNat }
  let s := s.updCp i p fun y => { y with busy := true, msg := some msg, job := some j, frange := 0
                                         level := if first then BitVec.ofNat 2 level else y.level, prog := if first then 0 else y.prog }
  { s with cipher := s.cipher.kick x.kind }

/-- The effective level (R303). -/
def State.cmLevel (x : CipherPage) (s : State) : Nat := max (modeCm x.mode) (s.param 0x0A00)

/-- RUN: the checks of Table 12-16 in order, then the use (R298). -/
def State.runCheck (i : Fin 128) (p : Fin 32) (s : State) : State :=
  let x := (s.cipher.pages[i])[p]
  match x.loaded with
  | none => s.cipherEnd i p 0x0402 id
  | some (h, e) =>
    let k := if modeFirst x.mode then modeOf x.mode else match x.msg with | some m => modeOf m.mode | none => modeOf x.mode
    if !modeFits x.mode (e.cls == 1) || !x.lengthsFit k e.block then s.cipherEnd i p 0x0108 id
    else
      let level := s.cmLevel x
      let ans := s.runKey i x h level
      let s := ans.1
      match ans.2 with
      | some st => s.cipherEnd i p st id
      | none => match s.cipherRanges i x k with
        | some (f, b) => (s.split i).cipherEnd i p 0x0308 fun y => { y with frange := f, fault := BitVec.ofNat 32 b }
        | none =>
          if modeFirst x.mode then
            let use := s.countUse i h
            if use.2 then use.1.submit i p level else s.cipherEnd i p 0x0501 id
          else s.submit i p level

def execCipherRun (slot : Fin 128) (page : Fin 32) (s : State) : Res :=
  .next <| s.cipherTake slot page 0x02 fun s =>
    ((s.updCp slot page fun x => { x with frange := 0 }).runCheck slot page).evictTo (s.lines slot) slot

def execCipherClear (slot : Fin 128) (page : Fin 32) (s : State) : Res :=
  .next <| s.cipherTake slot page 0x03 fun s =>
    s.cipherEnd slot page 0 fun x => { x with loaded := none, msg := none, iv := zeros 16, tag := zeros 16, prog := 0 }

/-- The tag of the submission's message agrees with the one expected (R301, R302). -/
def CipherPage.tagMatches (x : CipherPage) (j : CipherJob) : Bool :=
  match x.loaded, x.msg with
  | some (_, e), some m => modeTagOut m.mode e m.iv m.aad (m.data ++ j.input) == x.tag.take (modeTag m.mode)
  | _, _ => false

/-- A segment of a page ends: its output is written; the end of the checking pass decides on the writing one, which reads the
ranges again (R302). -/
def State.segmentEnd (i : Fin 128) (p : Fin 32) (s : State) : State :=
  let x := (s.cipher.pages[i])[p]
  match x.job with
  | none => s
  | some j =>
    let k := match x.msg with | some m => modeOf m.mode | none => 0
    let done := passSegs k j.len j.aadlen - (j.segs - 1)
    let data := if j.segs = 1 then j.len else min j.len (done * 256 - (if modeAad k then j.aadlen else 0))
    let s := s.cipherWrite i p data
    let s := s.updCp i p fun y => { y with job := y.job.map fun q => { q with segs := q.segs - 1 } }
    if j.segs = 1 ∧ j.passes = 1 ∧ x.tagMatches j then
      let input := s.dmaRead i j.src.toNat j.len
      let aad := s.dmaRead i j.aad.toNat j.aadlen
      s.updCp i p fun y => { y with
        job := y.job.map fun q => { q with passes := 0, segs := passSegs k j.len j.aadlen, input }
        msg := y.msg.map fun m => { m with aad } }
    else s

/-- A core finishes its segment and takes the next that waits. -/
def execCipherSegmentEnd (kind : CoreKind) (core : Fin 8) (s : State) : Res :=
  .next <|
    if s.live && (kind == .aes || decide (core.val < 2)) then
      let s := match s.cipher.core kind core with
        | none => s
        | some g =>
          let s := s.segmentEnd g.slot g.page
          { s with cipher := s.cipher.setCore kind core none }
      { s with cipher := s.cipher.take kind core }
    else s

/-- The message goes on, or ends, after a submission. -/
def CipherPage.finishRun (j : CipherJob) (x : CipherPage) : CipherPage :=
  let x := { x with prog := x.prog + BitVec.ofNat 32 j.len }
  if modeLast j.mode then { x with msg := none }
  else { x with msg := x.msg.map fun m => { m with data := m.data ++ j.input } }

/-- The tag is written at the end of a message that generates one. -/
def CipherPage.setTag (j : CipherJob) (x : CipherPage) : CipherPage :=
  match x.loaded, x.msg with
  | some (_, e), some m =>
    if modeLast j.mode ∧ modeTag m.mode ≠ 0 ∧ !modeDir m.mode then { x with tag := padTo 16 (modeTagOut m.mode e m.iv m.aad (m.data ++ j.input)) } else x
  | _, _ => x

/-- A submission whose last segment has ended completes. -/
def execCipherRunDone (slot : Fin 128) (page : Fin 32) (s : State) : Res :=
  .next <|
    let x := (s.cipher.pages[slot])[page]
    match x.job with
    | none => s
    | some j =>
      if s.live && x.busy && j.segs == 0 then
        let verify := modeLast j.mode && (match x.msg with | some m => modeDir m.mode && modeTag m.mode != 0 | none => false)
        if verify && (j.passes != 0 || !x.tagMatches j) then
          let s := if j.out ≠ 0 then s.dmaWrite slot j.dst.toNat (zeros j.out) else s
          s.cipherEnd slot page 0x0407 (CipherPage.finishRun j)
        else s.cipherEnd slot page 0 fun x => (x.setTag j).finishRun j
      else s

/-- ABORT ends the submission at its next block boundary (R308). -/
def execCipherAbort (slot : Fin 128) (page : Fin 32) (s : State) : Res :=
  .next <|
    if s.calls slot && s.unitPage slot (0x40000000 + 0x1000 * page.val) then
      if ((s.cipher.pages[slot])[page]).busy then ((s.cutCipher slot page).updCp slot page fun x => { x with op := 0x0F }).jobDone slot
      else s.updCp slot page fun x => { x with ignored := sat8 x.ignored }
    else s

/-! ### Countermeasure generators (R305, R318, R504) -/

/-- Each generator mixes in 256 bits from instance 145, while Mint is READY and the instance is healthy. -/
def execCmGeneratorReseed (s : State) : Res :=
  .next <|
    let q := ownDraw 145 32
    if s.live && s.mint.state == .ready && !(s.mint.insts[(145 : Fin 160)]).reseedReq then
      (List.finRange 13).foldl (fun (s : State) (n : Fin 13) =>
        if s.drawKind q false = .now then
          let b := (List.range 32).map (Config.mixGen s.power.cmGen[n] (s.drawOut q))
          let s := s.drawNow q
          { s with power := { s.power with cmGen := s.power.cmGen.set n b } }
        else s) s
    else s

end Sys2Proof.Machine
end

