-- ==== Sys2Proof/Machine/Link.lean ====
section
/-! DEFINITION. The Treor link: training, blocks, acknowledgement, credits, forwarding, reassembly and
notices (R151 to R172). -/

namespace Sys2Proof.Machine

/-! ### Fields of a block header (Table 06-4) -/

def LinkBlock.seq (b : LinkBlock) : BitVec 12 := b.hdr.extractLsb' 52 12
def LinkBlock.caddr (b : LinkBlock) : BitVec 6 := b.hdr.extractLsb' 46 6
def LinkBlock.bcast (b : LinkBlock) : Bool := b.hdr.getLsbD 45
def LinkBlock.cls (b : LinkBlock) : BitVec 2 := b.hdr.extractLsb' 43 2
def LinkBlock.kind (b : LinkBlock) : BitVec 3 := b.hdr.extractLsb' 40 3
def LinkBlock.first (b : LinkBlock) : Bool := b.hdr.getLsbD 39
def LinkBlock.last (b : LinkBlock) : Bool := b.hdr.getLsbD 38
def LinkBlock.len (b : LinkBlock) : Nat := (b.hdr.extractLsb' 29 9).toNat
/-- The valid payload bytes. -/
def LinkBlock.data (b : LinkBlock) : Bytes := b.payload.take b.len

/-- A header with its fields. -/
def blockHdr (seq : BitVec 12) (caddr : BitVec 6) (bcast : Bool) (cls : BitVec 2) (kind : BitVec 3)
    (first last : Bool) (len : Nat) : BitVec 64 :=
  seq ++ caddr ++ BitVec.ofBool bcast ++ cls ++ kind ++ BitVec.ofBool first ++ BitVec.ofBool last ++
    BitVec.ofNat 9 len ++ (0 : BitVec 29)

/-- The same block under another SEQ (R167). -/
def LinkBlock.withSeq (b : LinkBlock) (seq : BitVec 12) : LinkBlock :=
  { b with hdr := seq ++ b.hdr.extractLsb' 0 52 }

/-- Receive slots of a class (R163). -/
def classSlots (c : BitVec 2) : Nat := if c = 0 ∨ c = 3 then 8 else 24

/-! ### Symbols of the lanes (R152, R154, R159, R160) -/

/-- K27.7 before a block, K29.7 after a good one, K30.7 after a nullified one, K28.3 before an LCW (Table 06-1). -/
def sobCode : Code := ⟨true, 0xFB⟩
def eobCode : Code := ⟨true, 0xFD⟩
def ebdCode : Code := ⟨true, 0xFE⟩
def lcwCode : Code := ⟨true, 0x7C⟩

/-- The 268 bytes of a block (R158). -/
def LinkBlock.bytes (b : LinkBlock) : Bytes :=
  let m := leN 8 b.hdr.toNat ++ padTo 256 b.payload
  m ++ leN 4 (crc32c m).toNat

/-- The 12 bytes of an LCW (R160). -/
def Lcw.bytes (c : Lcw) : Bytes :=
  let m := [if c.nak then 0x02 else 0x01] ++ leN 2 c.aseq.toNat ++ [0] ++ c.free.toList
  m ++ leN 4 (crc32c m).toNat

/-- The 14 bytes of a training set (Table 06-2). -/
def TrainSet.bytes (t : TrainSet) : Bytes :=
  [t.step, t.lane, t.lmin, t.lmax, t.role, t.upaddr, t.laneMask, t.width, t.lsel, BitVec.ofNat 8 (b2n t.fresh + 2 * b2n t.ordered)] ++
    leN 2 t.nextSeq.toNat ++ [0, 0]

/-- The fields of 14 bytes. -/
def TrainSet.ofBytes (b : Bytes) : TrainSet :=
  { step := byteAt b 0, lane := byteAt b 1, lmin := byteAt b 2, lmax := byteAt b 3, role := byteAt b 4, upaddr := byteAt b 5
    laneMask := byteAt b 6, width := byteAt b 7, lsel := byteAt b 8, fresh := (byteAt b 9).getLsbD 0
    ordered := (byteAt b 9).getLsbD 1, nextSeq := BitVec.ofNat 12 (fld b 10 2) }

/-- The bytes of lane `i` of `w`: byte `k` of the whole travels on lane `k` mod `w` (R159). -/
def laneBytes (w i : Nat) (b : Bytes) : Bytes := (List.range ((b.length + w - 1 - i) / w)).map fun k => byteAt b (k * w + i)

/-- Bytes striped over `w` lanes, each framed by its first and last symbols. -/
def stripe (w : Nat) (first last : List Code) (b : Bytes) : List (List Code) :=
  (List.range w).map fun i => first ++ (laneBytes w i b).map dataCode ++ last

/-- The codes of a lane's symbols; a code violation or a disparity error gives none. -/
def LaneSyms.codes (x : LaneSyms) : Option (List Code) := decodeSyms x.rd x.syms

/-- The codes of all lanes. -/
def allCodes : List LaneSyms → Option (List (List Code))
  | [] => some []
  | x :: r => match x.codes, allCodes r with
    | some c, some cs => some (c :: cs)
    | _, _ => none

/-- The `n` data bytes that lanes framed by `first` and `last` carry; none where a lane has another count, another
delimiter or a control symbol inside. -/
def unstripe (n : Nat) (first last : List Code) (lanes : List (List Code)) : Option Bytes :=
  let w := lanes.length
  let inner (l : List Code) : List Code := (l.drop first.length).take (n / w)
  if w ≠ 0 ∧ lanes.all (fun l => l == first ++ inner l ++ last && (inner l).length == n / w && (inner l).all (!·.ctrl)) then
    some ((List.range n).map fun k => (((lanes.getD (k % w) []).drop first.length).getD (k / w) (dataCode 0)).byte)
  else none

/-- What a port makes of a received block (R159). -/
inductive BlockRx where
  | good (b : LinkBlock)
  | nullified
  | failed
  deriving DecidableEq, Repr

/-- A received block on a port of width `w`. -/
def rxBlock (w : Nat) (rx : List LaneSyms) : BlockRx :=
  match allCodes rx with
  | none => .failed
  | some ls =>
    if ls.length ≠ w then .failed
    else if ls.all fun l => l.head? == some sobCode && l.getLast? == some ebdCode && (l.drop 1).dropLast.all (!·.ctrl) then .nullified
    else match unstripe 268 [sobCode] [eobCode] ls with
      | none => .failed
      | some m =>
        let b : LinkBlock := { hdr := BitVec.ofNat 64 (leVal (m.take 8)), payload := slice m 8 256 }
        if fld m 264 4 ≠ (crc32c (m.take 264)).toNat ∨ b.len = 0 ∨ 256 < b.len ∨ b.hdr.extractLsb' 0 29 ≠ 0 then .failed
        else .good b

/-- A received LCW; none where it is ignored (R160). -/
def rxLcw (w : Nat) (rx : List LaneSyms) : Option Lcw :=
  match allCodes rx with
  | none => none
  | some ls =>
    if ls.length ≠ w then none
    else match unstripe 12 [lcwCode] [] ls with
      | none => none
      | some m =>
        if fld m 8 4 ≠ (crc32c (m.take 8)).toNat ∨ (byteAt m 0 ≠ 1 ∧ byteAt m 0 ≠ 2) then none
        else some { nak := byteAt m 0 == 2, aseq := BitVec.ofNat 12 (fld m 1 2), free := Vector.ofFn fun i => byteAt m (4 + i.val) }

/-- A training set begins with K28.5 and D10.2 (R154). -/
def setLead : List Code := [k28_5, dataCode 0x4A]

/-- The 14 bytes of a received training set; none where the 16 symbols are no set. -/
def rxSet (x : LaneSyms) : Option Bytes :=
  match x.codes with
  | none => none
  | some c => unstripe 14 setLead [] [c]

/-! ### Flags of a port, each with the HRB flag that follows it (R181) -/

/-- EVT_A.LINK_U or LINK_D. -/
def State.linkFlag (side : LinkSide) (s : State) : State :=
  match side with
  | .u => s.evA 0
  | .d => s.evA 1

def State.linkUpFlag (side : LinkSide) (s : State) : State :=
  (s.updLink side fun l => { l with evUp := l.evUp.hit }).linkFlag side
def State.linkDownFlag (side : LinkSide) (s : State) : State :=
  (s.updLink side fun l => { l with evDown := l.evDown.hit }).linkFlag side
def State.linkCauseFlag (side : LinkSide) (s : State) : State :=
  (s.updLink side fun l => { l with evCause := l.evCause.hit }).linkFlag side
def State.linkLaneFlag (side : LinkSide) (s : State) : State :=
  (s.updLink side fun l => { l with evLane := l.evLane.hit }).linkFlag side
def State.linkDiscardFlag (side : LinkSide) (s : State) : State :=
  (s.updLink side fun l => { l with evDiscard := l.evDiscard.hit }).linkFlag side

/-! ### Notices (R172) -/

/-- A NOTICE block for the transmit queue of port U. -/
def State.notice (event : Byte) (count : Nat) (detail : Bytes) (s : State) : State :=
  if s.released then
    s.send { src := .notice, kind := 3, cls := 3, bytes :=
      [event, s.link.addr.setWidth 8, s.link.d.state.setWidth 8, 0] ++ leN 4 count ++ padTo 16 detail }
  else s

/-! ### Slots of the receive buffers (R163) -/

/-- The port that faces the other way. -/
def LinkSide.other : LinkSide → LinkSide
  | .u => .d
  | .d => .u

/-- A slot of class `c` of a port is freed. -/
def LinkPort.release (l : LinkPort) (c : BitVec 2) : LinkPort :=
  { l with taken := l.taken.set c.toNat (l.taken[c.toNat] - 1), freed := l.freed.set c.toNat (l.freed[c.toNat] + 1) }

/-- Slots that blocks held on the port they came in by are freed. -/
def State.releaseAll (side : LinkSide) (bs : List LinkBlock) (s : State) : State :=
  bs.foldl (fun s b => s.updLink side.other fun l => l.release b.cls) s

/-! ### Port D goes down, ports retrain -/

/-- The first 16 bytes of each message among the waiting blocks of a class that no NOTICE has told of (R167). `start`: the next
block begins what is lost of its message. -/
def lostHeads : Bool → List FwdBlock → List Bytes
  | _, [] => []
  | start, f :: r => (if !f.told && (start || f.blk.first) then [f.head] else []) ++ lostHeads f.blk.last r

/-- Blocks held for port D are discarded: it is DOWN or reports a cause (R167). -/
def State.dropForD (s : State) : State :=
  let q := s.link.d.fwd
  let bs := q.toList.flatten
  let s := s.releaseAll .d ((bs.filter (·.slot)).map (·.blk))
  let s := s.updLink .u fun l =>
    { l with passing := Vector.ofFn fun c => match l.passing[c], q[c].getLast? with
        | some p, some f => some (if f.blk.last then p else { p with told := true })
        | p, _ => p }
  let s := s.updLink .d fun l => { l with fwd := Vector.replicate 4 [], cnt3 := l.cnt3.incHi bs.length }
  (q.toList.flatMap (lostHeads true)).foldl (fun s h => s.notice 4 0 h) s

/-- The state of port D changes: a NOTICE; a broadcast ENUM that waits is dropped silently where D leaves UP, and every block
that waits where it cannot come UP as it is (R167, R172). -/
def State.dState (st : BitVec 3) (s : State) : State :=
  if s.link.d.state = st then s
  else
    let s := (s.updLink .d fun l =>
      { l with state := st, fwd := if st = 2 then l.fwd else l.fwd.map fun q => q.filter fun f => !f.blk.bcast }).notice 3 0 []
    if st = 1 ∨ st = 2 then s else s.dropForD

/-- A port begins a training: step 1, its lanes unlocked, nothing on the wire. -/
def LinkPort.restart (l : LinkPort) : LinkPort :=
  { l with step := 0, rx := Vector.replicate 4 {}, laneMask := 0, width := 0, used := 0, lsel := 0, wire := none, nullified := none
           ackDue := false, nakDue := false, goBack := none, line := [] }

/-- Port U leaves UP: D stops driving at once (R153). -/
def State.uDown (s : State) : State :=
  let s := if s.link.d.state = 2 then s.linkDownFlag .d else s
  (s.updLink .d LinkPort.restart).dState 0

/-- A port that is UP retrains, keeping its sequence state (R165). -/
def State.retrain (side : LinkSide) (ordered : Bool) (s : State) : State :=
  if (s.linkPort side).state = 2 then
    let s := s.linkDownFlag side
    let s := s.updLink side fun l =>
      { l.restart with ordered, cleared := ordered, cnt2 := l.cnt2.incHi
                       failed := if ordered then 0 else l.failed, l2bar := l.l2bar && !ordered }
    match side with
    | .u => (s.updLink .u fun l => { l with state := 1 }).uDown
    | .d => s.dState 1
  else s

/-! ### Training sets (R155, R156) -/

/-- The width and the lanes used that two lane masks allow. -/
def linkWidth (m : BitVec 4) : BitVec 3 × BitVec 4 :=
  if m = 0xF then (4, 0xF)
  else if m &&& 0x3 = 0x3 then (2, 0x3)
  else if m &&& 0xC = 0xC then (2, 0xC)
  else if m &&& 0x1 ≠ 0 then (1, 0x1)
  else if m &&& 0x2 ≠ 0 then (1, 0x2)
  else if m &&& 0x4 ≠ 0 then (1, 0x4)
  else if m &&& 0x8 ≠ 0 then (1, 0x8)
  else (0, 0)

/-- The port reports a cause and returns to step 1; CAUSE tells that STATE has entered it (Table 07-9). -/
def State.linkCause (side : LinkSide) (st : BitVec 3) (s : State) : State :=
  let was := (s.linkPort side).state
  let s := s.updLink side LinkPort.restart
  let s := match side with
    | .u => s.updLink .u fun l => { l with state := st }
    | .d => s.dState st
  if was = st then s else s.linkCauseFlag side

/-- The address that a training of port U gives (R156): above 63 it is none. -/
def takeAddr (up : Byte) : Option (BitVec 6) :=
  if up = 0x7F then some 0
  else if up.toNat + 1 ≤ 63 then some (BitVec.ofNat 6 (up.toNat + 1)) else none

/-- The device adopts its address: D, which is DOWN while U trains (R153), trains after it and passes it on, and a NOTICE
follows once U is UP (R156). -/
def State.adopt (a : BitVec 6) (s : State) : State :=
  if s.link.addrHeld = some a then s
  else
    let old := s.link.addrHeld
    ({ s with link := { s.link with addr := a, addrHeld := some a, addrNote := some (match s.link.addrNote with | some o => o | none => old) } }).retrain .d false

/-- What waits on port U and goes when the host is FRESH: responses and events (R195). -/
def OutSrc.goesFresh : OutSrc → Bool
  | .response | .devEvent | .mbxMsg | .bayRecord | .envOut => true
  | .regAnswer | .enumReply | .notice => false

/-- Blocks that a number of bytes takes. -/
def blocksOf (n : Nat) : Nat := (n + 255) / 256

/-- The blocks of responses and events that have not been sent. -/
def LinkPort.ownBlocks (l : LinkPort) : Nat :=
  (l.own.toList.map fun q => ((q.filter (·.src.goesFresh)).map fun m => blocksOf (m.bytes.length - m.sent)).sum).sum

/-- The blocks of messages partly reassembled. -/
def LinkPort.openBlocks (l : LinkPort) : Nat := (l.openMsg.toList.map fun o => match o with | none => 0 | some m => blocksOf m.bytes.length).sum

/-- Sequence state at UP (R164). -/
def State.linkSeqUp (side : LinkSide) (fresh : Bool) (next : BitVec 12) (s : State) : State :=
  let l := s.linkPort side
  let slots (c : Nat) (t : Nat) : BitVec 8 := BitVec.ofNat 8 (classSlots (BitVec.ofNat 2 c) - t)
  let s := s.updLink side fun l =>
    { l with sent := Vector.replicate 4 0, free := Vector.replicate 4 0
             freed := Vector.ofFn fun c => slots c.val l.taken[c] }
  if l.fresh then
    s.updLink side fun l =>
      { l with seq := 0, expect := 0, unacked := [], goBack := none, fresh := false
               openMsg := Vector.replicate 4 none, passing := Vector.replicate 4 none }
  else if fresh then
    let waitU := match side with | .u => l.ownBlocks | .d => 0
    let n := l.unacked.length + l.openBlocks + waitU
    let s := s.releaseAll side ((l.unacked.filter (·.slot)).map (·.blk))
    let s := s.updLink side fun l =>
      { l with seq := 0, expect := 0, unacked := [], goBack := none
               openMsg := Vector.replicate 4 none, passing := Vector.replicate 4 none
               cnt3 := l.cnt3.incHi n
               own := match side with | .u => l.own.map fun q => q.filter fun m => !m.src.goesFresh | .d => l.own }
    let s := if n ≠ 0 then s.linkDiscardFlag side else s
    match side with
    | .d => if n ≠ 0 then s.notice 5 n [] else s
    | .u => ({ s with treor := { s.treor with session := none } }).eventsLost
  else
    let kept := l.unacked.dropWhile fun b => b.blk.seq ≠ next
    let gone := l.unacked.take (l.unacked.length - kept.length)
    let s := s.releaseAll side ((gone.filter (·.slot)).map (·.blk))
    s.updLink side fun l =>
      { l with unacked := kept.map fun b => { b with counted := false, sends := 0 }
               goBack := if kept.isEmpty then none else some 0 }

/-- The port is UP (step 4): the ADDRESS notice that waits for it and the first RESET notice go, and D is trained. -/
def State.linkUp (side : LinkSide) (fresh : Bool) (next : BitVec 12) (s : State) : State :=
  let s := s.linkSeqUp side fresh next
  let s := match side with
    | .u => s.updLink .u fun l => { l with state := 2 }
    | .d => s.dState 2
  let s := s.updLink side fun l => { l with ordered := false, cleared := false, ackDue := true }
  let s := s.linkUpFlag side
  match side with
  | .d => s
  | .u =>
    let s := if s.link.everUp then s else { s.notice 1 0 [] with link := { (s.notice 1 0 []).link with everUp := true } }
    let s : State := match s.link.addrNote with
      | none => s
      | some old =>
        let s := s.notice 2 0 [match old with | some o => o.setWidth 8 | none => 0xFF]
        { s with link := { s.link with addrNote := none } }
    if s.link.d.state = 0 then (s.updLink .d LinkPort.restart).dState 1 else s

/-- The port enters a step of its training: the count of sets in it begins anew. -/
def LinkPort.toStep (n : BitVec 2) (l : LinkPort) : LinkPort := { l with step := n, rx := l.rx.map fun r => { r with since := 0 } }

/-- The number of a receive lane: its place among the lanes of the width for the sets of STEP 3, which are sent on those alone
(R155, R159), else its own. -/
def LinkPort.laneNo (l : LinkPort) (lane : Fin 4) (step : Byte) : Nat :=
  if step = 3 ∧ l.used.getLsbD lane then (List.range lane.val).countP fun i => l.used.getLsbD i else lane.val

/-- The set that a receive lane accepts: 8 identical ones in a row with the lane's own number (R154). In step 2 the first 16 pass
before the lanes have switched (R155). -/
def LinkPort.accepted (l : LinkPort) (lane : Fin 4) : Option TrainSet :=
  let r := l.rx[lane]
  let t := TrainSet.ofBytes r.set
  let run := if l.step = 2 then min r.run (r.since - 16) else r.run
  if 8 ≤ run ∧ t.lane.toNat = l.laneNo lane t.step then some t else none

/-- Every lane of the width accepts sets of a step. -/
def LinkPort.allAccept (l : LinkPort) (step : Byte) : Bool :=
  (List.finRange 4).all fun n => !l.used.getLsbD n || (match l.accepted n with | some t => t.step == step | none => false)

/-- Sets sent since the port entered its step: as many as came in. -/
def LinkPort.setsSent (l : LinkPort) : Nat := (l.rx.toList.map (·.since)).foldl max 0

/-- CONFIG (R155, R156): roles, version, address and width, the first that fails deciding. -/
def State.linkConfig (side : LinkSide) (ts : TrainSet) (s : State) : State :=
  let l := s.linkPort side
  let roleOk : Bool := match side with | .u => ts.role == 0 || ts.role == 2 | .d => ts.role == 1
  if !roleOk then s.linkCause side 4
  else
    let lsel := min (if l.l2bar then 1 else 2) ts.lmax.toNat
    if lsel < max 1 ts.lmin.toNat then s.linkCause side 3
    else
      let (w, used) := linkWidth (l.laneMask &&& ts.laneMask.setWidth 4)
      if w = 0 then s
      else
        let config (s : State) : State :=
          let s := s.updLink side fun l =>
            { l with width := w, used, lsel := BitVec.ofNat 2 lsel }.toStep (if lsel = 2 then 2 else 3)
          match side with
          | .u => s.updLink .u fun l => { l with state := 1 }
          | .d => s.dState 1
        match side with
        | .d => config s
        | .u => match takeAddr ts.upaddr with
          | none => s.linkCause .u 5
          | some a => config (s.adopt a)

/-- A training set that a receive lane accepts, on a port in training (R155). -/
def State.linkTrain (side : LinkSide) (lane : Fin 4) (ts : TrainSet) (s : State) : State :=
  let bit : BitVec 4 := 1 <<< lane.val
  let s := s.updLink side fun l =>
    let l := if ts.ordered ∧ !l.cleared then { l with failed := 0, l2bar := false, cleared := true } else l
    let l := { l with laneMask := l.laneMask ||| (bit &&& ~~~ l.failed) }
    if l.step = 0 ∧ l.laneMask ≠ 0 then l.toStep 1 else l
  let l := s.linkPort side
  if l.step = 1 then if 1 ≤ ts.step.toNat then s.linkConfig side ts else s
  else if l.step = 2 then if l.allAccept 2 then s.updLink side (LinkPort.toStep 3) else s
  else if l.step = 3 ∧ l.allAccept 3 ∧ 8 ≤ l.setsSent then s.linkUp side ts.fresh ts.nextSeq
  else s

/-- `count` identical training sets have come on a lane. -/
def LinkPort.hearSets (l : LinkPort) (lane : Fin 4) (set : Bytes) (count : Nat) : LinkPort :=
  let r := l.rx[lane]
  { l with rx := l.rx.set lane { set, run := (if r.set = set then r.run else 0) + count, since := r.since + count } }

/-- Training sets come on a lane, `count` times the same (R154); on a port that is UP they begin a retrain (R165). -/
def execLinkTrainingSet (side : LinkSide) (lane : Fin 4) (set : LaneSyms) (count : Nat) (s : State) : Res :=
  .next <|
    match rxSet set with
    | none => if s.released then s.updLink side fun l => { l with rx := l.rx.set lane { l.rx[lane] with set := [], run := 0 } } else s
    | some b =>
      if s.released ∧ (s.linkPort side).state ≠ 0 then
        let s := s.retrain side (TrainSet.ofBytes b).ordered
        let s := s.updLink side fun l => l.hearSets lane b count
        match (s.linkPort side).accepted lane with
        | some ts => s.linkTrain side lane ts
        | none => s
      else s

/-- The training set that a port sends on a lane (Table 06-2). -/
def State.sendSet (side : LinkSide) (lane : Fin 4) (s : State) : TrainSet :=
  let l := s.linkPort side
  { step := l.step.setWidth 8, lane := BitVec.ofNat 8 (l.laneNo lane (l.step.setWidth 8)), lmin := 1, lmax := if l.l2bar then 1 else 2
    role := match side with | .u => 1 | .d => 2
    upaddr := match side with | .u => 0xFF | .d => s.link.addr.setWidth 8
    laneMask := l.laneMask.setWidth 8, width := if l.step = 0 then 0 else l.width.setWidth 8
    lsel := if l.step = 0 then 0 else l.lsel.setWidth 8, fresh := l.fresh, ordered := l.ordered, nextSeq := l.expect }

/-- What a port drives, the codes of each lane: nothing while DOWN, training sets on all four lanes, in step 3 on the lanes of
the width, and while UP the block or LCW sent last (idle sets stand between, Table 06-1). -/
def State.driven (side : LinkSide) (s : State) : List (List Code) :=
  let l := s.linkPort side
  if l.state = 0 then []
  else if l.state = 2 then l.line
  else ((List.finRange 4).filter fun n => l.step != 3 || l.used.getLsbD n.val).map fun n =>
    setLead ++ (s.sendSet side n).bytes.map dataCode

/-- A training that is not UP within 10 ms restarts at step 1 (R155). -/
def execLinkTrainingTimeout (side : LinkSide) (s : State) : Res :=
  .next <|
    if s.released ∧ (s.linkPort side).state ≠ 0 ∧ (s.linkPort side).state ≠ 2 then
      s.updLink side fun l => { l.restart with cnt2 := l.cnt2.incLo }
    else s

/-- The L2 sets were not accepted within 1 ms: step 1 with L2 barred (R155). -/
def execLinkRateTimeout (side : LinkSide) (s : State) : Res :=
  .next <|
    if s.released ∧ (s.linkPort side).state ≠ 0 ∧ (s.linkPort side).state ≠ 2 ∧ (s.linkPort side).step = 2 then
      s.updLink side fun l => { l.restart with l2bar := true }
    else s

def execLaneErrorRetrain (side : LinkSide) (lane : Fin 4) (s : State) : Res :=
  .next <| if s.released && (s.linkPort side).used.getLsbD lane then s.retrain side false else s

/-- Sixteen errors within 1 ms: the lane is marked failed until an ordered training, and a port that uses it retrains
(R165). -/
def execLaneFail (side : LinkSide) (lane : Fin 4) (s : State) : Res :=
  .next <|
    if s.released then
      let bit : BitVec 4 := 1 <<< lane.val
      let inUse := (s.linkPort side).used.getLsbD lane
      let s := s.updLink side fun l => { l with failed := l.failed ||| bit, laneMask := l.laneMask &&& ~~~ bit }
      let s := s.linkLaneFlag side
      if inUse then s.retrain side false else s
    else s

/-- The REG answer that an ordered retrain waits for is acknowledged: it waits nowhere on port U (R178). -/
def LinkPort.orderAcked (l : LinkPort) : Bool :=
  l.own.toList.all (fun q => q.all fun m => !m.order) && l.unacked.all (fun b => !b.order)

/-- The retrain that a write of HRB_LNKx_CTRL.RETRAIN has asked for, once the REG answer is acknowledged or, with `late`, 20 µs
after it was sent (R178). -/
def execHostOrderedRetrain (side : LinkSide) (late : Bool) (s : State) : Res :=
  .next <|
    let l := s.linkPort side
    if s.released ∧ l.orderPend ∧ l.state = 2 ∧ (late ∨ l.orderAcked) then
      (s.updLink side fun l => { l with orderPend := false }).retrain side true
    else s

/-! ### Link control words (R160 to R163) -/

/-- The blocks of the window before position `n` are released. -/
def State.ackTo (side : LinkSide) (n : Nat) (s : State) : State :=
  let gone := (s.linkPort side).unacked.take n
  let s := s.releaseAll side ((gone.filter (·.slot)).map (·.blk))
  s.updLink side fun l =>
    { l with unacked := l.unacked.drop n
             goBack := match l.goBack with
               | none => none
               | some k => if l.unacked.length ≤ n then none else some (k - n) }

/-- The position of an ASEQ in the window. -/
def LinkPort.window (l : LinkPort) (aseq : BitVec 12) : Option Nat := l.unacked.findIdx? fun b => b.blk.seq == aseq

/-- An LCW of the other kind, or one that is ignored, does nothing here. -/
def execLcwAck (side : LinkSide) (rx : List LaneSyms) (s : State) : Res :=
  .next <|
    match rxLcw (s.linkPort side).width.toNat rx with
    | none => s
    | some c =>
      if s.released ∧ (s.linkPort side).state = 2 ∧ !c.nak then
        let s := s.updLink side fun l => { l with free := c.free }
        match (s.linkPort side).window c.aseq with
        | some k => s.ackTo side (k + 1)
        | none => s.updLink side fun l => { l with cnt3 := l.cnt3.incLo }
      else s

/-- A go-back re-send of the whole window, or a retrain where its oldest block has been sent 8 times. -/
def State.goBackAll (side : LinkSide) (s : State) : State :=
  match (s.linkPort side).unacked with
  | [] => s
  | b :: _ => if 8 ≤ b.sends then s.retrain side false else s.updLink side fun l => { l with goBack := some 0 }

def execLcwNak (side : LinkSide) (rx : List LaneSyms) (s : State) : Res :=
  .next <|
    match rxLcw (s.linkPort side).width.toNat rx with
    | none => s
    | some c =>
      if s.released ∧ (s.linkPort side).state = 2 ∧ c.nak then
        let s := s.updLink side fun l => { l with free := c.free, cnt0 := l.cnt0.incLo }
        match (s.linkPort side).window c.aseq with
        | some k => (s.ackTo side k).goBackAll side
        | none => s.updLink side fun l => { l with cnt3 := l.cnt3.incLo }
      else s

def execResendTimer (side : LinkSide) (s : State) : Res :=
  .next <| if s.released ∧ (s.linkPort side).state = 2 then s.goBackAll side else s

/-- An LCW at least every 8 µs (R160): an ACK of what has been accepted. -/
def execLcwSendTimer (side : LinkSide) (s : State) : Res :=
  .next <|
    if s.released ∧ (s.linkPort side).state = 2 then
      s.updLink side fun l => { l with ackDue := true }
    else s

/-! ### Sending (R166) -/

/-- The next block of the own messages of a class. -/
def ownNext (addr : BitVec 6) (q : List OutMsg) : Option LinkBlock :=
  match q with
  | [] => none
  | m :: _ =>
    let part := slice m.bytes m.sent 256
    some { hdr := blockHdr 0 addr false m.cls m.kind (m.sent == 0) (m.bytes.length ≤ m.sent + 256) part.length,
           payload := padTo 256 part }

/-- The block of class `c` that is next on a port, and whether it is a forwarded one: port U alternates, but a nullified block
goes again before another of its class (R166). -/
def LinkPort.next (l : LinkPort) (addr : BitVec 6) (c : Fin 4) : Option (LinkBlock × Bool) :=
  let fwTurn := match l.nullified with | some (n, fw) => if n = c then fw else l.fwdTurn[c] | none => l.fwdTurn[c]
  match ownNext addr l.own[c], l.fwd[c] with
  | none, [] => none
  | some b, [] => some (b, false)
  | none, f :: _ => some (f.blk, true)
  | some b, f :: _ => if fwTurn then some (f.blk, true) else some (b, false)

/-- Sending credit of a class (R163). -/
def LinkPort.credit (l : LinkPort) (c : Fin 4) : BitVec 8 := l.free[c] - l.sent[c]

/-- A class that may start a block. -/
def LinkPort.ready (l : LinkPort) (addr : BitVec 6) (c : Fin 4) : Bool :=
  (l.next addr c).isSome && l.credit c != 0 && decide (l.unacked.length < 32)

/-- The class at a place of the weighted round robin over 4, 2 and 1 blocks. -/
def robinClass (n : Nat) : Fin 4 := [1, 1, 1, 1, 2, 2, 3].getD (n % 7) 1

/-- The first ready class from a place of the round robin on, and the place after it. -/
def LinkPort.robinPick (l : LinkPort) (addr : BitVec 6) : Nat → Nat → Option (Fin 4 × Nat)
  | 0, _ => none
  | k + 1, n =>
    if l.ready addr (robinClass n) then some (robinClass n, (n + 1) % 7) else l.robinPick addr k ((n + 1) % 7)

/-- The first block of an own message begins (R180, R195, R198): its doorbell and flags; `lat` is the time
from the last block of its request. -/
def State.begins (m : OutMsg) (lat : Nat) (s : State) : State :=
  match m.src with
  | .response =>
    if m.cls = 0 ∧ s.hrb.cl0MaxLat.toNat < lat then
      { s with hrb := { s.hrb with cl0MaxLat := BitVec.ofNat 8 (min lat 255) } }
    else s
  | .devEvent | .mbxMsg | .bayRecord | .envOut =>
    let s := { s with hrb := { s.hrb with dbSent := s.hrb.dbSent.set m.cls.toNat s.hrb.dbSent[m.cls.toNat].hit } }
    s.evA 2
  | .regAnswer | .enumReply | .notice => s

/-- The MID named by an ENV_OUT message of KIND CONFIRM, whose sending lets an imported slot start (R492). -/
def State.confirmBegun (m : OutMsg) (s : State) : State :=
  if m.src = .envOut ∧ byteAt m.bytes (16 + 5) = 2 then
    let mark (x : Imported) : Imported :=
      if x.mid.toNat = fld m.bytes (16 + 48) 8 then { x with begun := true } else x
    { s with bqt := { s.bqt with imported := s.bqt.imported.map (Option.map mark) } }
  else s

/-- A block of class `c` starts on the wire. -/
def State.startBlock (side : LinkSide) (c : Fin 4) (lat : Nat) (s : State) : State :=
  let l := s.linkPort side
  match l.next s.link.addr c with
  | none => s
  | some (b, fw) =>
    let b := b.withSeq l.seq
    let slot := fw && (match l.fwd[c] with | f :: _ => f.slot | [] => false)
    let order := !fw && (match l.own[c] with | m :: _ => m.order | [] => false)
    let s := s.updLink side fun l =>
      { l with wire := some { blk := b, first := true, forwarded := fw, slot, order }, line := stripe l.width.toNat [sobCode] [eobCode] b.bytes
               nullified := match l.nullified with | some (n, _) => if n = c then none else l.nullified | none => none }
    match fw, l.own[c] with
    | false, m :: _ =>
      if m.begun then s
      else
        let s := s.updLink side fun l => { l with own := l.own.set c ({ m with begun := true } :: l.own[c].tail) }
        (((s.begins m lat).confirmBegun m).eventsLost)
    | _, _ => s

/-- A block that ends with EOB (R161 to R163): a first transmission joins the window, takes its SEQ and its
credit and leaves its queue; a re-send takes its credit where it has none since the last UP. -/
def LinkPort.finish (l : LinkPort) : LinkPort :=
  match l.wire with
  | none => l
  | some w =>
    let c := w.blk.cls.toFin
    if w.first then
      let l := { l with wire := none, seq := l.seq + 1, sent := l.sent.set c (l.sent[c] + 1),
                        unacked := l.unacked ++ [SentBlock.mk w.blk 1 w.slot true w.order],
                        fwdTurn := l.fwdTurn.set c (!w.forwarded) }
      if w.forwarded then { l with fwd := l.fwd.set c l.fwd[c].tail }
      else match l.own[c] with
        | [] => l
        | m :: r =>
          if m.bytes.length ≤ m.sent + 256 then { l with own := l.own.set c r }
          else { l with own := l.own.set c ({ m with sent := m.sent + 256 } :: r) }
    else
      { l with wire := none, sent := if w.counted then l.sent else l.sent.set c (l.sent[c] + 1)
               unacked := l.unacked.map fun b => if b.blk = w.blk then { b with counted := true } else b }

/-- The next block of the go-back re-send that may be sent. -/
def LinkPort.resend (l : LinkPort) : Option (Nat × SentBlock) :=
  match l.goBack with
  | none => none
  | some k => match l.unacked[k]? with
    | none => none
    | some b => if b.counted || l.credit b.blk.cls.toFin != 0 then some (k, b) else none

/-- The LCW that goes next, with its values of now: a NAK first (R160, R161). -/
def LinkPort.nextLcw (l : LinkPort) : Option Lcw :=
  if l.nakDue then some { nak := true, aseq := l.expect, free := l.freed }
  else if l.ackDue then some { nak := false, aseq := l.expect - 1, free := l.freed } else none

/-- The class that sends next of 1, 2 and 3, and the place of the round robin after it: the nullified block's, then by turn
(R166). -/
def LinkPort.pickLow (l : LinkPort) (addr : BitVec 6) : Option (Fin 4 × Nat) :=
  match l.nullified with
  | some (c, _) => if l.ready addr c then some (c, l.robin) else none
  | none => l.robinPick addr 7 l.robin

/-- What a port sends at a block boundary, in the order of R166. -/
def State.sendNext (side : LinkSide) (lat : Nat) (s : State) : State :=
  let l := s.linkPort side
  match l.nextLcw with
  | some c =>
    s.updLink side fun l =>
      { l with ackDue := l.ackDue && c.nak, nakDue := false, lastLcw := some c, line := stripe l.width.toNat [lcwCode] [] c.bytes
               cnt0 := if c.nak then l.cnt0.incHi else l.cnt0 }
  | none => match l.resend with
    | some (k, b) =>
      s.updLink side fun l =>
        { l with wire := some { blk := b.blk, first := false, slot := b.slot, counted := b.counted, order := b.order }
                 line := stripe l.width.toNat [sobCode] [eobCode] b.blk.bytes
                 unacked := l.unacked.set k { b with sends := b.sends + 1 }
                 goBack := if k + 1 < l.unacked.length then some (k + 1) else none
                 cnt1 := l.cnt1.incHi }
    | none =>
      if l.ready s.link.addr 0 then s.startBlock side 0 lat
      else match l.pickLow s.link.addr with
        | some (c, n) => (s.startBlock side c lat).updLink side fun l => { l with robin := n }
        | none => s

/-- A block boundary (`atEnd`), or the symbol at which a class-0 block nullifies the block on the wire. -/
def execBlockSent (side : LinkSide) (atEnd : Bool) (latency : Nat) (s : State) : Res :=
  .next <|
    if s.released ∧ (s.linkPort side).state = 2 then
      if atEnd then (s.updLink side LinkPort.finish).sendNext side latency
      else
        let l := s.linkPort side
        match l.wire with
        | some w =>
          if w.first && w.blk.cls != 0 && l.ready s.link.addr 0 then
            (s.updLink side fun l => { l with wire := none, nullified := some (w.blk.cls.toFin, w.forwarded), cnt1 := l.cnt1.incLo }).startBlock
              side 0 latency
          else s
        | none => s
    else s

/-! ### Receiving -/

/-- The request that a whole message spells, with its opcode (Table 08-1). -/
def parseReq (wire : BitVec 2) (m : Bytes) : BitVec 16 × Req :=
  let fl := byteAt m 1
  let tg := BitVec.ofNat 16 (fld m 4 2)
  (BitVec.ofNat 16 (fld m 12 2),
   { wire, major := byteAt m 0, cls := fl.extractLsb' 0 2, rsp := fl.getLsbD 2, evt := fl.getLsbD 3
     rsvd := fl.extractLsb' 4 4, kind := tg.extractLsb' 14 2, index := tg.extractLsb' 0 14
     epoch := BitVec.ofNat 16 (fld m 6 2), tag := BitVec.ofNat 32 (fld m 8 4)
     status := BitVec.ofNat 16 (fld m 14 2), body := m.drop 16 })

/-- A whole message (R169): a request of the opcode table waits for its own command; an opcode that is none,
or an event's, has no effect to put in order and is refused as it arrives (Table 08-3, log 73). -/
def State.deliver (wire : BitVec 2) (m : Bytes) (s : State) : State :=
  let (op, r) := parseReq wire m
  match opTarget op with
  | some _ => { s with link := { s.link with delivered := s.link.delivered ++ [.message op r] } }
  | none => s.requestNow op r true id

/-- The device answers the host tag of a message whose blocks do not add up (R169). -/
def State.badLength (wire : BitVec 2) (m : Bytes) (s : State) : State :=
  let s := { s with hrb := { s.hrb with msgErr := s.hrb.msgErr.incHi } }
  if 16 ≤ m.length then
    let (op, r) := parseReq wire m
    s.respond r op 0x0101 []
  else s

/-- A MSG block for the device (R169). -/
def State.takeMsg (b : LinkBlock) (s : State) : State :=
  let c := b.cls.toFin
  let openNow := s.link.u.openMsg[c]
  let setOpen (o : Option OpenMsg) (s : State) : State := s.updLink .u fun l => { l with openMsg := l.openMsg.set c o }
  let finish (m : Bytes) (s : State) : State :=
    if b.last then
      let s := setOpen none s
      if 16 ≤ m.length ∧ m.length ≤ 4096 ∧ m.length = fld m 2 2 then s.deliver b.cls m else s.badLength b.cls m
    else setOpen (some ⟨m⟩) s
  if b.first then
    let s := if openNow.isSome then { s with hrb := { s.hrb with msgErr := s.hrb.msgErr.incHi } } else s
    finish b.data s
  else match openNow with
    | none => s
    | some o => finish (o.bytes ++ b.data) s

/-- A block taken by the device itself: a MSG block is consumed at once, the others hold their slot until their own command
consumes them (R163). -/
def State.takeBlock (b : LinkBlock) (s : State) : State :=
  let c := b.cls.toFin
  if b.kind = 0 then (s.updLink .u fun l => { l with freed := l.freed.set c (l.freed[c] + 1) }).takeMsg b
  else
    let s := s.updLink .u fun l => { l with taken := l.taken.set c (l.taken[c] + 1) }
    { s with link := { s.link with delivered := s.link.delivered ++ [if b.kind = 1 then Delivered.reg b else Delivered.enumer b] } }

/-- A block that was delivered is consumed. -/
def State.consume (d : Delivered) (b : LinkBlock) (s : State) : State :=
  ({ s with link := { s.link with delivered := s.link.delivered.erase d } }).updLink .u fun l => l.release b.cls

/-- A block discarded and counted (R158, R167); its slot is freed at once. -/
def State.dropBlock (side : LinkSide) (b : LinkBlock) (s : State) : State :=
  s.updLink side fun l => { l with cnt3 := l.cnt3.incHi, freed := l.freed.set b.cls.toFin (l.freed[b.cls.toFin] + 1) }

/-- What is known of the downstream message that a block belongs to (R167). -/
def LinkPort.passingOf (l : LinkPort) (b : LinkBlock) : Passing :=
  if b.first then { head := b.data.take 16 } else l.passing[b.cls.toFin].getD { head := b.data.take 16, told := true }

/-- The downstream message goes on, or has ended. -/
def LinkPort.pass (l : LinkPort) (b : LinkBlock) (p : Passing) : LinkPort :=
  { l with passing := l.passing.set b.cls.toFin (if b.last then none else some p) }

/-- A downstream block that its routing discards: one NOTICE for its message (R167). -/
def State.unreachable (b : LinkBlock) (s : State) : State :=
  let p := s.link.u.passingOf b
  let s := (s.dropBlock .u b).updLink .u fun l => l.pass b { p with told := true }
  if p.told then s else s.notice 4 0 p.head

/-- A block joins the queue of the other port and, with `slot`, holds its slot until it is released there. -/
def State.forward (side : LinkSide) (b : LinkBlock) (slot : Bool) (p : Passing) (s : State) : State :=
  let c := b.cls.toFin
  let s := if slot then s.updLink side fun l => { l with taken := l.taken.set c (l.taken[c] + 1) } else s
  s.updLink side.other fun l => { l with fwd := l.fwd.set c (l.fwd[c] ++ [{ blk := b, head := p.head, told := p.told, slot }]) }

/-- Where a good block goes (R158, R167). The copy of a broadcast that is forwarded holds no slot: the device's own holds it. -/
def State.route (side : LinkSide) (b : LinkBlock) (s : State) : State :=
  let addr := s.link.addr
  match side with
  | .u =>
    if b.kind.toNat ≥ 3 ∨ (b.bcast ∧ b.kind ≠ 2) then s.dropBlock .u b
    else if b.bcast then
      if s.link.d.state = 2 then (s.takeBlock b).forward .u b false { head := b.data.take 16 } else s.takeBlock b
    else if b.caddr = addr then s.takeBlock b
    else if addr < b.caddr ∧ (s.link.d.state = 1 ∨ s.link.d.state = 2) then
      let p := s.link.u.passingOf b
      (s.updLink .u fun l => l.pass b p).forward .u b true p
    else s.unreachable b
  | .d =>
    if b.kind.toNat ≥ 4 ∨ b.bcast ∨ b.caddr ≤ addr then s.dropBlock .d b
    else s.forward .d b true { head := b.data.take 16 }

/-- A block arrives, as the symbols of the lanes of the width (R159, R161, R163). -/
def execLinkBlock (side : LinkSide) (rx : List LaneSyms) (s : State) : Res :=
  .next <|
    let l := s.linkPort side
    if s.released ∧ l.state = 2 then
      match rxBlock l.width.toNat rx with
      | .nullified => s
      | .failed => s.updLink side fun l => { l with nakDue := true }
      | .good b =>
        if b.seq = l.expect then
          if l.taken[b.cls.toFin] ≥ classSlots b.cls then s.retrain side false
          else (s.updLink side fun l => { l with expect := l.expect + 1, ackDue := true }).route side b
        else if (l.expect - b.seq).toNat ≤ 32 then s.updLink side fun l => { l with ackDue := true }
        else s.updLink side fun l => { l with nakDue := true }
    else s

/-! ### Chain discovery (R171) -/

/-- The ENUM reply to the ENUM block that was delivered first. -/
def execEnumBlock (s : State) : Res :=
  .next <|
    match s.link.delivered.find? fun d => match d with | .enumer _ => true | _ => false with
    | some (.enumer b) =>
      let s := s.consume (.enumer b) b
      let s := { s with link := { s.link with etag := some (BitVec.ofNat 32 (fld b.data 0 4)) } }
      let l := s.link
      let place : Bytes := [l.addr.setWidth 8, l.d.state.setWidth 8, l.u.width.setWidth 8, l.u.lsel.setWidth 8]
      let reply := leN 4 (fld b.data 0 4) ++ place ++ padTo 16 s.lc.unitId ++ leN 4 0xC512B101 ++ [1, 2, 0, 0]
      if s.released then s.send { src := .enumReply, kind := 2, cls := b.cls, bytes := reply } else s
    | _ => s

end Sys2Proof.Machine
end

