-- ==== Sys2Proof/Machine/Sprig.lean ====
section
/-! DEFINITION. Sprig ports and the sprig link: frames, windows, acknowledgement, training, pings and port states (R29 to
R59). -/

namespace Sys2Proof.Machine

abbrev State.updSprig (s : State) (f : Sprig → Sprig) : State := { s with sprig := f s.sprig }

/-! ### Items and windows on the wire (R34 to R36, R45) -/

/-- Symbols packed four to a byte, the first in bits [1:0]. -/
def packSyms : List (BitVec 2) → Bytes
  | [] => []
  | [a] => [a.setWidth 8]
  | [a, b] => [BitVec.ofNat 8 (a.toNat + 4 * b.toNat)]
  | [a, b, c] => [BitVec.ofNat 8 (a.toNat + 4 * b.toNat + 16 * c.toNat)]
  | a :: b :: c :: d :: r => BitVec.ofNat 8 (a.toNat + 4 * b.toNat + 16 * c.toNat + 64 * d.toNat) :: packSyms r

/-- The bytes of a downlink item (Table 02-5). -/
def DownItem.bytes : DownItem → Bytes
  | .txs t prof cont s15 e15 syms =>
    let b := leN 4 t.toNat ++ [prof, BitVec.ofNat 8 (b2n cont + 2 * b2n s15 + 4 * b2n e15), BitVec.ofNat 8 syms.length] ++ packSyms syms
    [1, BitVec.ofNat 8 b.length] ++ b
  | .fld t on ant => [2, 6] ++ leN 4 t.toNat ++ [BitVec.ofNat 8 (b2n on), BitVec.ofNat 8 (b2n ant)]
  | .png t dur ant => [3, 7] ++ leN 4 t.toNat ++ leN 2 dur.toNat ++ [ant.setWidth 8]
  | .rxc o c prof => [4, 9] ++ leN 4 o.toNat ++ leN 4 c.toNat ++ [prof]
  | .can => [5, 0]
  | .cfg key v => [6, 3, key] ++ leN 2 v.toNat
  | .stq => [7, 0]

/-- The KIND code of a block (Table 02-4). -/
def SprigKind.code : SprigKind → Nat
  | .idle => 0 | .data => 1 | .train => 2 | .stop => 3

/-- The block header of a window (Table 02-3). -/
def DownWindow.header (w : DownWindow) : Word :=
  BitVec.ofNat 32 (w.ftag.toNat * 2 ^ 26 + w.try_.toNat * 2 ^ 24 + w.kind.code * 2 ^ 21 + w.payload.length * 2 ^ 14 + b2n w.nak * 2 ^ 13 +
    b2n w.av * 2 ^ 12 + w.aseq.toNat * 2 ^ 8 + w.seq.toNat * 16 + b2n w.more * 8)

/-- The CRC-16 of a window: over header and payload field (R35). -/
def windowCrc (hdr : Word) (payload : Bytes) : BitVec 16 := (leN 4 hdr.toNat ++ padTo 80 payload).foldl crc16Byte 0xFFFF

/-- The 90 codes of a window: preamble, K28.5, header, payload field and CRC (Table 02-2). -/
def windowCodes (hdr : Word) (payload : Bytes) : List Code :=
  List.replicate 3 (dataCode 0xB5) ++ [k28_5] ++
    (leN 4 hdr.toNat ++ padTo 80 payload ++ leN 2 (windowCrc hdr payload).toNat).map dataCode

/-- A window on the line: coded from negative disparity (R30). -/
def DownWindow.symbols (w : DownWindow) : List (BitVec 10) := encodeSyms false (windowCodes w.header w.payload)

/-- The codes of an uplink window; none where a symbol breaks the code. -/
def UpWindow.codes (w : UpWindow) : Option (List Code) := decodeSyms false w.syms
/-- Bytes of an uplink window. -/
def UpWindow.bytes (w : UpWindow) (k n : Nat) : Bytes := (((w.codes.getD []).drop k).take n).map (·.byte)
/-- The header of an uplink window. -/
def UpWindow.hdr (w : UpWindow) : Word := BitVec.ofNat 32 (leVal (w.bytes 4 4))
/-- The payload field. -/
def UpWindow.payload (w : UpWindow) : Bytes := w.bytes 8 80
/-- The CRC field. -/
def UpWindow.crc (w : UpWindow) : BitVec 16 := BitVec.ofNat 16 (leVal (w.bytes 88 2))

/-- Symbol 3 is K28.5, no symbol has a code violation or a disparity error, and symbols 4 to 89 are data (R31). -/
def UpWindow.coded (w : UpWindow) : Bool :=
  match w.codes with
  | none => false
  | some l => l.length == 90 && l.getD 3 {} == k28_5 && (l.drop 4).all (!·.ctrl)

/-- An uplink window is a good block (R31). -/
def UpWindow.good (w : UpWindow) : Bool := w.coded && w.payload.length == 80 && w.crc == windowCrc w.hdr w.payload

/-- Bits of a byte string, least significant first. -/
def bitsLsb (b : Bytes) : List Bool := b.flatMap fun x => (List.range 8).map x.getLsbD

/-- A value that fits in a byte string of `n` bits: the first `n` bits. -/
def takeBits (b : Bytes) (n : Nat) : List Bool := (bitsLsb b).take n

/-- One uplink item by its type and body (Table 02-6); `mask`: reports carry collision masks (profile 0x10); `two`: a two-antenna
SH2 head. None: malformed. -/
def parseUp (mask two : Bool) (type : Byte) (b : Bytes) : Option UpItem :=
  match type.toNat with
  | 0x81 =>
    let fl := byteAt b 0
    let n := fld b 1 1
    let sof := fl.getLsbD 0
    let o := if sof then 6 else 2
    let k := (n + 7) / 8
    if 64 < n ∨ b.length ≠ o + k + (if mask then k else 0) then none
    else some (.rxb sof (fl.getLsbD 1) (fl.getLsbD 2) (BitVec.ofNat 32 (if sof then fld b 2 4 else 0)) (takeBits (slice b o k) n)
      (if mask then takeBits (slice b (o + k) k) n else []))
  | 0x82 => if b.length = 9 ∧ fld b 4 1 ≤ b2n two then some (.prp (BitVec.ofNat 32 (fld b 0 4)) (byteAt b 4 == 1) (BitVec.ofNat 16 (fld b 5 2)) (BitVec.ofNat 16 (fld b 7 2)))
    else none
  | 0x83 => if b.length = 9 ∧ 1 ≤ fld b 8 1 ∧ fld b 8 1 ≤ 4 then some (.lte (BitVec.ofNat 32 (fld b 0 4)) (BitVec.ofNat 32 (fld b 4 4)) (byteAt b 8)) else none
  | 0x84 => if b.length = 2 then some (.hst (byteAt b 0) (byteAt b 1)) else none
  | _ => none

/-- The items of a DATA payload; none where one is malformed (R45). -/
def parseUps (mask two : Bool) : Nat → Bytes → Option (List UpItem)
  | 0, b => if b = [] then some [] else none
  | n + 1, b =>
    if b = [] then some []
    else
      let len := fld b 1 1
      if b.length < 2 + len then none
      else match parseUp mask two (byteAt b 0) (slice b 2 len), parseUps mask two n (b.drop (2 + len)) with
        | some i, some r => some (i :: r)
        | _, _ => none

/-- Bytes that an item takes in the uplink queue. -/
def UpItem.size : UpItem → Nat
  | .rxb sof _ _ _ bits mask => 4 + (if sof then 4 else 0) + (bits.length + 7) / 8 + (mask.length + 7) / 8
  | .prp .. => 11
  | .lte .. => 11
  | .hst .. => 4

/-- An item for Thyme (R66). -/
def UpItem.forThyme : UpItem → Bool
  | .rxb .. => true
  | .prp .. => false
  | .lte .. => true
  | .hst .. => false

/-! ### Faults and the state of the link -/

/-- The lower of two causes, 0 for none (R57). -/
def causeMin (a b : BitVec 3) : BitVec 3 := if a = 0 then b else if b = 0 then a else if a ≤ b then a else b

/-- A cause of Table 02-17 arises. -/
def Port.pend (c : BitVec 3) (p : Port) : Port := { p with pendCause := causeMin p.pendCause c }

/-- The device sends blocks. -/
def Port.linked (p : Port) : Bool := p.state == .training || p.state == .idleSense || p.state == .active
/-- Training is over: blocks are acknowledged. -/
def Port.joined (p : Port) : Bool := p.state == .idleSense || p.state == .active

/-- The uplink window failed, or brought nothing (R37, R39). -/
def Port.failWindow (p : Port) : Port :=
  { p with ack := { av := true, nak := true, aseq := p.expect }, fails := if p.joined then p.fails + 1 else p.fails, good := 0 }

/-- An outstanding block is undelivered after TRY = 3 (R38). -/
def Port.undelivered (p : Port) : Bool := p.joined && p.gotUp && (match p.out with | some d => d.tries == 3 | none => false)
/-- Sixteen windows have failed (R39). -/
def Port.upLost (p : Port) : Bool := p.joined && decide (16 ≤ p.fails)
/-- Training is complete (R49 step 6). -/
def Port.trainDone (p : Port) : Bool := p.state == .training && p.trainStep == 1 && decide (8 ≤ p.good)
/-- Training has lasted 4,096 frames and has not completed (R49). -/
def Port.trainLate (f : Nat) (p : Port) : Bool := p.state == .training && !p.trained && !p.trainDone && decide (4096 ≤ f - p.trainStart)
/-- The retrain delay in frames (R57). -/
def Port.retrainDelay (p : Port) : Nat := if 8 ≤ p.badTrain then 65536 else 1024
/-- The retrain delay has passed. -/
def Port.delayDone (f : Nat) (p : Port) : Bool := p.state == .fault && p.autoRetrain && decide (p.retrainDelay ≤ f - p.faultFrame)

/-- The cause that takes the port into FAULT at a boundary; 0 for none. -/
def Port.dueCause (f : Nat) (p : Port) : BitVec 3 :=
  let c := if p.undelivered then causeMin p.pendCause 1 else p.pendCause
  let c := if p.upLost then causeMin c 2 else c
  if p.trainLate f then causeMin c 5 else c

/-- The frame number as a number. -/
def State.frameNo (s : State) : Nat := s.sprig.frame.toNat

/-! ### Transitions at a boundary (R54 to R57, Table 02-14) -/

/-- Requests of the boundary are used up. -/
def Port.settled (p : Port) : Port :=
  { p with askRetrain := false, askWake := false, askRelease := false, askPing := false, askPoll := false, askEnd := false, pendCause := 0 }

/-- The link starts afresh. -/
def Port.unlink (p : Port) : Port :=
  { p with out := none, downq := [], upq := [], canDue := false, fails := 0, seq := 0, expect := 0, ack := {}, lteFrame := none }

/-- A two-antenna head on a port trained as SH2 (R47, R51). -/
def Port.twoAnt (p : Port) : Bool := p.gen == 2 && p.head.nant == 2

/-- To OFF. A training that EN = 0 cuts short neither counts as one that ended in FAULT nor breaks the run of those that did, and
DELAY keeps its last value (log 68). -/
def Port.toOff (p : Port) : Port := { p.endActive.unlink with state := .off, gen := 0, ant := false }

/-- To FAULT. -/
def Port.toFault (f : Nat) (c : BitVec 3) (p : Port) : Port :=
  { p.endActive.unlink with state := .fault, ant := false, cause := c, evFault := p.evFault.hit, faultFrame := f, delayOver := false, gen := 0
                            badTrain := if p.state = .training then p.badTrain + 1 else p.badTrain }

/-- To TRAINING, with a STOP from the states in which the head is trained, which still carries the acknowledgement of the last
uplink window (R37). -/
def Port.toTraining (f : Nat) (p : Port) : Port :=
  { p.endActive.unlink with state := .training, ant := false, ack := if p.joined then p.ack else {}, limited := p.genLimit, rxProf := 0x10
                            stopDue := p.joined, trainStart := f, trainStep := 0, good := 0, gen := 0, delayOver := false, trained := false }

/-- Training complete: to IDLE_SENSE. -/
def Port.toTrained (p : Port) : Port :=
  { p.unlink with state := .idleSense, trained := false, evTrained := p.evTrained.hit, gen := p.gsel, badTrain := 0, seeding := 4
                  seedSum := Vector.replicate 2 {}, base := p.base }

/-- The antenna of an active period (Table 02-15). -/
def Port.chosenAnt (p : Port) : Bool := p.antSel && p.twoAnt

/-- To ACTIVE: the wake cause is that of Table 03-15. -/
def Port.toActive (p : Port) : Port :=
  let c : BitVec 2 := if p.askPoll then 3 else if p.holdActive then 2 else if p.askWake then 1 else 0
  { p with state := .active, ant := p.chosenAnt, offAnt := p.chosenAnt, pingWake := c == 0, cardRun := false, cardFrame := false, downq := [], stale := false
           ctx := { p.ctx with wakeCause := c } }

/-- The registers' fields that act at a boundary are taken over (R54). ANT_SEL written while ACTIVE shows in STAT and names the
antenna of the next FLD on; the FLD off names the antenna whose carrier is on (log 68). -/
def Port.latch (p : Port) : Port := { p with hold := p.holdActive, wakeOn := p.wakeEn, ant := if p.state = .active then p.chosenAnt else p.ant }

/-- The transition due at the boundary of frame `f`, the highest of Table 02-14. -/
def Port.transit (f : Nat) (p : Port) : Port :=
  let p := if p.linked && !p.gotUp then { p.failWindow with gotUp := true } else p
  let c := p.dueCause f
  let q :=
    if !p.en then (if p.state = .off then p else p.toOff)
    else if p.linked && c != 0 then p.toFault f c
    else if p.askRetrain && (p.joined || p.state == .fault) then p.toTraining f
    else if (p.delayOver && p.autoRetrain && p.state == .fault) || p.delayDone f then p.toTraining f
    else if p.state = .off then p.toTraining f
    else if (p.trained && p.state == .training) || p.trainDone then p.toTrained
    else if p.state = .active && (p.askEnd || (p.askRelease && !p.holdActive)) then { p.endActive with state := .idleSense, ant := false }
    else if p.state = .idleSense && (p.holdActive || p.askWake || p.askPing || p.askPoll) then p.toActive
    else p
  { q.settled.latch with gotUp := false }

/-! ### The downlink window (R36 to R38, R42, R49, R56) -/

/-- A carrier-cycle value at the start of a frame. -/
def frameStart (f : Nat) : Word := BitVec.ofNat 32 (256 * f)

/-- TRAIN payload (Table 02-10). -/
def Port.trainBytes (n f : Nat) (p : Port) : Bytes :=
  [BitVec.ofNat 8 p.trainStep, 1, if p.limited then 1 else 2] ++ leN 2 n ++ leN 3 f ++
    (if p.trainStep = 1 then p.gsel.setWidth 8 :: leN 3 (f + 2) else zeros 4) ++ zeros 68

/-- The T of a timed item (R42). -/
def DownItem.time? : DownItem → Option Word
  | .txs t _ cont _ _ _ => if cont then none else some t
  | .fld t _ _ => some t
  | .png t _ _ => some t
  | .rxc o _ _ => some o
  | .can => none
  | .cfg _ _ => none
  | .stq => none

/-- An item may go into a block first sent in frame `f` (R42). -/
def DownItem.leads (f : Nat) (i : DownItem) : Bool :=
  match i.time? with
  | none => true
  | some t => decide ((t - frameStart (f + 4)).toNat < 2 ^ 31)

/-- PROF of the last receive window among items. -/
def rxProfOf (old : Byte) (l : List DownItem) : Byte :=
  l.foldl (fun b i => match i with
    | .rxc _ _ prof => prof
    | _ => b) old

/-- A DATA block takes its SEQ and goes out for the first time. -/
def Port.launch (w : DownWindow) (items : List DownItem) (p : Port) : Port :=
  { p with out := some { seq := p.seq, items }, seq := p.seq + 1, view := some 0, rxProf := rxProfOf p.rxProf items
           sent := some { w with kind := .data, seq := p.seq, payload := items.flatMap DownItem.bytes, more := p.canDue || !p.downq.isEmpty } }

/-- The downlink window of frame `f` for port `n`. -/
def Port.downlink (n f : Nat) (p : Port) : Port :=
  let w : DownWindow := { ftag := BitVec.ofNat 6 f, nak := p.ack.nak, av := p.ack.av, aseq := p.ack.aseq }
  let p := { p with view := none }
  if !p.linked then { p with sent := none }
  else if p.stopDue then { p with stopDue := false, sent := some { w with kind := .stop } }
  else if p.state = .training then { p with sent := some { w with kind := .train, payload := p.trainBytes n f } }
  else match p.out with
    | some d =>
      let t := d.tries + 1
      { p with out := some { d with tries := t }, evResend := p.evResend.hit, view := some t
               sent := some { w with kind := .data, try_ := t, seq := d.seq, payload := d.items.flatMap DownItem.bytes, more := p.canDue || !p.downq.isEmpty } }
    | none =>
      let due := p.downq.filter (DownItem.leads f)
      if p.canDue then Port.launch w [.can, .fld (frameStart (f + 4)) false p.offAnt] { p with canDue := false }
      else if due ≠ [] then Port.launch w due { p with downq := [] }
      else { p with downq := [], sent := some w }

/-- The window goes onto the pair. -/
def Port.drive (p : Port) : Port := { p with line := match p.sent with | none => [] | some w => w.symbols }

/-- G(p) (R51). -/
def pingGroup (n : Nat) : Nat := n / 16

/-- N_p of the interval parameter (R51), rounding halves up. -/
def pingInterval (ms : Nat) : Nat := 32 * max 1 ((ms * 5296875 + 1600000) / 3200000)

/-- The ping parameters change at the next ping frame under the old interval (Table 02-12), and at any boundary of a port that
does not ping at all. -/
def Port.newPing (n f : Nat) (now : PingPar) (p : Port) : Port :=
  if f % pingInterval p.ping.interval = pingGroup n ∨ !p.joined then { p with ping := now } else p

/-- A change of owner or epoch that waited for the boundary; the epoch it had is `e` (R87). -/
def Port.carryDue (e : BitVec 16) (f : Nat) (p : Port) : Port :=
  match p.due with
  | none => p
  | some .renew => { p.leave with due := none, ctx := {} }
  | some .free => { p.change none false e (BitVec.ofNat 24 f) with due := none }

/-- One port at the boundary of frame `f`. -/
def Port.boundary (n f : Nat) (now : PingPar) (e : BitVec 16) (p : Port) : Port :=
  ((((p.carryDue e f).newPing n f now).transit f).downlink n f).drive

/-- A port that has just entered FAULT is told of. -/
def State.tellFault (i : Fin 512) (s : State) : State :=
  (s.evC 3).devEvent 0x06 ((s.sprig.ports[i]).cause.setWidth 8) i.val (s.store.portEpoch[i]).toNat

/-- Ports run: the main side does, on a locked carrier (R500). -/
def State.portsRun (s : State) : Bool := s.live && s.power.carLock

/-- The ping parameters as they stand. -/
def State.pingPar (n : Nat) (s : State) : PingPar :=
  { interval := s.param 0x0100 n, burst := s.param 0x0101 n, ampTh := s.param 0x0102 n, phsTh := s.param 0x0103 n, shift := s.param 0x0104 n
    limit := s.param 0x0105 n }

/-- Events that a due release of a port discards (Table 03-16). -/
def Port.dueLost (p : Port) : Nat := if p.due = some .free then p.unread else 0

/-- The frame boundary (R32, R54 to R56, R87): changes of owner and epoch that are due, then each port's transition, then its
downlink window. -/
def execFrameBoundary (s : State) : Res :=
  .next <|
    if s.portsRun then
      let old := s.sprig.ports
      let f := s.frameNo + 1
      let ports := old.mapFinIdx fun n p h => p.boundary n f (s.pingPar n) (s.store.portEpoch[n]'h)
      let left (k : Fin 512) : Bool := old[k].state == .fault && ports[k].state != .fault
      let epochs := s.store.portEpoch.mapFinIdx fun n e h =>
        let e := if (old[n]'h).due.isSome then nextEpoch e else e
        if left ⟨n, h⟩ then nextEpoch e else e
      let s : State := { s with
        sprig := { ports, frame := s.sprig.frame + 1, phase := 0 }
        store := { s.store with portEpoch := epochs }
        cipher := s.cipher.unmap fun i => (s.tenants.slots[i]).run.cipher }
      let freed := (List.finRange 512).filter fun k => old[k].due == some .free
      let s := freed.foldl (fun s k => { s with hrb := { s.hrb with disc := (s.hrb.disc.incHi).incLo old[k].dueLost } }) s
      ((List.finRange 512).filter fun k => old[k].state != .fault && ports[k].state == .fault).foldl (fun s k => s.tellFault k) s
    else s

/-! ### Pings (R51 to R53) -/

/-- A signed 16-bit value. -/
def signed16 (v : BitVec 16) : Int := v.toInt
/-- A phase difference, in 1/256 of 1/65,536 turn, modulo one turn: the fractional bits are kept (log 68). -/
def phaseDiff (a b : Int) : Int := (BitVec.ofInt 24 (a - b)).toInt

/-- Whether one antenna's result wakes the port. -/
def Baseline.wakes (b : Baseline) (ampTh phsTh : Nat) (amp phs : BitVec 16) : Bool :=
  decide (ampTh * b.amp < ((amp.toNat * 256 : Int) - b.amp).natAbs * 256) ||
  (phsTh != 0 && decide (phsTh * 256 < (phaseDiff (signed16 phs * 256) b.phs).natAbs))

/-- The baseline follows a measured value (R52). -/
def Baseline.track (b : Baseline) (k : Nat) (amp phs : BitVec 16) : Baseline :=
  { amp := (b.amp + ((amp.toNat * 256 : Int) - b.amp) / 2 ^ k).toNat
    phs := (BitVec.ofInt 24 (b.phs + phaseDiff (signed16 phs * 256) b.phs / 2 ^ k)).toInt }

/-- A seeding result is added up. -/
def Baseline.seed (b : Baseline) (amp phs : BitVec 16) : Baseline :=
  { amp := b.amp + amp.toNat * 64, phs := (BitVec.ofInt 24 (b.phs + signed16 phs * 64)).toInt }

/-- The results of one ping: antenna, amplitude, phase. -/
abbrev PingRes := List (Bool × BitVec 16 × BitVec 16)

/-- The antenna's place. -/
def antIx (a : Bool) : Fin 2 := if a then 1 else 0

/-- Results of a ping in a block are judged together. -/
def Port.judgePing (l : PingRes) (p : Port) : Port :=
  if l = [] ∨ p.state ≠ .idleSense then p
  else if 0 < p.seeding then
    let sum := l.foldl (fun v (a, m, h) => modify v (antIx a) fun b => b.seed m h) p.seedSum
    let last := l.any fun (a, _, _) => a == p.twoAnt
    let p := { p with seedSum := sum, seeding := if last then p.seeding - 1 else p.seeding }
    if p.seeding = 0 then { p with base := p.seedSum, seedSum := Vector.replicate 2 {} } else p
  else if !p.wakeOn then p
  else if l.any fun (a, m, h) => (p.base[antIx a]).wakes p.ping.ampTh p.ping.phsTh m h then { p with evWake := p.evWake.hit, askPing := true }
  else { p with base := l.foldl (fun v (a, m, h) => modify v (antIx a) fun b => b.track p.ping.shift m h) p.base }

/-- The first frame from `f` on that is `g` modulo `n`. -/
def nextFrame (f n g : Nat) : Nat := f + (g + n - f % n) % n

/-- A ping is due in frame `F` when its block can still lead it by R42, and its frame is near. Its burst is the length that the
parameter then has, for the change acts in that frame. -/
def execPing (port : Fin 512) (s : State) : Res :=
  .next <|
    let p := s.sprig.ports[port]
    if s.portsRun && p.state == .idleSense && p.wakeOn then
      let n := if 0 < p.seeding then 32 else pingInterval p.ping.interval
      let f := nextFrame (s.frameNo + 5) n (pingGroup port.val % n)
      if p.lastPing < f ∧ f ≤ s.frameNo + 16 then
        s.updPort port fun p =>
          { p with downq := p.downq ++ [.png (frameStart f) (BitVec.ofNat 16 (s.param 0x0101 port.val)) (if p.twoAnt then 2 else 0)], lastPing := f }
      else s
    else s

/-! ### The uplink window (R31, R33, R36 to R38, R43, R46, R49, R50) -/

/-- The report of an uplink TRAIN payload (Table 02-11). -/
def headReport (b : Bytes) : HeadReport :=
  { gmin := byteAt b 1, gmax := byteAt b 2, txlat := byteAt b 3, rxlat := byteAt b 4, nant := byteAt b 5, txbuf := BitVec.ofNat 16 (fld b 6 2)
    rxbuf := BitVec.ofNat 16 (fld b 8 2), model := BitVec.ofNat 32 (fld b 10 4), serial := BitVec.ofNat 64 (fld b 14 8) }

/-- A report that training accepts. -/
def HeadReport.ok (h : HeadReport) : Bool :=
  decide (1024 ≤ h.txbuf.toNat) && decide (128 ≤ h.rxbuf.toNat) && decide (h.txlat.toNat ≤ 15) && decide (h.rxlat.toNat ≤ 15) &&
    (h.nant == 1 || (h.nant == 2 && h.gmax != 1))

/-- The generation that both sides use (R50). -/
def commonGen (limited : Bool) (h : HeadReport) : Option (BitVec 2) :=
  let top := min (if limited then 1 else 2) h.gmax.toNat
  if max 1 h.gmin.toNat ≤ top then some (BitVec.ofNat 2 top) else none

/-- A TRAIN block answers (R49). The STEP byte of the first answer is not compared with the step answered, nor are CNT and the
reserved bytes checked (log 68). -/
def Port.trainAnswer (f : Nat) (d : Int) (b : Bytes) (p : Port) : Port :=
  if p.trainStep = 0 then
    let h := headReport b
    if d < 0 ∨ 100 < d then p.pend 4
    else if !h.ok then p.pend 7
    else match commonGen p.limited h with
      | none => p.pend 3
      | some g => { p with head := h, gsel := g, trainStep := 1, good := 0, delay0 := d, delay := BitVec.ofInt 7 d }
  else if byteAt b 0 = 1 ∧ BitVec.ofNat 32 (fld b 22 4) = frameStart f then { p with good := p.good + 1 }
  else { p with good := 0 }

/-- D is followed from frame to frame (R33). -/
def Port.follow (d : Int) (p : Port) : Port :=
  let p := { p with delay := BitVec.ofInt 7 d }
  if 4 < (d - p.delay0).natAbs then p.pend 2 else p

/-- Bits are reported: a card frame is complete at an EOF whose run from SOF has no ERR (R53). -/
def Port.heard (sof eof err : Bool) (p : Port) : Port :=
  let run := (sof || p.cardRun) && !err
  { p with cardRun := run && !eof, cardFrame := p.cardFrame || (run && eof) }

/-- An item for Thyme's queue; one of an old owner's exchange is discarded, and the event that it would have caused is counted
(Table 03-16). -/
def Port.queueUp (f : Nat) (i : UpItem) (ends : Bool) (p : Port) : Port :=
  if p.stale then { p with dropped := if ends then p.dropped + 1 else p.dropped } else { p with upq := p.upq ++ [(f, i)] }

/-- Items that the port controller keeps, and those for Thyme's queue (R66). -/
def Port.takeItem (f : Nat) (i : UpItem) (p : Port) : Port :=
  match i with
  | .rxb sof eof err .. => (p.queueUp f i (eof || err)).heard sof eof err
  | .lte .. =>
    let again := match p.lteFrame with | some g => decide (f - g ≤ 256) | none => false
    let p := { p.queueUp f i true with evLate := p.evLate.hit, lteFrame := some f }
    if again then p.pend 2 else p
  | .prp .. => p
  | .hst fl _ =>
    let p := { p with evHead := p.evHead.hit }
    let p := if fl &&& 0x0F ≠ 0 then p.pend 6 else p
    if fl.getLsbD 4 then p.pend 7 else p

/-- Ping results among items. -/
def pingResults (l : List UpItem) : PingRes :=
  l.filterMap fun i => match i with
    | .prp _ a m h => some (a, m, h)
    | _ => none

/-- A DATA block of the head's (R37). -/
def Port.takeData (f : Nat) (seq : BitVec 4) (resent : Bool) (b : Bytes) (p : Port) : Port :=
  let p := if resent then { p with evResend := p.evResend.hit } else p
  if seq = p.expect then
    match parseUps (p.rxProf == 0x10) p.twoAnt 41 b with
    | none => p.pend 7
    | some l =>
      let held := (p.upq.map fun x => x.2.size).sum
      let more := ((l.filter UpItem.forThyme).map UpItem.size).sum
      if 512 < held + more then { p with ack := { av := true, nak := true, aseq := p.expect } }
      else
        let p := { p with ack := { av := true, nak := false, aseq := seq }, expect := p.expect + 1 }
        (l.foldl (fun p i => p.takeItem f i) p).judgePing (pingResults l)
  else if seq + 1 = p.expect then { p with ack := { av := true, nak := false, aseq := seq } }
  else p.pend 7

/-- The acknowledgement that an uplink block carries (R38). -/
def Port.acked (av nak : Bool) (aseq : BitVec 4) (p : Port) : Port :=
  match p.out with
  | some d => if av && !nak && aseq == d.seq then { p with out := none } else p
  | none => p

/-- A good block of the head's, in frame `f`. One of KIND 3, which only the device sends, is taken as one of a reserved kind
(log 68). -/
def Port.takeBlock (f : Nat) (w : UpWindow) (p : Port) : Port :=
  let h := w.hdr
  let kind := (h.extractLsb' 21 3).toNat
  let len := (h.extractLsb' 14 7).toNat
  if h.extractLsb' 26 6 ≠ BitVec.ofNat 6 f then { p with fails := 0 }.pend 2
  else if 3 ≤ kind ∨ 80 < len then { p with fails := 0 }.pend 7
  else
    let p := { p with fails := 0 }
    if p.state = .training then
      if kind = 2 then { p with ack := {} }.trainAnswer f w.delay (w.payload.take len) else { p with ack := {}, good := 0 }
    else
      let p := (p.follow w.delay).acked (h.getLsbD 12) (h.getLsbD 13) (h.extractLsb' 8 4)
      if kind = 1 then p.takeData f (h.extractLsb' 4 4) (h.extractLsb' 24 2 != 0) (w.payload.take len)
      else { p with ack := {} }

/-- Events discarded with an old owner's items are counted, and reported while the move's report is still due. -/
def State.countDropped (port : Fin 512) (s : State) : State :=
  let n := (s.sprig.ports[port]).dropped
  let s := s.updPort port fun p => { p with dropped := 0, moved := p.moved.map fun m => { m with discarded := m.discarded + n } }
  { s with hrb := { s.hrb with disc := s.hrb.disc.incLo n } }

/-- A head's uplink window arrives; a window already received in this frame is the only one. -/
def execUplinkBlock (port : Fin 512) (w : UpWindow) (s : State) : Res :=
  .next <|
    let p := s.sprig.ports[port]
    if s.portsRun && p.linked && !p.gotUp then
      let n := port.val
      let q := { (if w.good then p.takeBlock s.frameNo w else p.failWindow) with gotUp := true }
      let s := s.updPort port fun _ => q
      let s := if q.askPing && !p.askPing then { s with store := { s.store with vals := modify s.store.vals (⟨2 * n, by omega⟩ : Fin 4096) (· + 1) } } else s
      if q.dropped = 0 then s else s.countDropped port
    else s

/-! ### Events of a port's own -/

def execTrainingComplete (port : Fin 512) (s : State) : Res :=
  .next <| if s.portsRun then s.updPort port fun p => if p.trainDone then { p with trained := true } else p else s

def execTrainingTimeout (port : Fin 512) (s : State) : Res :=
  .next <| if s.portsRun then s.updPort port fun p => if p.trainLate s.frameNo then p.pend 5 else p else s

def execDataBlockUndelivered (port : Fin 512) (s : State) : Res :=
  .next <| if s.portsRun then s.updPort port fun p => if p.undelivered then p.pend 1 else p else s

def execUplinkLoss (port : Fin 512) (s : State) : Res :=
  .next <| if s.portsRun then s.updPort port fun p => if p.upLost then p.pend 2 else p else s

def execAutoRetrainDelay (port : Fin 512) (s : State) : Res :=
  .next <| if s.portsRun then s.updPort port fun p => if p.delayDone s.frameNo then { p with delayOver := true } else p else s

/-! ### SPnnn_CTRL (R54, R55, R58, Table 02-15) -/

def execPortEnable (port : Fin 512) (en : Bool) (s : State) : Res :=
  .next <| if s.live then s.updPort port fun p => { p with en } else s

def execRetrain (port : Fin 512) (s : State) : Res :=
  .next <| if s.live then s.updPort port fun p => { p with askRetrain := true } else s

def execWake (port : Fin 512) (s : State) : Res :=
  .next <| if s.live then s.updPort port fun p => { p with askWake := true } else s

def execRelease (port : Fin 512) (s : State) : Res :=
  .next <| if s.live then s.updPort port fun p => if p.holdActive then p else { p with askRelease := true } else s

def execHoldActive (port : Fin 512) (on : Bool) (s : State) : Res :=
  .next <| if s.live then s.updPort port fun p => { p with holdActive := on } else s

/-- A write of SPnnn_CTRL, by the supervisor or a tenant. -/
def Port.writeCtrl (supervisor : Bool) (v : Word) (p : Port) : Port :=
  let both := v.getLsbD 5 && v.getLsbD 4
  let p := { p with antSel := if p.twoAnt then v.getLsbD 7 else p.antSel
                    holdActive := v.getLsbD 3, wakeEn := v.getLsbD 2
                    askWake := p.askWake || (v.getLsbD 5 && !both), askRelease := p.askRelease || (v.getLsbD 4 && !both && !v.getLsbD 3) }
  if supervisor then { p with genLimit := v.getLsbD 8, askRetrain := p.askRetrain || v.getLsbD 6, autoRetrain := v.getLsbD 1, en := v.getLsbD 0 } else p

/-- SPnnn_CTRL as it reads. -/
def Port.ctrl (p : Port) : Word :=
  BitVec.ofNat 32 (256 * b2n p.genLimit + 128 * b2n p.chosenAnt + 8 * b2n p.holdActive + 4 * b2n p.wakeEn + 2 * b2n p.autoRetrain + b2n p.en)

/-- The code of a port state (Table 02-13). -/
def PortState.code : PortState → Nat
  | .off => 0 | .training => 1 | .idleSense => 2 | .active => 3 | .fault => 4

/-- SPnnn_STAT (Table 02-16). -/
def Port.stat (epoch : BitVec 16) (p : Port) : Word :=
  BitVec.ofNat 32 (65536 * epoch.toNat + 32768 * b2n p.ant + 256 * p.delay.toNat + 32 * p.cause.toNat + 8 * p.gen.toNat + p.state.code)

/-- SPnnn_EVT (Table 02-18). -/
def Port.evt (p : Port) : Word :=
  BitVec.ofNat 32 (2 ^ 26 * p.evHead.rep.toNat + 2 ^ 22 * p.evTrained.rep.toNat + 2 ^ 18 * p.evFault.rep.toNat + 2 ^ 14 * p.evResend.rep.toNat +
    2 ^ 10 * p.evLate.rep.toNat + 64 * p.evWake.rep.toNat + 32 * b2n p.evHead.set + 16 * b2n p.evTrained.set + 8 * b2n p.evFault.set +
    4 * b2n p.evResend.set + 2 * b2n p.evLate.set + b2n p.evWake.set)

end Sys2Proof.Machine
end

