-- ==== Sys2Proof/Machine/Air.lean ====
section
/-! DEFINITION. Frames on the air: coding of bytes into symbols and of bits into bytes, and the timing of replies (R47, R67,
R68, R71 to R74, R96, R98). -/

namespace Sys2Proof.Machine

/-! ### Bits and bytes -/

/-- Odd parity of 8 bits. -/
def oddParity (l : List Bool) : Bool := l.count true % 2 == 0

/-- The byte that bits spell, least significant first. -/
def bitsByte (l : List Bool) : Byte := BitVec.ofNat 8 (l.foldr (fun b n => b2n b + 2 * n) 0)

/-- Bytes that bits spell, 8 to a byte. -/
def bitsBytes : Nat → List Bool → Bytes
  | 0, _ => []
  | n + 1, l => if l = [] then [] else bitsByte (l.take 8) :: bitsBytes n (l.drop 8)

/-- The same for a list of any length. -/
def toBytes (l : List Bool) : Bytes := bitsBytes (l.length / 8 + 1) l

/-- Type A bits of a frame: each whole byte with its parity; a last byte of `last` bits without (R67, R99). -/
def bitsA (last : Nat) : Bytes → List Bool
  | [] => []
  | [b] =>
    let l := (List.range 8).map b.getLsbD
    if last = 8 then l ++ [oddParity l] else l.take last
  | b :: r =>
    let l := (List.range 8).map b.getLsbD
    l ++ [oddParity l] ++ bitsA last r

/-- Modified Miller symbols of bits after a 0 or the start of frame (`z`): 0 is X, 1 is Y, 2 is Z (Table 02-8). -/
def miller (z : Bool) : List Bool → List (BitVec 2)
  | [] => []
  | true :: r => 0 :: miller false r
  | false :: r => (if z then 2 else 1) :: miller true r

/-- Symbols of a Type A frame: start of frame, bits, end of communication. -/
def symsA (bits : List Bool) : List (BitVec 2) := 2 :: miller true (bits ++ [false]) ++ [1]

/-- Symbols of a Type B character. -/
def charB (b : Byte) : List (BitVec 2) := [0] ++ (List.range 8).map (fun k => if b.getLsbD k then 1 else 0) ++ [1]

/-- Symbols of a Type B frame (R47). -/
def symsB (b : Bytes) : List (BitVec 2) := List.replicate 10 0 ++ [1, 1] ++ b.flatMap charB ++ List.replicate 10 0

/-- Bit pairs of an ISO/IEC 15693 frame. -/
def symsV (b : Bytes) : List (BitVec 2) := b.flatMap fun x => [x.extractLsb' 0 2, x.extractLsb' 2 2, x.extractLsb' 4 2, x.extractLsb' 6 2]

/-- A list cut into pieces of `n`. -/
def cutSyms (n : Nat) : Nat → List (BitVec 2) → List (List (BitVec 2))
  | 0, l => [l]
  | k + 1, l => if l.length ≤ n then [l] else l.take n :: cutSyms n k (l.drop n)

/-- A technology's profile number (Table 02-7). -/
def profA (rate : Nat) : Byte := BitVec.ofNat 8 (0x10 + rate)
/-- Type B. -/
def profB (rate : Nat) : Byte := BitVec.ofNat 8 (0x20 + rate)

/-- The profile is one of Type A. -/
def isA (prof : Byte) : Bool := decide (0x10 ≤ prof.toNat ∧ prof.toNat < 0x14)
/-- One of Type B. -/
def isB (prof : Byte) : Bool := decide (0x20 ≤ prof.toNat ∧ prof.toNat < 0x24)

/-- The symbol period in fc (Table 03-4). -/
def symPeriod (prof : Byte) : Nat := if prof = 0x30 then 1024 else [128, 64, 32, 16].getD (prof.toNat % 16) 128

/-- Minimum delay from the end of a card frame to the next command (R98). -/
def fdtPcd (prof : Byte) : Nat := if isA prof then 1172 else if isB prof then 1280 else 4192

/-- FWT of a frame waiting time integer (R96). -/
def fwtOf (fwi : Nat) : Nat := 4096 * 2 ^ (if fwi = 15 then 4 else fwi)
/-- ΔFWT. -/
def deltaFwt : Nat := 49152
/-- L − R of a block (Table 04-3). -/
def blockWait (fwi wtxm : Nat) : Nat := min (fwtOf fwi * wtxm) (fwtOf 14) + deltaFwt

/-- Groups of symbols of a Type A frame: those of the first 8 bytes with the start of frame, then 8 bytes each, the end of
communication with the last (R63, R70). -/
def groupsA (bits : List Bool) : List (List (BitVec 2)) :=
  let s := symsA bits
  if s.length ≤ 75 then [s]
  else
    let mid := (s.drop 73)
    let body := mid.take (mid.length - 2)
    match (cutSyms 72 64 body).reverse with
    | [] => [s]
    | l :: r => s.take 73 :: (r.reverse ++ [l ++ s.drop (s.length - 2)])

/-- What a command puts on the air, and how its reply is timed (R72): `fixed` marks the fixed-reply commands of Type A, whose
reference is the last pause; `eMin` and `lMax` are E − R and L − R. -/
structure AirFrame where
  prof : Byte
  groups : List (List (BitVec 2))
  long : Bool := false
  sof15 : Bool := false
  eof15 : Bool := false
  fixed : Bool := false
  eMin : Nat
  lMax : Nat
  deriving DecidableEq, Repr

/-- A Type A frame with the reply time of its technology's rows. -/
def airA (rate last : Nat) (fixed : Bool) (eMin lMax : Nat) (b : Bytes) : AirFrame :=
  let bits := bitsA last b
  let e := if fixed then (if bits.getLast? == some true then 1236 else 1172) else eMin
  { prof := profA rate, groups := groupsA bits, long := decide (8 < b.length), fixed, eMin := e, lMax := if fixed then e + 64 else lMax }

/-- A Type A frame of fixed reply time at 106 kbit/s. -/
def airFixed (last : Nat) (b : Bytes) : AirFrame := airA 0 last true 0 0 b

/-- A Type B frame. -/
def airB (rate eMin lMax : Nat) (b : Bytes) : AirFrame :=
  { prof := profB rate, groups := cutSyms 80 512 (symsB b), long := decide (8 < b.length), eMin, lMax }

/-- An ISO/IEC 15693 frame. -/
def airV (eMin lMax : Nat) (b : Bytes) : AirFrame :=
  { prof := 0x30, groups := cutSyms 32 512 (symsV b), long := decide (8 < b.length), sof15 := true, eof15 := true, eMin, lMax }

/-- The end of frame alone, which moves to the next slot (R115). -/
def airSlot : AirFrame := { prof := 0x30, groups := [[0]], eof15 := true, eMin := 4320, lMax := 4384 }

/-- Every symbol of a frame. -/
def AirFrame.syms (a : AirFrame) : List (BitVec 2) := a.groups.flatten

/-- The end of the last pause, from the start of the TXS (R71). -/
def pauseEnd (period : Nat) (syms : List (BitVec 2)) : Nat :=
  let n := syms.length
  match (syms.reverse.findIdx? fun x => x != 1) with
  | none => n * period
  | some k =>
    let i := n - 1 - k
    i * period + (if syms.getD i 1 = 0 then period / 2 else 0) + period / 4

/-- R, from the start of the TXS (R71, R72). -/
def AirFrame.ref (a : AirFrame) : Nat :=
  let p := symPeriod a.prof
  if a.fixed then pauseEnd p a.syms else a.syms.length * p + (if a.sof15 then 1024 else 0) + (if a.eof15 then 256 else 0)

/-- The end of the TXS, from its start. -/
def AirFrame.dur (a : AirFrame) : Nat :=
  a.syms.length * symPeriod a.prof + (if a.sof15 then 1024 else 0) + (if a.eof15 then 256 else 0)

/-! ### Carrier-cycle values (R41) -/

/-- `a` is not earlier than `b`. -/
def notEarlier (a b : Word) : Bool := decide ((a - b).toNat < 2 ^ 31)
/-- The later of two values. -/
def later (a b : Word) : Word := if notEarlier a b then a else b
/-- The later of a value and one that need not be there. -/
def laterOpt (a : Word) (b : Option Word) : Word := match b with | none => a | some b => later a b
/-- A value moved by some cycles. -/
def plus (a : Word) (n : Nat) : Word := a + BitVec.ofNat 32 n

/-- T_OPEN and T_CLOSE of a receive window (R73). -/
def rxWindow (e l tMin : Word) : Word × Word :=
  let o := later ((e - 128) &&& 0xFFFFFF00) tMin
  let span := ((l - o).toNat + 255) / 256 * 256
  (o, plus o (max 4096 (if notEarlier l o then span else 0)))

/-! ### Received bits -/

/-- A decoded Type A reply: data bits, collided positions among them, and whether framing and parity hold. -/
structure DecA where
  data : List Bool
  colls : List Nat := []
  ok : Bool
  deriving DecidableEq, Repr

/-- Type A bits into data bits: 9 bits to a byte, the first byte short of its `known` bits, which the command sent; the parity of
a byte that holds a collided bit is not checked in an anticollision frame (R67, R99). -/
def decodeA (anticoll : Bool) : Nat → List Bool → Nat → List Bool → List Bool → DecA
  | 0, _, _, _, _ => { data := [], ok := false }
  | n + 1, known, at_, bits, mask =>
    if bits = [] then { data := [], ok := true }
    else
      let k := 8 - known.length
      if bits.length ≤ k then { data := bits, ok := false }
      else
        let d := bits.take k
        let hit := (mask.take (k + 1)).any id
        let good := (anticoll && hit) || (bits.getD k false == oddParity (known ++ d))
        let cs := ((List.range k).filter fun j => mask.getD j false).map (at_ + ·)
        let r := decodeA anticoll n [] (at_ + k) (bits.drop (k + 1)) (mask.drop (k + 1))
        { data := d ++ r.data, colls := cs ++ r.colls, ok := good && r.ok && (anticoll || !hit) }

/-- Type B characters into bytes; none where a start or stop bit is wrong. -/
def decodeB : Nat → List Bool → Option Bytes
  | 0, l => if l = [] then some [] else none
  | n + 1, l =>
    if l = [] then some []
    else if l.length < 10 ∨ l.getD 0 true ∨ !l.getD 9 false then none
    else (decodeB n (l.drop 10)).map fun r => bitsByte ((l.drop 1).take 8) :: r

/-- The bytes of a reply outside an anticollision frame; none for an error of class TRANSMISSION. -/
def replyBytes (prof : Byte) (bits mask : List Bool) : Option Bytes :=
  if isA prof then
    if bits.length < 8 then (if mask.any id then none else some (toBytes bits))
    else
      let r := decodeA false (bits.length / 9 + 2) [] 0 bits mask
      if r.ok then some (toBytes r.data) else none
  else if isB prof then decodeB (bits.length / 10 + 1) bits
  else if bits.length % 8 = 0 then some (toBytes bits) else none

/-- The CRC of a technology over bytes. -/
def airCrc (prof : Byte) (b : Bytes) : Bytes := if isA prof then crcA b else crcB b

/-- A reply with its CRC checked and taken off; none where it does not match. -/
def stripCrc (prof : Byte) (b : Bytes) : Option Bytes :=
  let d := b.take (b.length - 2)
  if 2 ≤ b.length ∧ airCrc prof d = b.drop (b.length - 2) then some d else none

end Sys2Proof.Machine
end

