-- ==== Sys2Proof/Machine/Thyme.lean ====
section
/-! DEFINITION. Thyme's page and context: events, results, error counts, the commands' results, the context's life, and what is
put on the air (R64, R65, R69 to R75, R78 to R85). -/

namespace Sys2Proof.Machine

/-- What Thyme reads outside a port: the frame, the port's number and epoch, whether its owner runs, its parameters. -/
structure TEnv where
  f : Nat
  n : Nat
  epoch : BitVec 16
  runs : Bool
  par : Nat → Nat

abbrev Port.updCtx (p : Port) (g : Ctx → Ctx) : Port := { p with ctx := g p.ctx }
abbrev Port.updPage (p : Port) (g : Page → Page) : Port := { p with page := g p.page }

/-- The start of this frame. -/
def TEnv.now (e : TEnv) : Word := frameStart e.f

/-- The earliest T of an item that this slice writes (R70). -/
def Port.tMin (e : TEnv) (p : Port) : Word :=
  match p.view with
  | none => frameStart (e.f + 5)
  | some t => frameStart (e.f + 8 - t.toNat)

/-- A port whose head works as SH1 (R90). -/
def Port.sh1 (p : Port) : Bool := p.gen == 1

/-- TXLAT and RXLAT. -/
def Port.txlat (p : Port) : Nat := p.head.txlat.toNat
def Port.rxlat (p : Port) : Nat := p.head.rxlat.toNat

/-! ### The event ring (R84, R85) -/

/-- An event entry (Table 03-14). -/
def eventBytes (type info : Byte) (epoch : BitVec 16) (time : Word) (status : BitVec 16) (len arg : Nat) : Bytes :=
  [type, info] ++ leN 2 epoch.toNat ++ leN 4 time.toNat ++ leN 2 status.toNat ++ leN 2 len ++ leN 4 arg

/-- Unconsumed entries. -/
def Page.unread (g : Page) : Nat := (g.evqWr - g.evqRd).toNat

/-- An entry goes to the ring. -/
def Page.put (b : Bytes) (g : Page) : Page :=
  { g with ring := g.ring.set (g.evqWr.toNat % 16) b (Nat.mod_lt _ (by decide)), evqWr := g.evqWr + 1 }

/-- An event arises. -/
def Port.event (e : TEnv) (type info : Byte) (time : Word) (status : BitVec 16) (len arg : Nat) (p : Port) : Port :=
  p.updPage fun g =>
    if 16 ≤ g.unread then { g with evqLost := sat16 g.evqLost }
    else if g.unread = 15 then g.put (eventBytes 0x0F 0 e.epoch time 0 0 0)
    else g.put (eventBytes type info e.epoch time status len arg)

/-- The cause of an event is the card frame being judged, or this frame (Table 03-14). -/
def Port.causeTime (e : TEnv) (p : Port) : Word := p.ctx.tsof.getD e.now

/-- An event of the step being judged. -/
def Port.tell (e : TEnv) (type : Byte) (status : BitVec 16) (arg : Nat) (p : Port) : Port :=
  p.event e type 0 (p.causeTime e) status 0 arg

/-! ### Results and error classes (R76, R81) -/

/-- CMD_RES. -/
def Port.result (e : TEnv) (status : BitVec 16) (p : Port) : Port := p.updPage fun g => { g with cmdRes := e.epoch ++ status }

/-- The command in progress completes; automatic polling writes no result (R89). -/
def Port.complete (e : TEnv) (status : BitVec 16) (p : Port) : Port :=
  if p.page.busy then (p.result e status).updPage fun g => { g with busy := false } else p

/-- A command completes in the slice that sampled it (R81). -/
def Port.atOnce (e : TEnv) (status : BitVec 16) (op : Nat) (p : Port) : Port :=
  (p.result e status).event e 0x05 0 e.now status 0 op

/-- INFO of a class (Table 03-7). -/
def ErrClass.code : ErrClass → Byte
  | .timeout => 1 | .transmission => 2 | .bccOnly => 3 | .timing => 4 | .protocol => 5 | .late => 6 | .link => 7

/-- The status of a class. -/
def ErrClass.status : ErrClass → BitVec 16
  | .timeout => 0x0901 | .transmission => 0x0902 | .bccOnly => 0x0902 | .timing => 0x0903 | .protocol => 0x0904 | .late => 0x0905
  | .link => 0x0906

/-- The byte of ERRCNT that counts a class. -/
def ErrClass.byte : ErrClass → Nat
  | .timeout => 0 | .transmission => 1 | .bccOnly => 1 | .timing => 2 | .protocol => 2 | .late => 3 | .link => 3

/-- One byte of a word of counts saturates. -/
def countByte (w : Word) (k : Nat) : Word := if w.toNat / 256 ^ k % 256 = 255 then w else w + BitVec.ofNat 32 (256 ^ k)

/-- ERRCNT counts a class. -/
def Port.count (c : ErrClass) (p : Port) : Port := p.updPage fun g => { g with errcnt := countByte g.errcnt c.byte }

/-- An ERROR event. -/
def Port.error (e : TEnv) (c : ErrClass) (n : Nat) (p : Port) : Port := p.event e 0x06 c.code (p.causeTime e) c.status 0 n

/-- PHASE changes. -/
def Port.phase (x : Phase) (p : Port) : Port := p.updCtx fun c => { c with phase := x }

/-- PHASE as TSTATE shows it. -/
def Phase.code : Phase → Nat
  | .idle => 0 | .polling => 1 | .found => 2 | .activating => 3 | .ready => 4 | .exchange => 5 | .raw => 6 | .closing => 7
/-- TECH. -/
def Tech.code : Tech → Nat
  | .none => 0 | .a => 1 | .b => 2 | .v => 3

/-- TSTATE (Table 03-12). -/
def Port.tstate (p : Port) : Word :=
  BitVec.ofNat 32 (b2n p.page.busy * 2 ^ 31 + p.page.op.toNat * 65536 + p.ctx.tech.code * 4096 + p.ctx.rate * 256 + p.ctx.phase.code)

/-! ### The context's life (R65, R78, R82, R87, R89) -/

/-- OWNER of the context. -/
def Port.ownerByte (p : Port) : Byte := match p.owner with | none => 0xFF | some i => BitVec.ofNat 8 i.val

/-- Offsets 0x08 to 0xFF of the context are zeroed, and PHASE is IDLE; PROF stays (R65). -/
def Ctx.cleared (c : Ctx) : Ctx := { owner := c.owner, epoch := c.epoch, prof := c.prof, wakeCause := c.wakeCause, tick := c.tick }

/-- The context row is fetched (R65). -/
def Port.fetch (e : TEnv) (p : Port) : Port :=
  if p.ctx.owner = p.ownerByte ∧ p.ctx.epoch = e.epoch then p
  else { p with ctx := { owner := p.ownerByte, epoch := e.epoch, wakeCause := p.ctx.wakeCause, tick := p.ctx.tick }
                page := { p.page with busy := false } }

/-- The active period ends (R92): PROFILE_END completes a POLL, and the port returns to IDLE_SENSE. -/
def Port.profileEnd (e : TEnv) (status : BitVec 16) (p : Port) : Port :=
  { ((p.complete e status).event e 0x09 0 e.now status 0 p.ctx.cards).updCtx (fun c => { c with phase := .idle, step := .none, sent := false }) with
    askEnd := true }

/-- A port that is not ACTIVE: what its last active period left is ended (R78, R82, R95). -/
def Port.offAir (e : TEnv) (p : Port) : Port :=
  if p.page.busy && p.ctx.phase == .idle then
    if p.askPoll && p.state == .idleSense then p
    else
      let p := (p.complete e 0x0906).count .link
      let p := if e.runs then p.event e 0x06 7 e.now 0x0906 0 0 else p
      p.updCtx Ctx.cleared
  else if p.ctx.phase = .idle ∧ p.ctx.step ≠ .dark then p.updCtx Ctx.cleared
  else
    let st : BitVec 16 := if p.state = .idleSense then 0 else 0x0906
    let q :=
      if p.page.busy then ((p.count .link).complete e 0x0906).event e 0x06 7 e.now 0x0906 0 0
      else if p.ctx.phase = .found ∨ p.ctx.phase = .ready then p.event e 0x07 0 e.now 0 0 0
      else p
    (q.event e 0x09 0 e.now st 0 p.ctx.cards).updCtx Ctx.cleared

/-- The passes of a profile (Table 04-1) on this port; in a removal check only those of Type A and Type B (R92). -/
def passesOf (sh1 removal : Bool) (profile : Nat) : List Tech :=
  let l : List Tech := match profile with
    | 0 => [.a]
    | 1 => [.b]
    | 2 => [.a, .b]
    | 3 => [.a, .b, .v]
    | _ => [.v]
  l.filter fun t => !(t == .v && (sh1 || removal))

/-- The profile in force: that of a POLL, or cl.poll.profile (R82, R93). -/
def Port.profileNow (e : TEnv) (p : Port) : Nat := p.ctx.named.getD (e.par 0x0300)

/-- A port that has entered ACTIVE starts its active period (R82, R87, R89). -/
def Port.enter (e : TEnv) (p : Port) : Port :=
  if p.ctx.phase ≠ .idle ∨ p.ctx.step ≠ .none ∨ p.askEnd then p
  else if !e.runs then { p.complete e 0x0906 with askEnd := true }
  else
    let p := p.event e 0x01 0 e.now 0 0 p.ctx.wakeCause.toNat
    if passesOf p.sh1 false (p.profileNow e) = [] ∧ !p.hold then p.profileEnd e 0x090C
    else p.updCtx fun c => { c with phase := .polling, step := .fieldOn, sent := false }

/-- What every slice does first. -/
def Port.prelude (e : TEnv) (p : Port) : Port :=
  let p := p.fetch e
  if p.state = .active then p.enter e else p.offAir e

/-- Values of the carrier count that have passed are dropped, before they wrap. -/
def Port.age (e : TEnv) (p : Port) : Port :=
  p.updCtx fun c =>
    { c with notBefore := c.notBefore.filter (notEarlier · e.now)
             lastReq := c.lastReq.filter fun t => notEarlier (plus t 7000) e.now
             teof := c.teof.filter fun t => notEarlier (plus t 4192) e.now
             quiet := if notEarlier (plus c.quiet 1048576) e.now then c.quiet else e.now - 1048576 }

/-! ### The transmit side (R69 to R73, R75) -/

/-- Retry counts return to zero, and the limits are read, when a step starts (R77). -/
def Ctx.fresh (c : Ctx) : Ctx := { c with rTimeout := 0, rTrans := 0, rTiming := 0, rProto := 0, rBcc := 0, rLate := 0, rIso4 := 0 }

/-- The next step: its command has not been sent. -/
def Ctx.go (x : Step) (c : Ctx) : Ctx :=
  { c.fresh with step := x, sent := false, txLeft := [], tsof := none, bits := [], mask := [] }
/-- The same step again, a retry. -/
def Ctx.again (x : Step) (c : Ctx) : Ctx := { c with step := x, sent := false, txLeft := [], tsof := none, bits := [], mask := [] }

/-- No step: a card awaits the tenant. -/
def Ctx.rest (x : Phase) (c : Ctx) : Ctx :=
  { c.fresh with phase := x, step := .none, sent := false, txLeft := [], tsof := none, bits := [], mask := [] }

/-- Symbols whose scheduled start has passed (R69). -/
def Ctx.onAir (e : TEnv) (c : Ctx) : Nat :=
  if notEarlier e.now c.txStart then min c.txSent ((e.now - c.txStart).toNat / symPeriod c.prof + 1) else 0

/-- The receive window goes with the last symbols of a command (R73). -/
def Port.window (e : TEnv) (p : Port) : DownItem × Word :=
  let (o, c) := rxWindow p.ctx.e p.ctx.l (p.tMin e)
  (.rxc o c p.ctx.prof, c)

/-- The rest of a command's symbols: sent where the 1,024 of R46 allow it. -/
def Port.sendMore (e : TEnv) (p : Port) : Port :=
  match p.ctx.txLeft with
  | [] => p
  | g :: r =>
    if 1024 < p.ctx.txSent - p.ctx.onAir e + g.length then p
    else
      let last := r.isEmpty
      let item : DownItem := .txs 0 p.ctx.prof true false (last && p.ctx.txEof15) g
      let (w, cl) := p.window e
      { p.updCtx (fun c => { c with txLeft := r, txSent := c.txSent + g.length, sent := last, tClose := if last then cl else c.tClose }) with
        downq := item :: (if last then [w] else []) }

/-- A command goes out: its first symbols, at the earliest T that R70, R75 and the profile's guard times allow. -/
def Port.send (e : TEnv) (request : Bool) (a : AirFrame) (p : Port) : Port :=
  let c := p.ctx
  let t := p.tMin e
  let t := if a.long then plus t 256 else t
  let t := laterOpt t (c.teof.map fun x => plus x (fdtPcd a.prof) - BitVec.ofNat 32 p.txlat)
  let t := laterOpt t c.notBefore
  let t := if request then laterOpt t (c.lastReq.map (plus · 7000)) else t
  let start := plus t p.txlat
  let r := plus start a.ref
  let g := a.groups.headD []
  let rest := a.groups.drop 1
  let last := rest.isEmpty
  let p := p.updCtx fun c =>
    { c with r, e := plus r a.eMin, l := plus r a.lMax, prof := a.prof, txStart := if a.sof15 then plus start 1024 else start, txSent := g.length
             txLeft := rest, txEof15 := a.eof15, quiet := plus start a.dur, lastReq := if request then some t else c.lastReq
             tsof := none, bits := [], mask := [], sent := last }
  let p := if c.rTimeout + c.rTrans + c.rTiming + c.rProto + c.rBcc + c.rLate + c.rIso4 = 0 then
      p.updCtx fun c => { c with limTimeout := e.par 0x0200, limTrans := e.par 0x0201, limLate := e.par 0x0202 }
    else p
  let (w, cl) := p.window e
  { p.updCtx (fun c => { c with tClose := if last then cl else c.tClose }) with
    downq := .txs t a.prof false a.sof15 (a.eof15 && last) g :: (if last then [w] else []) }

/-- The carrier goes on, and the field guard starts (R89). -/
def Port.carrierOn (e : TEnv) (p : Port) : Port :=
  let t := laterOpt (p.tMin e) p.ctx.notBefore
  { p.updCtx (fun c => { c with step := .guard, sent := true, notBefore := some (plus t (e.par 0x0301)) }) with
    downq := [.fld t true p.ant], offAnt := p.ant }

/-- CAN, and the carrier goes off (R117). It stays off for cl.poll.reset_off_fc where the profile then restarts; a POLL after an
aborted POLL does not wait for that time. -/
def Port.carrierOff (e : TEnv) (p : Port) : Port :=
  let t := p.tMin e
  let hold := if p.ctx.step = .dark then 0 else e.par 0x0305
  { p.updCtx (fun c => { c with sent := true, notBefore := some (plus t hold), quiet := t, teof := none }) with
    downq := [.can, .fld t false p.offAnt] }

end Sys2Proof.Machine
end

