-- ==== Sys2Proof/Machine/Cards.lean ====
section
/-! DEFINITION. The contactless steps: what each sends, what it accepts, and where the port goes next (R89 to R118). -/

namespace Sys2Proof.Machine

/-! ### Frames (Tables 04-4 and 04-6) -/

/-- Bytes with CRC_A; with CRC_B. -/
def frameCrcA (b : Bytes) : Bytes := b ++ crcA b
def frameCrcB (b : Bytes) : Bytes := b ++ crcB b

/-- SEL of a cascade level. -/
def selCode (level : Nat) : Byte := [0x93, 0x95, 0x97].getD (level - 1) 0x97

/-- BCC of UID CLn. -/
def bccOf (uid : Bytes) : Byte := uid.foldl (· ^^^ ·) 0

/-- ANTICOLLISION with its known bits (R100). -/
def anticollFrame (level : Nat) (known : List Bool) : AirFrame :=
  let k := known.length
  airFixed (if k % 8 = 0 then 8 else k % 8) ([selCode level, BitVec.ofNat 8 ((2 + k / 8) * 16 + k % 8)] ++ toBytes known)

/-- A command of layer 3 of Type B; one with a frame waiting time. -/
def frameB (b : Bytes) : AirFrame := airB 0 1024 7680 (frameCrcB b)
def frameBWait (fwi : Nat) (b : Bytes) : AirFrame := airB 0 1024 (fwtOf fwi + deltaFwt) (frameCrcB b)

/-- Type A RATS and PPS. -/
def frameAct (b : Bytes) : AirFrame := airA 0 8 false 800 71680 (frameCrcA b)

/-- A request of ISO/IEC 15693. -/
def frameV (b : Bytes) : AirFrame := airV 4320 4384 (frameCrcB b)

/-- A block of ISO/IEC 14443-4. -/
def Ctx.blockFrame (l : Nat) (b : Bytes) (c : Ctx) : AirFrame :=
  if c.tech = .b then airB c.rate 1024 l (frameCrcB b) else airA c.rate 8 false 800 l (frameCrcA b)

/-- PCB and CID. -/
def Ctx.prologue (base : Nat) (c : Ctx) : Bytes :=
  BitVec.ofNat 8 (base + 8 * b2n c.cidUsed) :: (if c.cidUsed then [c.cid.setWidth 8] else [])

/-- The I-block last prepared. -/
def Ctx.iBlock (c : Ctx) : Bytes :=
  c.prologue (0x02 + b2n c.lastBn + 16 * b2n c.lastChain + 4 * b2n c.lastNad) ++ (if c.lastNad then [c.nad] else []) ++ c.lastInf

/-- RAW's frame and limits (R97). -/
def rawFrame (tech : Tech) (iso4 : Bool) (rate fwi : Nat) (arg : BitVec 16) (b : Bytes) : AirFrame :=
  let n := (arg.extractLsb' 8 8).toNat
  let crc := arg.getLsbD 0
  let v := (arg.extractLsb' 4 3).toNat
  let last := if crc ∨ v = 0 then 8 else v
  match tech with
  | .b =>
    let b := if crc then frameCrcB b else b
    if n = 0 then airB rate 1024 (if iso4 then blockWait fwi 1 else 7680) b else airB rate 1024 (max (n * 128) 1088) b
  | .v =>
    let b := if crc then frameCrcB b else b
    if n = 0 then airV 4320 4384 b else if n = 255 then airV 4320 271200 b else airV 4320 (max (n * 128) 4384) b
  | _ =>
    let b := if crc then frameCrcA b else b
    if n = 0 then (if iso4 then airA rate last false 800 (blockWait fwi 1) b else airA rate last true 0 0 b)
    else airA rate last false 800 (max (n * 128) 864) b

/-- LEN bytes of the TX area. -/
def Page.txBytes (g : Page) : Bytes := Memory.readN g.mem 0x1C0 (g.cmdArg.extractLsb' 0 16).toNat

/-- The PUPI of the card in the ATQB. -/
def Ctx.pupi (c : Ctx) : Bytes := slice c.atqb 1 4

/-- The command of a step; none where the step sends none. -/
def Port.frameOf (p : Port) : Option AirFrame :=
  let c := p.ctx
  match c.step with
  | .none => none
  | .fieldOn => none
  | .guard => none
  | .gap => none
  | .resetOff => none
  | .dark => none
  | .endDue => none
  | .noPass => none
  | .reqA => some (airFixed 7 [if c.haltedA && !c.removal then 0x26 else 0x52])
  | .antA => some (anticollFrame c.level c.known)
  | .selA => let u := toBytes (c.known.take 32); some (airFixed 8 (frameCrcA ([selCode c.level, 0x70] ++ u ++ [bccOf u])))
  | .hltA _ => some (airA 0 8 false 0 13560 (frameCrcA [0x50, 0x00]))
  | .rats => some (frameAct [0xE0, BitVec.ofNat 8 (c.fsdi.toNat * 16 + c.cid.toNat)])
  | .pps => some (frameAct [BitVec.ofNat 8 (0xD0 + c.cid.toNat), 0x11, BitVec.ofNat 8 (c.wantRate * 5)])
  | .reqB =>
    let wake := c.bSeqs = 1 ∧ (!c.haltedB ∨ c.removal)
    some (frameB [0x05, c.cfg.afi, BitVec.ofNat 8 ((if wake then 8 else 0) + Nat.log2 c.bN)])
  | .markB => some (frameB [BitVec.ofNat 8 ((c.bSlot - 1) * 16 + 5)])
  | .attrib =>
    some (frameBWait c.fwi ([0x1D] ++ c.pupi ++ [0x00, BitVec.ofNat 8 (c.wantRate * 80 + c.fsdi.toNat), 0x01, c.cid.setWidth 8]))
  | .hltB => some (frameBWait c.fwi ([0x50] ++ c.pupi))
  | .inv => some (frameV ([0x06, 0x01, BitVec.ofNat 8 c.vMask.length] ++ toBytes c.vMask))
  | .slot15 => some airSlot
  | .stayQuiet => some (frameV ([0x22, 0x02] ++ c.vUid))
  | .iblk => some (c.blockFrame (blockWait c.fwi 1) c.iBlock)
  | .rack => some (c.blockFrame (blockWait c.fwi 1) (c.prologue (0xA2 + b2n c.bn)))
  | .rnak => some (c.blockFrame (blockWait c.fwi 1) (c.prologue (0xB2 + b2n c.bn)))
  | .wtxResp => some (c.blockFrame (blockWait c.fwi c.wtxm) (c.prologue 0xF2 ++ [BitVec.ofNat 8 c.wtxm]))
  | .desel => some (c.blockFrame 114688 (c.prologue 0xC2))
  | .deselLast => some (c.blockFrame 114688 (c.prologue 0xC2))
  | .raw => some (rawFrame c.tech c.iso4 c.rate c.fwi c.arg p.page.txBytes)

/-- The bits that a step expects, where its reply has one length. -/
def Ctx.expected (c : Ctx) : Option Nat :=
  match c.step with
  | .reqA => some 18
  | .antA => some (40 - c.known.length + (5 - c.known.length / 8))
  | .selA => some 27
  | .pps => some 27
  | .reqB => some 140
  | .markB => some 140
  | .inv => some 96
  | .slot15 => some 96
  | .hltB => some 30
  | .desel => some ((3 + b2n c.cidUsed) * (if c.tech = .b then 10 else 9))
  | _ => none

/-! ### Rounds and passes (R90 to R94) -/

/-- A pass starts. -/
def Ctx.startPass (t : Tech) (c : Ctx) : Ctx :=
  let c := { c with tech := t, rate := 0 }
  match t with
  | .a => ({ c with level := 1, known := [], levels := [], path := [] } : Ctx).go .reqA
  | .b => ({ c with bN := c.cfg.slots, bSlot := 1, bColl := false, bSeqs := 1 } : Ctx).go .reqB
  | .v => ({ c with vMask := [], vSlot := 0, vColl := [], vTodo := [] } : Ctx).go .inv
  | .none => c.go .gap

/-- The polling parameters as they stand. -/
def TEnv.pollCfg (e : TEnv) : PollCfg :=
  { gap := e.par 0x0302, empty := e.par 0x0303, removal := e.par 0x0304 != 0, first := e.par 0x0306 != 0, afi := BitVec.ofNat 8 (e.par 0x0307)
    slots := e.par 0x0308 }

/-- A round starts; one without a pass is handled as R92 says. -/
def Port.roundStart (e : TEnv) (p : Port) : Port :=
  let p := p.updCtx fun c => if c.repoll then { c with repoll := false, removal := false, empty := 0 } else c
  let p := p.updCtx fun c => { c with profile := c.named.getD (e.par 0x0300), cfg := e.pollCfg, roundFrame := false }
  match passesOf p.sh1 p.ctx.removal p.ctx.profile with
  | t :: r => p.updCtx fun c => { c with passes := r }.startPass t
  | [] =>
    if p.hold then p.updCtx fun c => { c with removal := false }.go .noPass
    else if p.ctx.removal then p.profileEnd e 0
    else p.profileEnd e 0x090C

/-- A round ends: empty rounds are counted. -/
def Port.roundEnd (e : TEnv) (p : Port) : Port :=
  let c := p.ctx
  let n := if c.roundFrame then 0 else c.empty + 1
  if c.repoll ∨ n < c.cfg.empty then p.updCtx fun c => { c with empty := n }.go .gap
  else if p.hold then p.updCtx fun c => { c with empty := 0, removal := false }.go .gap
  else if c.removal then p.updCtx fun c => { c with endStatus := 0 }.go .endDue
  else if c.cards = 0 then p.updCtx fun c => { c with endStatus := 0x090A }.go .endDue
  else if c.cfg.removal then
    if passesOf p.sh1 true c.profile = [] then p.profileEnd e 0
    else p.updCtx fun c => { c with empty := 0, removal := true }.go .gap
  else p.updCtx fun c => { c with endStatus := 0 }.go .endDue

/-- A pass ends. -/
def Port.passEnd (e : TEnv) (p : Port) : Port := if p.ctx.passes = [] then p.roundEnd e else p.updCtx (Ctx.go .gap)

/-- A gap ends: the next pass begins, or the next round (R90). -/
def Port.gapEnd (e : TEnv) (p : Port) : Port :=
  let p := p.updCtx fun c => { c with notBefore := some (laterOpt (plus c.quiet c.cfg.gap - BitVec.ofNat 32 p.txlat) c.notBefore) }
  match p.ctx.passes with
  | t :: r => p.updCtx fun c => { c with passes := r }.startPass t
  | [] => p.roundStart e

/-- The next slot of a Type B pass (R107). -/
def Port.nextSlotB (e : TEnv) (p : Port) : Port :=
  let c := p.ctx
  if c.removal then p.passEnd e
  else if c.bSlot < c.bN then p.updCtx fun c => { c with bSlot := c.bSlot + 1 }.go .markB
  else if c.bColl ∧ c.bSeqs < 4 then
    p.updCtx fun c => { c with bN := min 16 (2 * c.bN), bSlot := 1, bColl := false, bSeqs := c.bSeqs + 1 }.go .reqB
  else p.passEnd e

/-- The next slot of an Inventory, or the next sequence (R114). -/
def Port.nextSlotV (e : TEnv) (p : Port) : Port :=
  let c := p.ctx
  if c.vSlot < 15 then p.updCtx fun c => { c with vSlot := c.vSlot + 1 }.go .slot15
  else match c.vColl ++ c.vTodo with
    | [] => p.passEnd e
    | m :: r => p.updCtx fun c => { c with vMask := m, vSlot := 0, vColl := [], vTodo := r }.go .inv

/-- The profile goes on where the card was found (R87, R105, R107, R116). -/
def Port.resume (e : TEnv) (p : Port) : Port :=
  let p := p.updCtx fun c => { c with phase := .polling, iso4 := false, rate := 0 }
  match p.ctx.tech with
  | .b => p.nextSlotB e
  | .v => p.nextSlotV e
  | .a => p.updCtx fun c => { c with passes := .a :: c.passes }.go .gap
  | .none => p.passEnd e

/-! ### Cards found (R103, R104, R107, R114, R118) -/

/-- The card record is written whole. -/
def Page.record (b : Bytes) (g : Page) : Page := { g with mem := Memory.writeN g.mem 0x140 (padTo 128 b) }

/-- A card is found: its record, POLL's end and CARD_FOUND. -/
def Port.found (e : TEnv) (coll : Byte) (rec : Nat → Bytes) (p : Port) : Port :=
  let n := p.ctx.cards + 1
  let p := p.updPage (Page.record (rec n))
  let p := ((p.updCtx fun c => { c with cards := n, tick := c.tick + 1 }).phase .found).complete e 0
  let p := p.tell e 0x02 0 (n % 256 + 256 * coll.toNat)
  p.updCtx (Ctx.rest .found)

/-- The positions of a path at which a UID holds the other value. -/
def differing (levels : List (List Bool)) (path : List (Nat × Bool)) : List Nat :=
  (path.filter fun (q, v) => match levels[q / 32]? with
    | some l => l.getD (q % 32) v != v
    | none => false).map (·.1)

/-- COLL_POS (R104). -/
def collPos (levels : List (List Bool)) (path last : List (Nat × Bool)) : Byte :=
  let l := if path ≠ [] then path.map (·.1) else differing levels last
  if l = [] then 0xFF else BitVec.ofNat 8 (l.foldl max 0)

/-- A Type A card whose UID is complete. -/
def Port.foundA (e : TEnv) (p : Port) : Port :=
  let c := p.ctx
  let k := c.levels.length
  let uid := ((c.levels.take (k - 1)).flatMap fun l => (toBytes l).drop 1) ++ toBytes (c.levels.getLastD [])
  let coll := collPos c.levels c.path c.lastPath
  (p.updCtx fun c => { c with lastPath := c.path }).found e coll fun n =>
    [1, 0, BitVec.ofNat 8 uid.length, BitVec.ofNat 8 n] ++ padTo 10 uid ++ [coll, BitVec.ofNat 8 k] ++ c.atqa ++ [c.sak]

/-- A Type B card. -/
def Port.foundB (e : TEnv) (atqb : Bytes) (p : Port) : Port :=
  let pi := slice atqb 9 3
  let w := byteAt pi 2
  (p.updCtx fun c => { c with atqb, lastPath := [], fwi := (if w.toNat / 16 = 15 then 4 else w.toNat / 16), sfgi := 0, cardNad := w.getLsbD 1, cardCid := w.getLsbD 0 }).found e 0xFF
    fun n => [2, 0, 4, BitVec.ofNat 8 n] ++ padTo 10 (slice atqb 1 4) ++ [0xFF, 0, 0, 0, 0, 0] ++ atqb

/-- An ISO/IEC 15693 card. -/
def Port.foundV (e : TEnv) (dsfid : Byte) (uid : Bytes) (p : Port) : Port :=
  (p.updCtx fun c => { c with vUid := uid, lastPath := [] }).found e 0xFF fun n =>
    [3, 0, 8, BitVec.ofNat 8 n] ++ padTo 10 uid ++ [0xFF, 0, 0, 0, 0, dsfid]

/-! ### Commands that end (R105, R106, R108, R110, R113) -/

/-- CARD_LOST, and polling goes on (R77). -/
def Port.lost (e : TEnv) (p : Port) : Port := (p.tell e 0x07 0 0).resume e

/-- ACTIVATE fails. -/
def Port.activateFailed (e : TEnv) (c : ErrClass) (n : Nat) (p : Port) : Port := ((p.complete e c.status).error e c n).lost e

/-- HALT or DESELECT completes; the card counts as halted whatever the outcome (R91). A DESELECT that fails loses the card (R77). -/
def Port.released (e : TEnv) (err : Option (ErrClass × Nat)) (p : Port) : Port :=
  let st : BitVec 16 := match err with | none => 0 | some (c, _) => c.status
  let p := (p.complete e st).tell e 0x05 st p.page.op.toNat
  let p : Port := match err with
    | none => p
    | some (c, n) =>
      let p := p.error e c n
      if p.ctx.step = .desel then p.tell e 0x07 0 0 else p
  (p.updCtx fun c => { c with haltedA := c.haltedA || c.tech == .a, haltedB := c.haltedB || c.tech == .b }).resume e

/-- RX_LEN and RESPONSE. -/
def Port.response (e : TEnv) (status : BitVec 16) (chain : Nat) (p : Port) : Port :=
  let n := min p.ctx.rxOff 2048
  let p := p.updPage fun g => { g with rxLen := BitVec.ofNat 32 (n + (if status = 0 then 2 ^ 31 else 0)) }
  (p.complete e status).event e 0x04 0 (p.causeTime e) status n chain

/-- EXCHANGE fails (R77, R112). -/
def Port.exchangeFailed (e : TEnv) (c : ErrClass) (n : Nat) (p : Port) : Port :=
  ((p.response e c.status p.ctx.rxChain).error e c n).lost e

/-- RAW fails. -/
def Port.rawFailed (e : TEnv) (c : ErrClass) (n : Nat) (p : Port) : Port :=
  let p := (p.response e c.status 0).error e c n
  if p.ctx.iso4 then p.lost e else p.updCtx (Ctx.rest .found)

/-- The status of a response that is complete on the air (R83). -/
def Ctx.sizeStatus (c : Ctx) : BitVec 16 := if 2048 < c.rxOff then 0x0907 else 0

/-- EXCHANGE completes. -/
def Port.exchangeDone (e : TEnv) (p : Port) : Port := (p.response e p.ctx.sizeStatus p.ctx.rxChain).updCtx (Ctx.rest .ready)

/-- The status of a step whose retries are exhausted (R77, R94). -/
def Port.exhausted (e : TEnv) (c : ErrClass) (n : Nat) (p : Port) : Port :=
  match p.ctx.step with
  | .rats => p.activateFailed e c n
  | .pps => p.activateFailed e c n
  | .attrib => p.activateFailed e c n
  | .hltA _ => p.released e (some (c, n))
  | .hltB => p.released e (some (c, n))
  | .stayQuiet => p.released e (some (c, n))
  | .desel => p.released e (some (c, n))
  | .iblk => p.exchangeFailed e c n
  | .rack => p.exchangeFailed e c n
  | .rnak => p.exchangeFailed e c n
  | .wtxResp => p.exchangeFailed e c n
  | .deselLast => p.exchangeFailed e .protocol 0
  | .raw => p.rawFailed e c n
  | .guard => p.error e c n
  | .fieldOn => p.error e c n
  | _ => (p.error e c n).passEnd e

/-- Retries that a class has used in this step, and its limit (Table 03-7). -/
def Ctx.used (c : Ctx) : ErrClass → Nat × Nat
  | .timeout => (c.rTimeout, c.limTimeout)
  | .transmission => (c.rTrans, if c.step = .hltB then c.limTimeout else c.limTrans)
  | .timing => (c.rTiming, if c.step = .hltB then c.limTimeout else c.limTrans)
  | .bccOnly => (c.rBcc, 1)
  | .late => (c.rLate, c.limLate)
  | .protocol => (c.rProto, if c.step = .hltB then c.limTimeout else 0)
  | .link => (0, 0)

/-- A class has used one more retry. -/
def Ctx.useOne (k : ErrClass) (c : Ctx) : Ctx :=
  match k with
  | .timeout => { c with rTimeout := c.rTimeout + 1 }
  | .transmission => { c with rTrans := c.rTrans + 1 }
  | .timing => { c with rTiming := c.rTiming + 1 }
  | .bccOnly => { c with rBcc := c.rBcc + 1 }
  | .late => { c with rLate := c.rLate + 1 }
  | .protocol => { c with rProto := c.rProto + 1 }
  | .link => c

/-- A step of the block protocol. -/
def Step.block (x : Step) : Bool := x == .iblk || x == .rack || x == .rnak || x == .wtxResp

/-- A step ends in an error class: it is retried, recovered, or exhausted (R77, R112, R113). -/
def Port.fail (e : TEnv) (k : ErrClass) (p : Port) : Port :=
  let c := p.ctx
  let p := if c.step = .deselLast then p else p.count k
  let lost := k == .timeout || k == .transmission || k == .timing
  if c.step = .deselLast then p.exchangeFailed e .protocol 0
  else if c.step.block && k == .protocol then p.updCtx (Ctx.go .deselLast)
  else if (c.step.block || c.step == .desel) && lost then
    if c.rIso4 < c.limIso4 then
      let x : Step := if c.step.block && c.step != .rack then .rnak else c.step
      p.updCtx fun c => { c with rIso4 := c.rIso4 + 1 }.again x
    else p.exhausted e k c.rIso4
  else
    let (n, lim) := c.used k
    if n < lim then p.updCtx fun c => (c.useOne k).again (if c.step = .guard then .fieldOn else c.step) else p.exhausted e k n

/-! ### Replies -/

/-- A frame that is not whole, or not in time: a slot counts as collided (R107, R114), HLTA as answered (R105). -/
def Port.broken (e : TEnv) (k : ErrClass) (p : Port) : Port :=
  let c := p.ctx
  match c.step with
  | .hltA again => if again then (p.count .protocol).released e (some (.protocol, 1)) else (p.count k).updCtx (Ctx.go (.hltA true))
  | .reqB => ((p.count k).updCtx fun c => { c with bColl := true }).nextSlotB e
  | .markB => ((p.count k).updCtx fun c => { c with bColl := true }).nextSlotB e
  | .inv | .slot15 =>
    if 60 ≤ c.vMask.length then ((p.count k).error e .transmission 0).passEnd e
    else
      let m := c.vMask ++ (List.range 4).map c.vSlot.testBit
      ((p.count k).updCtx fun c => { c with vColl := c.vColl ++ [m] }).nextSlotV e
  | .stayQuiet => p.fail e .protocol
  | _ => p.fail e k

/-- The reply to an ANTICOLLISION (R100 to R102). -/
def Port.replyAnt (e : TEnv) (p : Port) : Port :=
  let c := p.ctx
  let k := c.known.length
  let r := decodeA true (c.bits.length / 8 + 2) (c.known.drop (8 * (k / 8))) k c.bits c.mask
  if c.bits.length < 8 then p.fail e .protocol
  else if !r.ok then p.fail e .transmission
  else if k + r.data.length ≠ 40 then p.fail e .protocol
  else
    let all := c.known ++ r.data
    let hits := r.colls.filter (· < 32)
    if hits ≠ [] then
      let q := hits.foldl min 31
      p.updCtx fun c =>
        { c with known := all.take q ++ [c.cfg.first], path := c.path ++ [((c.level - 1) * 32 + q, c.cfg.first)] }.go (if q = 31 then .selA else .antA)
    else if r.colls ≠ [] then p.fail e .bccOnly
    else
      let u := toBytes (all.take 32)
      if bccOf u = bitsByte (all.drop 32) then p.updCtx fun c => { c with known := all.take 32 }.go .selA else p.fail e .transmission

/-- The SAK (R103). -/
def Port.replySak (e : TEnv) (sak : Byte) (p : Port) : Port :=
  let c := p.ctx
  let cl := c.known.take 32
  let p := p.updCtx fun c => { c with levels := c.levels ++ [cl], sak }
  if sak.getLsbD 2 then
    if c.level = 3 ∨ bitsByte (cl.take 8) ≠ 0x88 then p.fail e .protocol
    else p.updCtx fun c => { c with level := c.level + 1, known := [] }.go .antA
  else p.foundA e

/-- FSC of a frame size code (R106). -/
def cardFsc (code : Nat) : Nat := [16, 24, 32, 40, 48, 64, 96, 128, 256, 512, 1024, 1024, 1024].getD code 256
/-- FSD of an FSDI (Table 04-9). -/
def cardFsd (code : Nat) : Nat := [16, 24, 32, 40, 48, 64, 96, 128, 256, 512, 1024].getD code 1024

/-- The highest rate index no greater than `limit` that a capability byte grants in both directions (log 5). -/
def grantedRate (limit : Nat) (b : Byte) : Nat :=
  let both (r : Nat) : Bool := b.getLsbD (r - 1) && b.getLsbD (r + 3)
  if 3 ≤ limit ∧ both 3 then 3 else if 2 ≤ limit ∧ both 2 then 2 else if 1 ≤ limit ∧ both 1 then 1 else 0

/-- ACTIVATE completes (R106 step 7, R108). SFGT counts from the end of the last card frame, the PPSS where a PPS follows the ATS
(log 70). -/
def Port.activated (e : TEnv) (p : Port) : Port :=
  let c := { p.ctx with rate := p.ctx.wantRate, iso4 := true, bn := false }
  let sfgt := if 1 ≤ c.sfgi ∧ c.sfgi ≤ 14 then 4096 * 2 ^ c.sfgi else 0
  let hold := c.teof.map fun t => plus t sfgt - BitVec.ofNat 32 p.txlat
  let flags := b2n c.cidUsed + 2 * b2n c.nadUsed + 4 * b2n c.cardCid + 8 * b2n c.cardNad + 16
  let rec1 := leN 2 c.fsc ++ [BitVec.ofNat 8 c.fwi, BitVec.ofNat 8 c.sfgi, if c.cidUsed then c.cid.setWidth 8 else 0, BitVec.ofNat 8 flags, c.fsdi.setWidth 8, 0] ++
    leN 2 c.ans.length ++ [0, 0] ++ padTo 80 (c.ans.take 80)
  let p := { p with ctx := { c with notBefore := hold.map fun t => laterOpt t c.notBefore } }
  let p := p.updPage fun g => { g with mem := Memory.writeN (Memory.write g.mem 0x141 (BitVec.ofNat 8 c.rate)) 0x164 rec1 }
  ((p.complete e 0).tell e 0x03 0 c.fsc).updCtx (Ctx.rest .ready)

/-- The ATS (R106). -/
def Port.replyAts (e : TEnv) (b : Bytes) (p : Port) : Port :=
  let t0 := byteAt b 1
  let has (k : Nat) : Bool := decide (2 ≤ b.length) && t0.getLsbD k
  let iA := 2
  let iB := iA + b2n (has 4)
  let iC := iB + b2n (has 5)
  if b = [] ∨ (byteAt b 0).toNat ≠ b.length ∨ b.length < (if 2 ≤ b.length then iC + b2n (has 6) else 1) then p.fail e .protocol
  else
    let fsci := if 2 ≤ b.length then t0.toNat % 16 else 2
    let tb := if has 5 then (byteAt b iB).toNat else 64
    let tc := if has 6 then byteAt b iC else 0x02
    let fwi := if tb / 16 = 15 then 4 else tb / 16
    let r := if has 4 then grantedRate p.ctx.wantRate (byteAt b iA) else 0
    let p := p.updCtx fun c =>
      { c with ans := b, fsc := cardFsc fsci, fwi, sfgi := tb % 16, cardCid := tc.getLsbD 1, cardNad := tc.getLsbD 0
               cidUsed := c.arg.getLsbD 8 && tc.getLsbD 1, nadUsed := c.arg.getLsbD 9 && tc.getLsbD 0, wantRate := r }
    if r = 0 then p.activated e else p.updCtx (Ctx.go .pps)

/-- A block of the card's. -/
inductive CardBlock where
  | info (bn chain : Bool) (nad : Option Byte) (inf : Bytes)
  | ack (bn : Bool)
  | wtx (m : Nat)
  | desel
  | bad
  deriving DecidableEq, Repr

/-- A block read (R109). -/
def Ctx.parseBlock (c : Ctx) (b : Bytes) : CardBlock :=
  match b with
  | [] => .bad
  | pcb :: r =>
    let cid := pcb.getLsbD 3
    if cid != c.cidUsed ∨ (cid ∧ (r = [] ∨ (byteAt r 0).extractLsb' 0 4 ≠ c.cid)) then .bad
    else
      let r := if cid then r.drop 1 else r
      if pcb &&& 0xE2 = 0x02 then
        if pcb.getLsbD 2 then
          match r with
          | n :: inf => if c.nadUsed then .info (pcb.getLsbD 0) (pcb.getLsbD 4) (some n) inf else .bad
          | [] => .bad
        else .info (pcb.getLsbD 0) (pcb.getLsbD 4) none r
      else if pcb &&& 0xF6 = 0xA2 ∧ r = [] then .ack (pcb.getLsbD 0)
      else if pcb &&& 0xF7 = 0xF2 ∧ r.length = 1 then .wtx ((byteAt r 0).toNat % 64)
      else if pcb &&& 0xF7 = 0xC2 ∧ r = [] then .desel
      else .bad

/-- Bytes go to the RX area; what lies beyond its 2,048 is not stored. -/
def Port.place (b : Bytes) (p : Port) : Port :=
  let o := p.ctx.rxOff
  (p.updPage fun g => { g with mem := Memory.writeN g.mem (0x800 + o) (b.take (2048 - o)) }).updCtx fun c => { c with rxOff := o + b.length }

/-- The next I-block of the TX bytes (R109, R110). -/
def Ctx.nextBlock (first : Bool) (c : Ctx) : Ctx :=
  let nad := first && c.nadUsed
  let m := c.fsc - 3 - b2n c.cidUsed - b2n nad
  ({ c with lastBn := c.bn, lastInf := c.txRest.take m, txRest := c.txRest.drop m, lastChain := decide (m < c.txRest.length), lastNad := nad } : Ctx).go .iblk

/-- A block arrives in an exchange (R109 to R112). With NAD in use, a first block without NAD leaves 0 in byte 0 of the RX area
(log 70). -/
def Port.replyBlock (e : TEnv) (b : Bytes) (p : Port) : Port :=
  let c := p.ctx
  if cardFsd c.fsdi.toNat < b.length + 2 then p.fail e .protocol
  else match c.parseBlock b with
    | .info bn chain nad inf =>
      if bn != c.bn ∨ c.lastChain then p.fail e .protocol
      else
        let data := (if c.nadUsed ∧ c.rxChain = 0 then [nad.getD 0] else []) ++ inf
        let p := (p.place data).updCtx fun c => { c with bn := !c.bn, rxChain := c.rxChain + 1 }
        if chain then p.updCtx (Ctx.go .rack) else p.exchangeDone e
    | .ack bn =>
      if bn = c.bn then
        if c.lastChain then p.updCtx fun c => { c with bn := !c.bn }.nextBlock false else p.fail e .protocol
      else if c.rIso4 < c.limIso4 then p.updCtx fun c => { c with rIso4 := c.rIso4 + 1 }.again .iblk
      else (p.count .protocol).exhausted e .protocol c.rIso4
    | .wtx m =>
      if m = 0 ∨ 59 < m then p.fail e .protocol
      else (p.tell e 0x08 0 m).updCtx fun c => { c with wtxm := m }.go .wtxResp
    | .desel => p.fail e .protocol
    | .bad => p.fail e .protocol

/-- The reply of a step in which frames carry whole bytes and a CRC; none: an error of class TRANSMISSION. -/
def Ctx.reply (c : Ctx) : Option Bytes := (replyBytes c.prof c.bits c.mask).bind (stripCrc c.prof)

/-- A card frame in time, without a coding error. -/
def Port.accept (e : TEnv) (p : Port) : Port :=
  let c := p.ctx
  match c.step with
  | .reqA =>
    let r := decodeA true (c.bits.length / 9 + 2) [] 0 c.bits c.mask
    if c.bits.length < 8 then p.fail e .protocol
    else if !r.ok then p.fail e .transmission
    else if r.data.length ≠ 16 then p.fail e .protocol
    else if c.removal then p.passEnd e
    else p.updCtx fun c => { c with atqa := toBytes r.data }.go .antA
  | .antA => p.replyAnt e
  | .hltA _ => p.broken e .protocol
  | .stayQuiet => p.broken e .protocol
  | .deselLast => p.fail e .protocol
  | .raw =>
    match (if c.arg.getLsbD 1 then c.reply else replyBytes c.prof c.bits c.mask) with
    | none => p.fail e .transmission
    | some b =>
      let p := p.place b
      (p.response e p.ctx.sizeStatus 0).updCtx (Ctx.rest (if c.iso4 then .ready else .found))
  | _ =>
    match c.reply with
    | none => p.broken e .transmission
    | some b =>
      match c.step with
      | .selA => if b.length = 1 then p.replySak e (byteAt b 0) else p.fail e .protocol
      | .rats => p.replyAts e b
      | .pps => if b = [BitVec.ofNat 8 (0xD0 + c.cid.toNat)] then p.activated e else p.fail e .protocol
      | .reqB | .markB =>
        if b.length ≠ 12 ∨ byteAt b 0 ≠ 0x50 then p.fail e .protocol
        else if c.removal then p.passEnd e
        else p.foundB e b
      | .attrib =>
        if (byteAt b 0).extractLsb' 0 4 ≠ c.cid ∨ b = [] then p.fail e .protocol
        else (p.updCtx fun c => { c with ans := b }).activated e
      | .hltB => if b = [0x00] then p.released e none else p.fail e .protocol
      | .inv | .slot15 => if b.length ≠ 10 ∨ byteAt b 0 ≠ 0 then p.fail e .protocol else p.foundV e (byteAt b 1) (b.drop 2)
      | .desel => if c.parseBlock b = .desel then p.released e none else p.fail e .protocol
      | .iblk | .rack | .rnak | .wtxResp => p.replyBlock e b
      | _ => p

/-- A card frame is complete: it is judged (R74). `g` is the frame of the window that brought its end. -/
def Port.judge (e : TEnv) (g : Nat) (err : Bool) (p : Port) : Port :=
  match p.ctx.tsof with
  | none => p
  | some t =>
    let edge := plus t p.rxlat
    let c := p.ctx
    let teof := if isA c.prof then plus edge ((1 + c.bits.length) * symPeriod c.prof) else plus (frameStart g) 128
    let p := p.updCtx fun c => { c with teof := some teof, quiet := later c.quiet teof }
    if !(notEarlier edge (c.e - 16) && notEarlier c.l edge) then p.broken e .timing
    else if err && c.expected != some c.bits.length then p.broken e .transmission
    else p.accept e

/-- The end of the window in which a start of frame can still be reported (R74): the start of frame Fc + 2. -/
def Ctx.giveUp (c : Ctx) : Word := plus (c.tClose &&& 0xFFFFFF00) 512

/-- A step that has sent a command, or is to send one. -/
def Step.listens (x : Step) : Bool :=
  !(x == .none || x == .fieldOn || x == .guard || x == .gap || x == .resetOff || x == .dark || x == .endDue || x == .noPass)

/-- Bits of a card frame. A start of frame that no step awaits is discarded. -/
def Port.piece (g : Nat) (sof : Bool) (t : Word) (bits mask : List Bool) (p : Port) : Port :=
  if sof then
    let p := p.updPage fun x => { x with lastTsof := t }
    if p.ctx.step.listens && p.ctx.sent && !notEarlier (frameStart g) p.ctx.giveUp then
      p.updCtx fun c => { c with tsof := some t, bits, mask, roundFrame := true }
    else p.updCtx fun c => { c with tsof := none, bits := [], mask := [] }
  else if p.ctx.tsof.isSome then p.updCtx fun c => { c with bits := c.bits ++ bits, mask := c.mask ++ mask }
  else p

/-- A late item fails the step that it belongs to (R43). -/
def Port.lateItem (e : TEnv) (itype : Byte) (p : Port) : Port :=
  if p.ctx.step = .guard then (if itype = 0x02 then p.fail e .late else p)
  else if p.frameOf.isSome ∧ (p.ctx.sent ∨ p.ctx.txLeft ≠ []) then p.fail e .late
  else p

/-- The receive lane: at most 32 bits of items of earlier frames, each card frame that ends and each late item judged in turn (R62,
R66, R86). -/
def Port.receive (e : TEnv) : Nat → Nat → Port → Port
  | 0, _, p => p
  | k + 1, room, p =>
    match p.upq with
    | [] => p
    | (g, i) :: r =>
      if e.f ≤ g then p
      else
        let q := { p with upq := r }
        match i with
        | .lte _ _ it => Port.receive e k room (q.lateItem e it)
        | .rxb sof eof err t bits mask =>
          if bits.length ≤ room then
            let q := q.piece g sof t bits mask
            Port.receive e k (room - bits.length) (if eof || err then q.judge e g err else q)
          else if room = 0 then p
          else ({ p with upq := (g, .rxb false eof err 0 (bits.drop room) (mask.drop room)) :: r }).piece g sof t (bits.take room) (mask.take room)
        | .prp .. => Port.receive e k room q
        | .hst .. => Port.receive e k room q

/-- The transmit lane: it writes where the downlink queue is empty, the CAN and FLD of R56 among what waits there (R69). -/
def Port.transmit (e : TEnv) (p : Port) : Port :=
  if p.state ≠ .active ∨ p.downq ≠ [] ∨ p.canDue then p
  else match p.frameOf with
    | some a => if p.ctx.txLeft ≠ [] then p.sendMore e else if p.ctx.sent then p else p.send e (p.ctx.step == .reqA) a
    | none =>
      if p.ctx.step = .fieldOn then p.carrierOn e
      else if (p.ctx.step = .resetOff ∨ p.ctx.step = .dark) ∧ !p.ctx.sent then p.carrierOff e
      else p

/-- The end of a window without a reply (R74, R94). -/
def Port.timeout (e : TEnv) (p : Port) : Port :=
  match p.ctx.step with
  | .reqA => p.passEnd e
  | .reqB | .markB => p.nextSlotB e
  | .inv | .slot15 => p.nextSlotV e
  | .hltA _ => p.released e none
  | .stayQuiet => p.released e none
  | .deselLast => p.exchangeFailed e .protocol 0
  | _ => p.fail e .timeout

end Sys2Proof.Machine
end

