-- ==== Sys2Proof/Machine/Commands.lean ====
section
/-! DEFINITION. The tenant's commands to Thyme, the slice, and the ends of guards, gaps and profiles (R61, R74, R81 to R83, R85,
R89 to R93, R97, R105 to R117). -/

namespace Sys2Proof.Machine

/-! ### Taking a command (R81, R82) -/

/-- Operations of Table 03-13. -/
def knownOp (op : Nat) : Bool := (1 ≤ op && op ≤ 6) || op = 0x0F

/-- The status of a command that is not taken; none where it is (R81 step 4, R93, R106, R108, R116, R117). -/
def Port.refusal (op arg len : Nat) (p : Port) : Option (BitVec 16) :=
  let c := p.ctx
  let badPhase : Option (BitVec 16) := some 0x0908
  if !knownOp op ∨ 1600 < len then some 0x090B
  else if p.state ≠ .active ∧ op ≠ 1 then badPhase
  else if op = 0x0F then (if p.page.busy then none else badPhase)
  else if p.page.busy then badPhase
  else match op with
    | 1 =>
      if c.phase ≠ .idle ∧ c.phase ≠ .polling then badPhase
      else if 4 < arg ∨ (arg = 4 ∧ p.sh1) then some 0x090C
      else none
    | 2 =>
      let able := match c.tech with
        | .a => c.sak.getLsbD 5
        | .b => (byteAt c.atqb 10).getLsbD 0
        | _ => false
      if c.phase ≠ .found then badPhase else if !able ∨ 10 < arg % 16 then some 0x090C else none
    | 3 => if c.phase = .ready then none else badPhase
    | 4 => if c.phase = .found ∨ c.phase = .ready then none else badPhase
    | 5 => if c.phase = .found then none else badPhase
    | _ => if c.phase = .ready then none else badPhase

/-- POLL on an ACTIVE port (R93). -/
def Port.takePoll (e : TEnv) (arg : Nat) (p : Port) : Port :=
  let c := p.ctx
  let p := p.updCtx fun c => { c with named := some arg }
  if c.phase = .polling then p.updCtx fun c => { c with repoll := true }
  else
    let p := p.updCtx fun c => { c with phase := .polling, removal := false, empty := 0, haltedA := false, haltedB := false }
    if c.step = .dark then p.updCtx fun c => { c with step := if c.sent then .fieldOn else .resetOff, sent := false }
    else p.roundStart e

/-- ACTIVATE (R106, R108). -/
def Port.takeActivate (e : TEnv) (arg : BitVec 16) (p : Port) : Port :=
  let c := { p.ctx with phase := .activating, fsdi := arg.extractLsb' 0 4, wantRate := e.par 0x0309 }
  let cid : BitVec 4 := if arg.getLsbD 8 then arg.extractLsb' 4 4 else 0
  if c.tech = .b then
    let used := arg.getLsbD 8 && c.cardCid
    let r := grantedRate c.wantRate (byteAt c.atqb 9)
    let c := { c with cid := if used then cid else 0, cidUsed := used, nadUsed := arg.getLsbD 9 && c.cardNad, wantRate := r
                      fsc := cardFsc ((byteAt c.atqb 10).toNat / 16) }
    { p with ctx := c.go .attrib }
  else { p with ctx := ({ c with cid } : Ctx).go .rats }

/-- EXCHANGE (R110). -/
def Port.takeExchange (e : TEnv) (p : Port) : Port :=
  let tx := p.page.txBytes
  let c := { p.ctx with phase := .exchange, rxChain := 0, rxOff := 0, wtxm := 1, nad := Memory.read p.page.mem 0x1C0
                        txRest := if p.ctx.nadUsed then tx.drop 1 else tx }
  { p with ctx := { c.nextBlock true with limIso4 := e.par 0x030A }, page := { p.page with rxLen := 0 } }

/-- ABORT (R117): its events, then the context is zeroed (R65) but for the profile that a POLL named, which stays the port's (R82). -/
def Port.takeAbort (e : TEnv) (p : Port) : Port :=
  let c := p.ctx
  let op := p.page.op.toNat
  let p := (p.complete e 0x0909).event e 0x05 0 e.now 0x0909 0 op
  let p := if c.phase = .idle ∨ c.phase = .polling then p else p.event e 0x07 0 e.now 0 0 0
  let fresh := { c.cleared with named := c.named }
  if op = 1 then
    if p.hold then { p with ctx := { fresh with step := .dark } }
    else
      let p := p.profileEnd e 0x0909
      { p with ctx := fresh }
  else { p with ctx := { fresh with phase := .polling, step := .resetOff } }

/-- A command that is taken (R81 step 5). -/
def Port.take (e : TEnv) (op : Nat) (arg : BitVec 16) (p : Port) : Port :=
  if op = 0x0F then p.takeAbort e
  else
    let p := (p.updPage fun g => { g with busy := true, op := BitVec.ofNat 8 op }).updCtx fun c => { c with arg }
    match op with
    | 1 => if p.state = .active then p.takePoll e arg.toNat else { p.updCtx (fun c => { c with named := some arg.toNat }) with askPoll := true }
    | 2 => p.takeActivate e arg
    | 3 => p.takeExchange e
    | 4 => (p.updPage fun g => { g with rxLen := 0 }).updCtx fun c => { c with phase := .raw, rxOff := 0 }.go .raw
    | 5 => p.updCtx fun c => { c with phase := .closing }.go (match c.tech with | .b => .hltB | .v => .stayQuiet | _ => .hltA false)
    | _ => p.updCtx fun c => { { c with phase := .closing }.go .desel with limIso4 := e.par 0x030A }

/-- CMD is sampled (R81, R82). -/
def Port.sample (e : TEnv) (p : Port) : Port :=
  let w := p.page.cmd
  if !w.getLsbD 15 ∨ p.owner = none then p
  else
    let op := (w.extractLsb' 0 8).toNat
    let arg := p.page.cmdArg.extractLsb' 16 16
    let p := p.updPage fun g => { g with cmd := g.cmd &&& 0xFFFF7FFF }
    if w.extractLsb' 16 16 ≠ e.epoch then p.result e 0x0203
    else if p.state ≠ .active ∧ p.state ≠ .idleSense then p.atOnce e 0x0906 op
    else match p.refusal op arg.toNat (p.page.cmdArg.extractLsb' 0 16).toNat with
      | some st => p.atOnce e st op
      | none => p.take e op arg

/-! ### The slice (R61 to R63) -/

/-- A start of frame reported in time waits in the uplink queue (R74). -/
def Port.sofWaits (p : Port) : Bool :=
  p.upq.any fun (g, i) => match i with
    | .rxb sof .. => sof && !notEarlier (frameStart g) p.ctx.giveUp
    | .prp .. => false
    | .lte .. => false
    | .hst .. => false

/-- The execute stage. -/
def Port.runSlice (e : TEnv) (p : Port) : Port :=
  if p.sliceDone = some e.f then p
  else
    let p := ((({ p with sliceDone := some e.f }).prelude e).age e).sample e
    if p.state = .active then (p.receive e (p.upq.length + 1) 32).transmit e else p

/-- What a slice of frame F reads: frame F's values for every port, port 0 too, whose fetch Table 03-1 puts before the boundary
(log 70). -/
def State.tenv (n : Fin 512) (s : State) : TEnv :=
  { f := s.frameNo, n := n.val, epoch := s.store.portEpoch[n]
    runs := match (s.sprig.ports[n]).owner with | none => false | some i => (s.tenants.slots[i]).state == .running
    par := fun k => s.param k n.val }

/-- A port after Thyme has worked on it; cards found are counted for SAVE_ON_FAIL (R366). -/
def State.thyme (n : Fin 512) (g : TEnv → Port → Port) (s : State) : State :=
  if s.portsRun then
    let q := g (s.tenv n) s.sprig.ports[n]
    let s := s.updPort n fun _ => q.updCtx fun c => { c with tick := 0 }
    if q.ctx.tick = 0 then s
    else { s with store := { s.store with vals := modify s.store.vals (⟨2 * n.val + 1, by omega⟩ : Fin 4096) (· + BitVec.ofNat 64 q.ctx.tick) } }
  else s

def execThymeSlice (port : Fin 512) (s : State) : Res := .next <| s.thyme port Port.runSlice

def execReceiveTimeout (port : Fin 512) (s : State) : Res :=
  .next <| s.thyme port fun e p =>
    let p := p.prelude e
    if p.state = .active ∧ p.frameOf.isSome ∧ p.ctx.sent ∧ p.ctx.tsof = none ∧ notEarlier e.now p.ctx.giveUp ∧ !p.sofWaits then (p.timeout e).transmit e else p

def execFieldGuardEnd (port : Fin 512) (s : State) : Res :=
  .next <| s.thyme port fun e p =>
    let p := p.prelude e
    if p.state = .active ∧ p.ctx.step = .guard then (p.roundStart e).transmit e else p

def execTechGapEnd (port : Fin 512) (s : State) : Res :=
  .next <| s.thyme port fun e p =>
    let p := p.prelude e
    if p.state = .active ∧ p.ctx.step = .gap then (p.gapEnd e).transmit e
    else if p.state = .active ∧ p.ctx.step = .noPass then (p.roundStart e).transmit e
    else p

def execResetOffEnd (port : Fin 512) (s : State) : Res :=
  .next <| s.thyme port fun e p =>
    let p := p.prelude e
    if p.state = .active ∧ p.ctx.step = .resetOff ∧ p.ctx.sent then (p.updCtx fun c => { c with step := .fieldOn, sent := false }).transmit e else p

def execProfileEnd (port : Fin 512) (s : State) : Res :=
  .next <| s.thyme port fun e p =>
    let p := p.prelude e
    if p.state = .active ∧ p.ctx.step = .endDue then p.profileEnd e p.ctx.endStatus else p

/-! ### The tenant's stores (R81, R83, R85) -/

/-- A port page takes stores of its owner's core. -/
def State.ownerCalls (port : Fin 512) (s : State) : Bool :=
  match (s.sprig.ports[port]).owner with
  | none => false
  | some i => (s.sprig.ports[port]).moved.isNone && s.calls i

/-- A store that Thyme discards. -/
def Page.discard (g : Page) : Page := { g with fence := sat16 g.fence }

/-- A store to CMD (R83). -/
def Page.writeCmd (v : Word) (g : Page) : Page :=
  if g.busy && !(v.getLsbD 15 && (v.extractLsb' 0 8 == 0x0F)) then g.discard else { g with cmd := v &&& 0xFFFF80FF }

/-- The owner issues a command under the present epoch with the ARG and LEN of CMD_ARG, and Thyme samples it. -/
def State.command (op : Byte) (port : Fin 512) (s : State) : State :=
  if s.ownerCalls port then
    s.thyme port fun e p =>
      (((p.updPage (Page.writeCmd (e.epoch ++ (0x80 : Byte) ++ op))).prelude e).sample e).transmit e
  else s

def execCmdPoll (port : Fin 512) (s : State) : Res := .next <| s.command 0x01 port
def execCmdActivate (port : Fin 512) (s : State) : Res := .next <| s.command 0x02 port
def execCmdExchange (port : Fin 512) (s : State) : Res := .next <| s.command 0x03 port
def execCmdRaw (port : Fin 512) (s : State) : Res := .next <| s.command 0x04 port
def execCmdHalt (port : Fin 512) (s : State) : Res := .next <| s.command 0x05 port
def execCmdDeselect (port : Fin 512) (s : State) : Res := .next <| s.command 0x06 port
def execCmdAbort (port : Fin 512) (s : State) : Res := .next <| s.command 0x0F port

/-- A store to EVQ_RD (R85). -/
def Page.writeEvqRd (v : BitVec 16) (g : Page) : Page :=
  if (g.evqWr - v).toNat ≤ 16 then { g with evqRd := v } else { g.discard with evqRd := g.evqWr }

def execEvqRdWrite (port : Fin 512) (v : BitVec 16) (s : State) : Res :=
  .next <| if s.ownerCalls port then s.updPort port fun p => p.updPage (Page.writeEvqRd v) else s

end Sys2Proof.Machine
end

