-- ==== Sys2Proof/Machine/Pke.lean ====
section
/-! DEFINITION. The public-key engine and the hash unit (R309 to R323). -/

namespace Sys2Proof.Machine

/-! ### Operations and their operands (Table 13-9) -/

/-- Field length of a curve: 1 P-256, 2 P-384, 3 P-521. -/
def fieldLen (c : Nat) : Nat := if c = 1 then 32 else if c = 2 then 48 else 66
/-- The hash or HMAC of a code. -/
def hashOf (h : Nat) (key : Option Bytes) (b : Bytes) : Bytes :=
  match key with
  | none => digest h b
  | some k => hmac h k b

/-- PK_ARG (Table 13-5). -/
def argSize (a : Word) : Nat := a.toNat % 256
def argHash (a : Word) : Nat := a.toNat / 256 % 256
def argPad (a : Word) : Nat := a.toNat / 65536 % 256

/-- The curve of a key: 1 to 3 NIST, 4 X25519, 5 Ed25519; 0 none. -/
def Entry.curve (e : Entry) : Nat :=
  if e.cls = 4 then (if e.alg = 1 then 1 else if e.alg = 2 then 4 else if e.alg = 3 then 5 else 0)
  else if e.cls = 5 then (if e.alg = 2 then 2 else if e.alg = 3 then 3 else 0)
  else 0

/-- The key is an EXT RSA key. -/
def Entry.isRsa (e : Entry) : Bool := e.cls == 5 && e.alg == 1

/-- An operation names a key. -/
def pkeKeyed (op : Nat) : Bool := op == 1 || op == 3 || op == 4 || op == 7 || op == 9 || op == 10

/-- Class and usage that an operation asks of its key (Table 13-9). -/
def pkeAccepts (op : Nat) (arg : Word) (e : Entry) : Bool :=
  match op with
  | 1 => (e.curve == 1 || e.curve == 2 || e.curve == 3) && e.may 7
  | 3 => (e.curve == 1 || e.curve == 2 || e.curve == 3 || e.curve == 4) && e.may 8
  | 4 => e.curve == 5 && e.may 7
  | 7 => e.isRsa && (if argPad arg = 3 then e.may 1 else e.may 7)
  | 9 => aesWith 5 e
  | 10 => e.cls == 4 || e.cls == 5
  | _ => true

/-- A template of an EXT key: its ALG; it is not VOLATILE (log 14). -/
def extTemplate (b : Bytes) : Option Template :=
  match readTemplate b with
  | none => none
  | some t => if t.cls = 5 ∧ 1 ≤ t.alg ∧ t.alg ≤ 3 ∧ !t.vol then some t else none

/-- Length of a public key in the encoding of Table 13-11; `k` for RSA. -/
def publicLen (cls alg k : Nat) : Nat :=
  if cls = 4 then (if alg = 1 then 64 else 32) else if alg = 1 then k + 4 else if alg = 2 then 96 else 132

/-- Bytes of an EXT key of ALG (R316). -/
def extKeyLen (alg k : Nat) : Nat := if alg = 1 then k + 4 + 5 * (k / 2) else if alg = 2 then 48 else 66

/-- Step 3 of Table 13-10: the result length where the operands fit; `src` is the source where it may be read. -/
def pkeFits (op : Nat) (arg : Word) (e : Entry) (secret : Bytes) (n : Nat) (src : Option Bytes) : Option Nat :=
  let b := src.getD []
  let known := src.isSome
  match op with
  | 1 => let f := fieldLen e.curve
    if min f 64 ≤ n ∧ n ≤ 64 then some (2 * f) else none
  | 2 =>
    let f := fieldLen (argSize arg)
    if 1 ≤ argSize arg ∧ argSize arg ≤ 3 ∧ 4 * f + min f 64 ≤ n ∧ n ≤ 4 * f + 64 then some 0 else none
  | 3 =>
    let peer := if e.curve = 4 then 32 else 2 * fieldLen e.curve
    let ok := match keyTemplate b with
      | none => false
      | some (t, _) => (t.cls == 1 || t.cls == 3) && !t.vol && decide (1 ≤ fld b 16 1 ∧ fld b 16 1 ≤ 64) && n == 17 + fld b 16 1 + peer
    if known then (if ok then some 8 else none) else (if 18 + peer ≤ n ∧ n ≤ 81 + peer then some 8 else none)
  | 4 => if n ≤ 65536 then some 64 else none
  | 5 => if 96 ≤ n ∧ n ≤ 96 + 65536 then some 0 else none
  | 6 =>
    let k := 8 * argSize arg
    if 8 ≤ argSize arg ∧ argSize arg ≤ 64 then
      if argPad arg = 0 then (if n = 2 * k + 4 then some k else none)
      else if (argPad arg = 1 ∨ argPad arg = 2) ∧ 1 ≤ argHash arg ∧ argHash arg ≤ 3 ∧ n = 2 * k + 4 + digestLen (argHash arg) then some 0
      else none
    else none
  | 7 =>
    let k := rsaLen secret
    if 1 ≤ argHash arg ∧ argHash arg ≤ 3 then
      if argPad arg = 1 ∨ argPad arg = 2 then (if n = digestLen (argHash arg) then some k else none)
      else if argPad arg = 3 then (if n = k then some (k - 2 * digestLen (argHash arg) - 2) else none)
      else none
    else none
  | 8 =>
    let k := 8 * argSize arg
    let rsaOk := argSize arg = 32 ∨ argSize arg = 48 ∨ argSize arg = 64
    if n ≠ 16 then none
    else if known then
      match extTemplate b with
      | none => none
      | some t => if t.alg = 1 ∧ !rsaOk then none else some (8 + publicLen 5 t.alg k)
    else some 8
  | 9 =>
    if known then
      match extTemplate b with
      | none => none
      | some t =>
        let m := n - 16
        let fits := if t.alg = 1 then (List.range 33).any fun j => m == (16 + extKeyLen 1 (8 * (32 + j)) + 7) / 8 * 8 + 8
          else m == (16 + extKeyLen t.alg 0 + 7) / 8 * 8 + 8
        if 16 ≤ n ∧ fits then some 8 else none
    else some 8
  | 10 => some (publicLen e.cls.toNat e.alg.toNat (rsaLen secret))
  | _ => none

/-- An operation makes an entry. -/
def pkeMakes (op : Nat) : Bool := op == 3 || op == 8 || op == 9
/-- An operation draws random values (R314). -/
def pkeDraws (op : Nat) (arg : Word) : Bool := op == 1 || (op == 7 && argPad arg == 2) || op == 8
/-- An operation reads a source range. -/
def pkeReads (op : Nat) : Bool := op != 10

/-- A job ends, or is refused: its results, STATUS, DONE, and the slot may wake. -/
def State.pkeEnd (i : Fin 128) (status : BitVec 16) (f : JobPage → JobPage) (s : State) : State :=
  let s := (s.updPk i fun p => { f p with busy := false, job := none, status, evt := p.evt.hit }).jobDone i
  { s with pke := { s.pke with running := s.pke.running.filter (· != i) } }

/-- The private key of an entry: its secret, or the key material of its blob; none where the blob is lost. -/
def State.privateKey (i : Fin 128) (k : KIdx) (s : State) : Option Bytes :=
  let e := s.entry k
  if e.cls = 5 then match s.store.find (blobId i k) with | .copy c => some c.body | _ => none
  else some e.key

/-- Steps 1 and 2 of Table 13-10. -/
def State.pkeKey (i : Fin 128) (op : Nat) (p : JobPage) (s : State) : State × Except (BitVec 16) (Option Entry × Bytes) :=
  if !pkeKeyed op then (s, .ok (none, []))
  else if s.kctLocked then (s, .error 0x0703)
  else
    let ans := s.keyCheck i p.key (pkeAccepts op p.arg) 3
    let s := ans.1
    match ans.2 with
    | some st => (s, .error st)
    | none =>
      let k := handleIndex p.key
      match s.privateKey i k with
      | none => (s.noteRead (blobId i k), .error 0x0504)
      | some b => (s, .ok (some (s.entry k), b))

/-- The ranges of a job, source then destination (step 4). -/
def State.pkeRanges (i : Fin 128) (op : Nat) (p : JobPage) (res : Nat) (s : State) : Option (BitVec 2 × Nat) :=
  match (if pkeReads op then s.badByte i p.src.toNat p.srclen.toNat false else none) with
  | some b => some (1, b)
  | none => (if res = 0 then none else s.badByte i p.dst.toNat p.dstlen.toNat true).map fun b => (2, b)

/-- The job that a page's operands give. -/
def JobPage.job? (p : JobPage) (op : Nat) (cls : BitVec 2) (e : Option Entry) (secret input : Bytes) : PkeJob :=
  { op := BitVec.ofNat 8 op, cls, key := p.key, entry := e, secret, arg := p.arg, input, dst := p.dst, dstlen := p.dstlen.toNat }

/-- A slot's job waits for the engine, or is unfinished. -/
def State.pkeReady (i : Fin 128) (s : State) : Bool := match (s.pke.pages[i]).job with | some j => !j.waiting | none => false
/-- Its class. -/
def State.pkeClass (i : Fin 128) (s : State) : Nat := match (s.pke.pages[i]).job with | some j => j.cls.toNat | none => 4

/-- The slots of the lowest class that has a job. -/
def State.pkeRunners (s : State) : List (Fin 128) :=
  let l := (List.finRange 128).filter s.pkeReady
  let c := l.foldl (fun m i => min m (s.pkeClass i)) 4
  l.filter fun i => s.pkeClass i == c

/-- The slot with the highest credit; the lower index in a tie. -/
def bestCredit (v : Vector Int 128) : List (Fin 128) → Option (Fin 128)
  | [] => none
  | i :: r => match bestCredit v r with
    | none => some i
    | some j => if v[j] > v[i] then some j else some i

/-- The next job is chosen by class, share and credit. -/
def State.pkeChoose (s : State) : State :=
  let l := s.pkeRunners
  let share (i : Fin 128) : Nat := (s.tenants.slots[i]).run.pke
  let paid := l.filter fun i => share i != 0
  match paid with
  | [] => { s with pke := { s.pke with running := l.head? } }
  | _ =>
    let v := paid.foldl (fun (v : Vector Int 128) (i : Fin 128) => v.set i (v[i] + share i)) s.pke.credit
    match bestCredit v paid with
    | none => s
    | some b =>
      let credit := v.set b (v[b] - (paid.map share).sum)
      { s with pke := { s.pke with running := some b, credit } }

/-- The use of a job's key is counted, and the job joins those that wait for the engine; an idle engine starts it (R319). -/
def State.pkeQueue (i : Fin 128) (j : PkeJob) (s : State) : State :=
  let use := if pkeKeyed j.op.toNat then s.countUse i j.key else (s, true)
  if use.2 then
    let s := use.1.updPk i fun p => { p with busy := true, job := some { j with waiting := false } }
    if s.pke.running.isNone then s.pkeChoose else s
  else s.pkeEnd i 0x0501 id

/-- The checks of Table 13-10, the draw and the count of a job (R312 to R317). -/
def State.pkeTake (i : Fin 128) (op : Nat) (cls : BitVec 2) (s : State) : State :=
  let p := s.pke.pages[i]
  let ans := s.pkeKey i op p
  let s := ans.1
  match ans.2 with
  | .error st => s.pkeEnd i st id
  | .ok (e, secret) =>
    let n := if pkeReads op then p.srclen.toNat else 0
    let readable := (s.badByte i p.src.toNat n false).isNone
    let src := if readable then some (s.dmaRead i p.src.toNat n) else none
    match pkeFits op p.arg (e.getD {}) secret n src with
    | none => s.pkeEnd i 0x0108 id
    | some res =>
      if p.dstlen.toNat < res ∨ (res ≠ 0 ∧ overlap p.src.toNat n p.dst.toNat p.dstlen.toNat) then s.pkeEnd i 0x0108 id
      else match s.pkeRanges i op p res with
        | some (f, b) => (s.split i).pkeEnd i 0x0308 fun q => { q with frange := f, fault := BitVec.ofNat 32 b }
        | none => match (if pkeMakes op then s.kctRoom i 1 false else none) with
          | some st => s.pkeEnd i st id
          | none =>
            let cls : BitVec 2 := if cls = 0 ∧ (s.tenants.slots[i]).run.class0 = 0 then 1 else cls
            let j := p.job? op cls e secret (src.getD [])
            if pkeDraws op p.arg then
              let q : DrbgReq := { client := .pke i, inst := fixedInst i, len := 64 }
              match s.drawKind q (p.arg.getLsbD 31) with
              | .refused st => s.pkeEnd i st id
              | .queued => (s.queueDraw q).updPk i fun p => { p with busy := true, job := some { j with waiting := true } }
              | .now =>
                let j := { j with draw := s.drawOut q }
                (s.drawNow q).pkeQueue i j
            else s.pkeQueue i j

/-- A store of PK_CMD with GO = 1 (R310). -/
def State.pkeIssue (i : Fin 128) (op : Nat) (cls : BitVec 2) (s : State) : State :=
  if s.calls i then
    if (s.pke.pages[i]).busy then s.updPk i fun p => { p with ignored := sat8 p.ignored }
    else ((s.updPk i fun p => { p with cmd := BitVec.ofNat 32 (cls.toNat * 4096 + op), frange := 0 }).pkeTake i op cls).evictTo (s.lines i) i
  else s

def execEcSign (slot : Fin 128) (cls : BitVec 2) (s : State) : Res := .next <| s.pkeIssue slot 0x01 cls
def execEcVerify (slot : Fin 128) (cls : BitVec 2) (s : State) : Res := .next <| s.pkeIssue slot 0x02 cls
def execEcAgree (slot : Fin 128) (cls : BitVec 2) (s : State) : Res := .next <| s.pkeIssue slot 0x03 cls
def execEdSign (slot : Fin 128) (cls : BitVec 2) (s : State) : Res := .next <| s.pkeIssue slot 0x04 cls
def execEdVerify (slot : Fin 128) (cls : BitVec 2) (s : State) : Res := .next <| s.pkeIssue slot 0x05 cls
def execRsaPublic (slot : Fin 128) (cls : BitVec 2) (s : State) : Res := .next <| s.pkeIssue slot 0x06 cls
def execRsaPrivate (slot : Fin 128) (cls : BitVec 2) (s : State) : Res := .next <| s.pkeIssue slot 0x07 cls
def execExtGenerate (slot : Fin 128) (cls : BitVec 2) (s : State) : Res := .next <| s.pkeIssue slot 0x08 cls
def execExtImport (slot : Fin 128) (cls : BitVec 2) (s : State) : Res := .next <| s.pkeIssue slot 0x09 cls
def execPublicKey (slot : Fin 128) (cls : BitVec 2) (s : State) : Res := .next <| s.pkeIssue slot 0x0A cls

/-- ABORT takes effect at the next slice boundary (R313). -/
def execPkeAbort (slot : Fin 128) (s : State) : Res :=
  .next <|
    if s.calls slot then
      if (s.pke.pages[slot]).busy then (s.updPk slot fun p => { p with cmd := (p.cmd &&& 0x3000) ||| 0x0F }).stopPke slot
      else s.updPk slot fun p => { p with ignored := sat8 p.ignored }
    else s

/-! ### Results -/

/-- A modulus, exponent and input that R315 accepts. -/
def rsaInputOk (n e x : Bytes) : Bool :=
  beVal n % 2 == 1 && byteAt n 0 != 0 && beVal e % 2 == 1 && decide (3 ≤ beVal e) && decide (beVal x < beVal n)

/-- What a finished job gives: a status with nothing written, the destination's bytes, or a new entry with what
follows its handle and KCV. -/
inductive PkeOut where
  | status (st : BitVec 16)
  | bytes (b : Bytes)
  | key (t : Template) (secret : Bytes) (kcv : BitVec 24) (blob : Option Bytes) (after : Bytes)
  deriving DecidableEq, Repr

/-- EC_AGREE: the derived key of the template (R311). -/
def agreeOut (j : PkeJob) (e : Entry) : PkeOut :=
  let n := fld j.input 16 1
  let label := slice j.input 17 n
  let peer := j.input.drop (17 + n)
  let z := if e.curve = 4 then x25519 j.secret peer else (curveOf e.curve).shared (beVal j.secret) peer
  if (e.curve ≠ 4 ∧ !(curveOf e.curve).pointOk peer) ∨ (e.curve = 4 ∧ allZero z) then .status 0x0408
  else match keyTemplate j.input with
    | none => .status 0x0108
    | some (t, len) =>
      let key := (hmac256 z (beN 4 1 ++ label ++ [0] ++ beN 4 (8 * len))).take len
      .key t key (kcvOf t.cls t.alg key) none []

/-- RSA_PUBLIC. -/
def rsaPublicOut (j : PkeJob) : PkeOut :=
  let k := 8 * argSize j.arg
  let n := j.input.take k
  let e := slice j.input k 4
  let x := slice j.input (k + 4) k
  if !rsaInputOk n e x then .status 0x0408
  else if argPad j.arg = 0 then .bytes (beN k (powMod (beVal x) (beVal n) 32 (beVal e)))
  else if rsaVerify (argPad j.arg) (argHash j.arg) n e x (j.input.drop (2 * k + 4)) then .status 0 else .status 0x0407

/-- RSA_PRIVATE. -/
def rsaPrivateOut (j : PkeJob) : PkeOut :=
  let k := rsaLen j.secret
  if argPad j.arg = 3 then
    if beVal (j.secret.take k) ≤ beVal j.input then .status 0x0408
    else match oaepOpen (argHash j.arg) j.secret j.input with
      | some b => .bytes (b.take (k - 2 * digestLen (argHash j.arg) - 2))
      | none => .status 0x0407
  else match rsaSign (argPad j.arg) (argHash j.arg) j.secret j.input (j.draw.take (digestLen (argHash j.arg))) with
    | some b => .bytes b
    | none => .status 0x0108

/-- An EXT key of ALG made from a draw: which one, the spec does not say (log 6). -/
def extKeyFrom (alg k : Nat) (draw : Bytes) : Bytes :=
  if alg = 1 then rsaLayout k (Config.primeFrom k draw false % 2 ^ (4 * k)) (Config.primeFrom k draw true % 2 ^ (4 * k))
  else beN (fieldLen alg) ((curveOf alg).scalar draw 0)

/-- An EXT key of ALG passes the checks of R316. -/
def extKeyOk (alg : Nat) (key : Bytes) : Bool :=
  if alg = 1 then (rsaKey key).ok else decide (1 ≤ beVal key ∧ beVal key < (curveOf alg).n)

/-- EXT_GENERATE. -/
def extGenOut (j : PkeJob) : PkeOut :=
  match extTemplate j.input with
  | none => .status 0x0108
  | some t =>
    let key := extKeyFrom t.alg (8 * argSize j.arg) j.draw
    .key t (j.draw.take 32) (kcvOf 5 t.alg key) (some key) (publicKey 5 t.alg key)

/-- EXT_IMPORT: its blob key is drawn by the device. -/
def extImportOut (j : PkeJob) (blobKey : Bytes) : PkeOut :=
  match extTemplate j.input, kwpOpen j.secret (j.input.drop 16) with
  | none, _ => .status 0x0108
  | some _, none => .status 0x0407
  | some t, some p =>
    let key := p.drop 16
    if p.take 16 = j.input.take 16 ∧ key.length = extKeyLen t.alg (rsaLen key) ∧ extKeyOk t.alg key then .key t blobKey (kcvOf 5 t.alg key) (some key) []
    else .status 0x0408

/-- The result of a job. -/
def PkeJob.result (j : PkeJob) (fresh : Bytes) : PkeOut :=
  let e := j.entry.getD {}
  match j.op.toNat with
  | 1 => .bytes ((curveOf e.curve).sign (beVal j.secret) j.input j.draw)
  | 2 =>
    let c := argSize j.arg
    let f := fieldLen c
    let q := j.input.take (2 * f)
    let l := j.input.length - 4 * f
    if !(curveOf c).pointOk q then .status 0x0408
    else if (curveOf c).verify q (slice j.input (2 * f) l) (j.input.drop (2 * f + l)) then .status 0 else .status 0x0407
  | 3 => agreeOut j e
  | 4 => .bytes (edSign j.secret j.input)
  | 5 =>
    let a := j.input.take 32
    if (edDecode a).isNone then .status 0x0408
    else if edVerify a (j.input.drop 96) (slice j.input 32 64) then .status 0 else .status 0x0407
  | 6 => rsaPublicOut j
  | 7 => rsaPrivateOut j
  | 8 => extGenOut j
  | 9 => extImportOut j fresh
  | _ => .bytes (publicKey e.cls.toNat e.alg.toNat j.secret)

/-- The destination is written with OUTLEN, and the job completes. -/
def State.pkeWrite (i : Fin 128) (j : PkeJob) (b : Bytes) (s : State) : State :=
  (s.dmaWrite i j.dst.toNat b).pkeEnd i 0 fun p => { p with outlen := BitVec.ofNat 17 b.length }

/-- A new entry, with its blob record, and its handle in the destination (R316). -/
def State.pkeMake (i : Fin 128) (j : PkeJob) (t : Template) (secret : Bytes) (kcv : BitVec 24) (blob : Option Bytes) (after : Bytes) (s : State) : State :=
  let ans := s.create i t secret kcv
  let s := ans.1
  match ans.2 with
  | .error st => s.pkeEnd i st fun p => { p with outlen := 0 }
  | .ok h =>
    let put : State × BitVec 16 := match blob with
      | none => (s, 0)
      | some b =>
        let w := s.writeRec i (blobId i (handleIndex h)) false b true
        (w.1, w.2.1)
    let s := put.1
    let st := put.2
    if st ≠ 0 then (s.freeEntry i (handleIndex h)).pkeEnd i st fun p => { p with outlen := 0 }
    else s.pkeWrite i j (leN 4 h.toNat ++ leN 4 kcv.toNat ++ after)

/-- Operations whose result is checked with the public key before its release (R318). -/
def pkeChecked (op : Nat) : Bool := op == 1 || op == 4 || op == 7

/-- The running job completes; `ok`: the check of R318 passes. -/
def State.pkeFinish (i : Fin 128) (ok : Bool) (s : State) : State :=
  match (s.pke.pages[i]).job with
  | none => s
  | some j =>
    if pkeChecked j.op.toNat && !ok then
      (s.log 0x06 j.op [BitVec.ofNat 8 i.val]).pkeEnd i 0x0409 fun p => { p with outlen := 0 }
    else match j.result (s.random 32) with
      | .status st => s.pkeEnd i st fun p => { p with outlen := 0 }
      | .bytes b => s.pkeWrite i j b
      | .key t k c b a => s.drawn.pkeMake i j t k c b a

/-! ### Slices (R319) -/

/-- Jobs that are to end, end at the boundary. -/
def State.pkeEndings (s : State) : State :=
  (List.finRange 128).foldl (fun s i => match (s.pke.pages[i]).job with
    | some j => match j.ending with
      | some st =>
        let s := s.pkeEnd i st id
        { s with mint := s.mint.forget (·.client == .pke i) }
      | none => s
    | none => s) s

/-- A slice boundary: the running job is finished or suspended, and the next one is chosen. -/
def execPkeSliceEnd (finished ok : Bool) (s : State) : Res :=
  .next <|
    if s.live then
      let s := match s.pke.running with
        | some i => if finished then (s.pkeFinish i ok).evictTo (s.lines i) i else s
        | none => s
      s.pkeEndings.pkeChoose
    else s

/-! ### The hash unit (R322, R323) -/

/-- A hash operation completes or is refused. -/
def State.hashEnd (i : Fin 128) (status : BitVec 16) (f : JobPage → JobPage) (s : State) : State :=
  (s.updPk i fun p => { f p with hbusy := false, hjob := none, hstatus := status, hevt := p.hevt.hit }).jobDone i

/-- A store of PK_HCMD with GO = 1: counted while the half is BUSY, else taken. -/
def State.hashTake (i : Fin 128) (cmd : Nat) (f : JobPage → State → State) (s : State) : State :=
  if s.calls i then
    if (s.pke.pages[i]).hbusy then s.updPk i fun p => { p with hignored := sat8 p.hignored }
    else f s.pke.pages[i] (s.updPk i fun p => { p with hcmd := BitVec.ofNat 32 cmd, hfrange := 0 })
  else s

def execHashInit (slot : Fin 128) (halg : BitVec 4) (s : State) : Res :=
  .next <| s.hashTake slot (halg.toNat * 256 + 1) fun _ s =>
    if 1 ≤ halg.toNat ∧ halg.toNat ≤ 4 then s.hashEnd slot 0 fun p => { p with ctx := some { alg := halg.toNat } }
    else s.hashEnd slot 0x0108 id

def execHmacInit (slot : Fin 128) (vfy : Bool) (s : State) : Res :=
  .next <| s.hashTake slot (16384 * b2n vfy + 2) fun p s =>
    if s.kctLocked then s.hashEnd slot 0x0703 id
    else
      let s :=
        let ans := s.keyCheck slot p.hkey (fun e => e.cls == 3 && e.may (if vfy then 3 else 2)) 1
        let s := ans.1
        match ans.2 with
        | some st => s.hashEnd slot st id
        | none =>
          let use := s.countUse slot p.hkey
          if use.2 then
            let e := use.1.entry (handleIndex p.hkey)
            use.1.hashEnd slot 0 fun q => { q with ctx := some { alg := e.alg.toNat, key := some e.key, verify := vfy, handle := p.hkey } }
          else s.hashEnd slot 0x0501 id
      s.evictTo (s.lines slot) slot

/-- A slot's operation has segments for the hash unit. -/
def Pke.hashWaits (p : Pke) (i : Fin 128) : Bool := match (p.pages[i]).hjob with | some j => j.segs != 0 | none => false

/-- The hash unit takes a segment of the next owner after the last one granted (R306, R323). -/
def Pke.hashGrant (p : Pke) : Pke :=
  match nextAfter p.hashLast p.hashWaits with
  | none => { p with hashOwner := none }
  | some i => { p with hashOwner := some i, hashLast := some i }

/-- Segments that the owner of the present grant has left. -/
def Pke.hashLeft (p : Pke) : Nat :=
  match p.hashOwner with
  | none => 0
  | some i => match (p.pages[i]).hjob with | some j => j.segs | none => 0

/-- The present segment ends, and the next one is taken. -/
def Pke.hashSegment (p : Pke) : Pke :=
  match p.hashOwner with
  | none => p.hashGrant
  | some i => Pke.hashGrant { p with pages := modify p.pages i fun q => { q with hjob := q.hjob.map fun j => { j with segs := j.segs - 1 } } }

/-- At most `n` segments end, none of them the last of its operation. -/
def Pke.hashAdvance : Nat → Pke → Pke
  | 0, p => p
  | n + 1, p => if p.hashLeft = 1 then p else Pke.hashAdvance n p.hashSegment

/-- Segments end up to the last one of slot `i`, within `n` of them: none where another operation ends before it. -/
def Pke.hashUntil (i : Fin 128) : Nat → Pke → Option Pke
  | 0, _ => none
  | n + 1, p =>
    if p.hashOwner = some i ∧ p.hashLeft = 1 then some p.hashSegment
    else if p.hashLeft = 1 then none
    else Pke.hashUntil i n p.hashSegment

/-- Segments that all operations have left. -/
def Pke.hashAll (p : Pke) : Nat := (p.pages.toList.map fun q => match q.hjob with | some j => j.segs + 1 | none => 0).sum

/-- An operation joins those that wait for the unit. How many segments of the others have ended by then, no command tells: it is a
free value (log 77). -/
def State.hashJoin (i : Fin 128) (j : HashJob) (s : State) : State :=
  let add (p : Pke) : Pke := { p with pages := modify p.pages i fun q => { q with hbusy := true, hjob := some j } }
  if s.pke.hashLeft = 0 then { s with pke := (add s.pke).hashGrant }
  else State.drawn { s with pke := add (s.pke.hashAdvance (Config.cutBytes s.free % s.pke.hashAll)) }

/-- The range of an UPDATE or FINAL, then its start. -/
def State.hashStart (i : Fin 128) (p : JobPage) (final : Bool) (tlen : Nat) (s : State) : State :=
  match s.badByte i p.hsrc.toNat p.hlen.toNat false with
  | some b => (s.split i).hashEnd i 0x0308 fun q => { q with hfrange := 1, hfault := BitVec.ofNat 32 b }
  | none =>
    s.hashJoin i { final, tlen, input := s.dmaRead i p.hsrc.toNat p.hlen.toNat, segs := max 1 ((p.hlen.toNat + 255) / 256) }

def execHashUpdate (slot : Fin 128) (s : State) : Res :=
  .next <| s.hashTake slot 3 fun p s =>
    if p.ctx.isNone ∨ p.hlen = 0 ∨ 2097152 < p.hlen.toNat then s.hashEnd slot 0x0108 id else s.hashStart slot p false 0

def execHashFinal (slot : Fin 128) (tlen : BitVec 7) (s : State) : Res :=
  .next <| s.hashTake slot (tlen.toNat * 65536 + 4) fun p s =>
    match p.ctx with
    | none => s.hashEnd slot 0x0108 id
    | some c =>
      if 2097152 < p.hlen.toNat ∨ (tlen ≠ 0 ∧ (tlen.toNat < 16 ∨ digestLen c.alg < tlen.toNat)) then s.hashEnd slot 0x0108 id
      else s.hashStart slot p true tlen.toNat

def execHashAbort (slot : Fin 128) (s : State) : Res :=
  .next <|
    if s.calls slot then
      if (s.pke.pages[slot]).hbusy then (s.updPk slot (JobPage.abortHash false)).jobDone slot
      else s.updPk slot fun p => { p with hignored := sat8 p.hignored }
    else s

/-- The result of an operation whose last segment has ended. -/
def State.hashResult (i : Fin 128) (j : HashJob) (c : HashCtx) (s : State) : State :=
  let data := c.data ++ j.input
  if !j.final then s.hashEnd i 0 fun q => { q with ctx := some { c with data } }
  else
    let d := hashOf c.alg c.key data
    if c.verify then
      let n := if j.tlen = 0 then d.length else j.tlen
      s.hashEnd i (if d.take n = ((s.pke.pages[i]).hout).take n then 0 else 0x0407) fun q => { q with ctx := none }
    else s.hashEnd i 0 fun q => { q with ctx := none, hout := padTo 64 d }

/-- The last segment of an UPDATE or FINAL: the unit serves the owners in their order up to it, and nothing happens where another
operation ends first. -/
def execHashOpDone (slot : Fin 128) (s : State) : Res :=
  .next <|
    match (s.pke.pages[slot]).hjob, (s.pke.pages[slot]).ctx with
    | some j, some c =>
      if s.live && (s.pke.pages[slot]).hbusy then
        match s.pke.hashUntil slot s.pke.hashAll with
        | some pke => State.hashResult slot j c { s with pke }
        | none => s
      else s
    | _, _ => s

end Sys2Proof.Machine
end

