-- ==== Sys2Proof/Machine/Migrate.lean ====
section
/-! DEFINITION. Moving a tenant between devices: export, import, delivered envelopes, and the removal of a slot (R231 to R233,
R486 to R493). -/

namespace Sys2Proof.Machine

/-! ### The chain (R489, Table 20-6) -/

/-- An item: type, 0, length of the content, content. -/
def item (type : Byte) (b : Bytes) : Bytes := [type, 0] ++ leN 2 b.length ++ b

/-- LIVE as it travels: a counter at RSV, a use count at USE_RSV (R489). -/
def Entry.travel (e : Entry) : Nat := if e.cls = 6 then e.ctrRsv else if e.limit = 0 then 0 else e.rsv.toNat
/-- Attribute block, SECRET and LIVE of an entry. -/
def Entry.carried (e : Entry) : Bytes := e.attr ++ padTo 32 e.secret ++ leN 8 e.travel

/-- An entry of the slot that leaves with it, other than a DUKPT register. -/
def Entry.leaves (e : Entry) : Bool := !e.vol && !e.may 10 && !e.lost && e.cls != 8

/-- IMAGE items. -/
def imageItems (b : Bytes) : List Bytes :=
  (List.range ((b.length + 3799) / 3800)).map fun k => item 2 (leN 4 (3800 * k) ++ slice b (3800 * k) 3800)

/-- The 33 entries of a DUKPT state. -/
def State.dukptBytes (k : KIdx) (s : State) : Bytes := (List.range 33).flatMap fun j => (s.entry (Fin.ofNat 32768 (k.val + j))).carried

/-- KEY, DUKPT and BLOB items of an entry. -/
def State.keyItems (i : Fin 128) (k : KIdx) (s : State) : List Bytes :=
  let e := s.entry k
  let h := leN 4 (makeHandle k e.gen).toNat
  if !e.leaves then []
  else if e.cls = 7 then [item 4 (h ++ s.dukptBytes k)]
  else item 3 (h ++ e.carried) :: (if e.cls = 5 then match s.store.find (blobId i k) with | .copy c => [item 5 (h ++ c.body)] | _ => [] else [])

/-- Records that travel: neither blobs nor the slot's own handle map (R492). -/
def travels (id : RecId) : Bool := id.cls != 16 && !(id.cls == 11 && decide (0xFF00 ≤ id.tag.toNat))

/-- RECORD items. -/
def State.recordItems (i : Fin 128) (s : State) : List Bytes :=
  (((s.store.held (slotOwner i)).filter fun x => travels x.1).map fun (id, c) =>
    item 6 ([id.cls.setWidth 8, BitVec.ofNat 8 (b2n (s.store.pair? id).isSome)] ++ leN 2 id.tag.toNat ++ c.body))

/-- Whole items in parts of at most 3,832 bytes. -/
def packParts : List Bytes → Bytes → List Bytes
  | [], cur => if cur = [] then [] else [cur]
  | x :: r, cur => if cur.length + x.length ≤ 3832 then packParts r (cur ++ x) else cur :: packParts r x

/-- The bodies of parts 1 onward. -/
def State.chainParts (i : Fin 128) (s : State) : List Bytes :=
  let img := imageItems ((s.tenants.slots[i]).image.getD [])
  let keys := (s.owned i).flatMap fun k => s.keyItems i k
  let vals := item 7 ((List.finRange 24).flatMap fun k => leN 8 (s.store.vals[valIndex i k]).toNat)
  packParts (img ++ keys ++ s.recordItems i ++ [vals]) []

/-- CHAIN_DIGEST. -/
def chainDigest (parts : List Bytes) : Bytes := sha parts.flatten

/-- KCT entries of a slot that do not travel. -/
def State.keysLeft (i : Fin 128) (s : State) : Nat := (s.owned i).countP fun k => !(s.entry k).leaves && (s.entry k).cls != 8
/-- KCT entries that travel. -/
def State.keysMoved (i : Fin 128) (s : State) : Nat :=
  ((s.owned i).map fun k => if (s.entry k).leaves then (if (s.entry k).cls = 7 then 33 else 1) else 0).sum

/-- MANIFEST. -/
def State.manifest (i : Fin 128) (digest : Bytes) (s : State) : Bytes :=
  let k := s.tenants.slots[i]
  leN 8 k.tenantId.toNat ++ padTo 32 k.authHash ++ [k.role, BitVec.ofNat 8 k.sramNeed, BitVec.ofNat 8 i.val, 0] ++ leN 4 k.version.toNat ++
    leN 4 (k.image.getD []).length ++ leN 2 (s.keysMoved i) ++ leN 2 (s.store.used (slotOwner i)) ++ digest

/-- A record, entry or blob of the slot reads as lost (R489). -/
def State.anyLost (i : Fin 128) (s : State) : Bool :=
  ((s.owned i).any fun k => (s.entry k).lost) || ((s.store.ids (slotOwner i)).any fun id => s.store.find id == .lost)

/-! ### MIGRATE_EXPORT (R489, R490) -/

/-- The destination that a MIGRATE_EXPORT names. -/
structure ExportArgs where
  dst : BitVec 14
  dslot : Byte
  force : Bool
  depoch : BitVec 16
  deriving DecidableEq, Repr

def exportArgs (r : Req) : ExportArgs :=
  { dst := BitVec.ofNat 14 (fld r.body 0 2), dslot := byteAt r.body 2, force := byteAt r.body 3 == 1, depoch := BitVec.ofNat 16 (fld r.body 4 2) }

/-- The same destination as an export in being. -/
def Export.same (x : Export) (a : ExportArgs) : Bool := x.dst == a.dst && x.dslot == a.dslot && x.depoch == a.depoch && !x.stuck

/-- The checks of R489, in order. -/
def State.exportCheck (i : Fin 128) (a : ExportArgs) (s : State) : Option (BitVec 16) :=
  let k := s.tenants.slots[i]
  let again := match s.bqt.exports[i] with | some x => x.same a | none => false
  if k.state ≠ .quiesced ∨ k.importing ∨ (s.exported i ∧ !again) then some 0x030A
  else match s.bqt.member with
    | none => some 0x0207
    | some m =>
      if s.param 0x0C00 = 0 then some 0x0202
      else if a.dst = m.member then some 0x0108
      else if s.bqt.revoked a.dst then some 0x0208
      else if s.guard.tampered then some 0x0703
      else if !s.guard.rtcSet then some 0x0209
      else if !again ∧ !a.force ∧ s.anyLost i then some 0x0504
      else none

/-- The chain of an export goes out, part by part. -/
def State.emitChain (i : Fin 128) (x : Export) (s : State) : State × Nat × Nat :=
  let parts := item 1 (s.manifest i x.digest) :: s.chainParts i
  let n := parts.length
  let cls := BitVec.ofNat 2 (s.param 0x0C03)
  let tenant := (s.tenants.slots[i]).tenantId
  let s := (parts.zipIdx).foldl (fun (s : State) (p : Bytes × Nat) =>
    s.emit cls { kind := 1, dst := x.dst, dslot := x.dslot, depoch := x.depoch, tenant, mid := x.mid, part := p.2, parts := n } p.1) s
  (s, n, (parts.map fun b => 248 + b.length).sum)

/-- The export as answered: the record stands, the parts follow the response. -/
def State.exportRun (i : Fin 128) (r : Req) (x : Export) (s : State) : State :=
  let omitted := s.keysLeft i
  let s₀ := s
  let s := s.updBqt fun b => { b with exports := b.exports.set i (some x) }
  let sent := s.emitChain i x
  let s := sent.1
  let n := sent.2.1
  let bytes := sent.2.2
  s₀.respondFirst r 0x0B06 0 (leN 8 x.mid.toNat ++ leN 2 n ++ leN 2 omitted ++ leN 4 bytes) s

/-- A new export, with the MID drawn for it. -/
def State.exportNew (i : Fin 128) (r : Req) (mid : Bytes) (s : State) : State :=
  let a := exportArgs r
  match s.exportCheck i a with
  | some st => s.respond r 0x0B06 st []
  | none =>
    if !s.commits then s.respond r 0x0B06 0x0501 []
    else
      s.exportRun i r { mid := BitVec.ofNat 64 (leVal mid), dst := a.dst, dslot := a.dslot, depoch := a.depoch, digest := chainDigest (s.chainParts i), force := a.force }

/-- The draw of a MID that waited is made. -/
def State.migrateRun (i : Fin 128) (mid : Bytes) (s : State) : State :=
  match s.treor.waiting.find? (·.what == .migrate i) with
  | none => s
  | some w =>
    let s := { s with treor := { s.treor with waiting := s.treor.waiting.erase w } }
    let s := s.exportNew i w.req mid
    s

/-- MIGRATE_EXPORT: the checks, then the MID from DRBG instance 147; the same export again sends the same chain. -/
def execMigrateExport (r : Req) (s : State) : Res :=
  let fits := r.body.length = 8 ∧ fld r.body 0 2 < 16384 ∧ fld r.body 2 1 < 128 ∧ fld r.body 3 1 ≤ 1 ∧ fld r.body 6 2 = 0
  .next <| s.slotRequest 0x0B06 r fits fun i s =>
    match s.exportCheck i (exportArgs r) with
    | some st => s.respond r 0x0B06 st []
    | none => match s.bqt.exports[i] with
      | some x => s.exportRun i r x
      | none =>
        let q : DrbgReq := { client := .migrate i, inst := 147, len := 8 }
        match s.drawKind q true with
        | .now => (s.drawNow q).exportNew i r (s.drawOut q)
        | .refused st => s.respond r 0x0B06 st []
        | .queued => (s.queueDraw q).wait (.migrate i) r 0x0B06

/-! ### Import (R491, R492) -/

/-- The items of a part; none where the bytes do not parse. -/
def parseItems : Nat → Bytes → Option (List (Byte × Bytes))
  | 0, b => if b = [] then some [] else none
  | n + 1, b =>
    if b = [] then some []
    else
      let len := fld b 2 2
      if b.length < 4 ∨ byteAt b 1 ≠ 0 ∨ b.length < 4 + len then none
      else (parseItems n (b.drop (4 + len))).map fun r => (byteAt b 0, slice b 4 len) :: r

/-- An envelope of the target's to the source. -/
def State.reply (kind : Byte) (dst : BitVec 14) (dslot : Byte) (tenant mid : BitVec 64) (body : Bytes) (s : State) : State :=
  s.emit 1 { kind, dst, dslot, tenant, mid } body

/-- REFUSE. -/
def State.refuse (i : Fin 128) (src : BitVec 14) (dslot : Byte) (tenant mid : BitVec 64) (st : BitVec 16) (part : Nat) (s : State) : State :=
  s.reply 3 src dslot tenant mid (leN 8 mid.toNat ++ leN 2 st.toNat ++ leN 2 (s.store.slotEpoch[i]).toNat ++ leN 2 part ++ [0, 0])

/-- The staged import of a slot changed. -/
def State.updImport (i : Fin 128) (f : Import → Import) (s : State) : State :=
  s.updBqt fun b => { b with imports := modify b.imports i (Option.map f) }

/-- One REFUSE, and everything staged is destroyed (R491). -/
def State.importFails (i : Fin 128) (x : Import) (tenant : BitVec 64) (st : BitVec 16) (part : Nat) (s : State) : State :=
  (s.refuse i x.src x.srcSlot tenant x.mid st part).dropImport i

/-- Step 4 of R491. -/
def State.manifestCheck (i : Fin 128) (m : Bytes) (s : State) : Option (BitVec 16) :=
  let k := s.tenants.slots[i]
  if fld m 0 8 ≠ k.tenantId.toNat ∨ slice m 8 32 ≠ padTo 32 k.authHash ∨ fld m 44 4 < k.version.toNat then some 0x0704
  else if k.run.sram < fld m 41 1 ∨ k.run.kct < fld m 52 2 ∨ k.run.store < fld m 54 2 then some 0x030C
  else if s.guard.tampered then some 0x0703
  else none

/-- An entry from the form in which it travelled, in place of a free one. -/
def Entry.arrive (old : Entry) (owner : Byte) (b : Bytes) : Entry :=
  let fl := byteAt b 3
  { gen := old.gen, owner, cls := BitVec.ofNat 4 (fld b 2 1 % 16), alg := BitVec.ofNat 4 (fld b 2 1 / 16), mincm := fl.setWidth 2, vol := fl.getLsbD 2
    usage := BitVec.ofNat 16 (fld b 4 2), kcv := BitVec.ofNat 24 (fld b 6 3), wcnt := old.wcnt + 1, expiry := BitVec.ofNat 32 (fld b 14 4)
    limit := BitVec.ofNat 24 (fld b 18 3), rsv := BitVec.ofNat 24 (fld b 21 3), secret := slice b 24 32, live := BitVec.ofNat 48 (fld b 56 8) }

/-- A key arrives under a new handle. -/
def State.importKey (i : Fin 128) (b : Bytes) (s : State) : State × Option (BitVec 16) :=
  match s.kctRoom i 1 false, s.kct.alloc with
  | some st, _ => (s, some st)
  | none, none => (s, some 0x0406)
  | none, some (k, kct) =>
    let s := { s with kct }
    let e := Entry.arrive (s.entry k) (slotOwner i) (b.drop 4)
    let s := (s.writeEntry k e).cacheNew i k
    (s.updImport i fun x => { x with handles := (BitVec.ofNat 32 (fld b 0 4), makeHandle k e.gen) :: x.handles }, none)

/-- Entry `j` of a DUKPT key that arrives in the run from `a` on. -/
def State.arriveOne (i : Fin 128) (a : Nat) (b : Bytes) (s : State) (j : Nat) : State :=
  let k : KIdx := Fin.ofNat 32768 (a + j)
  s.setEntry k (Entry.arrive (s.entry k) (slotOwner i) (slice b (4 + 64 * j) 64))

/-- A DUKPT state arrives in the lowest free run of 33 indexes. -/
def State.importDukpt (i : Fin 128) (b : Bytes) (s : State) : State × Option (BitVec 16) :=
  match s.kctRoom i 33 false, s.kct.run33 with
  | some st, _ => (s, some st)
  | none, none => (s, some 0x0406)
  | none, some a =>
    let idx := (List.range 33).map (a + ·)
    let fresh := max s.kct.fresh (a + 33)
    let skipped := (List.range a).filter fun j => decide (s.kct.fresh ≤ j)
    let s := s.updKct fun t => { t with fresh, freed := (t.freed.filter fun j => !idx.contains j) ++ skipped }
    let k : KIdx := Fin.ofNat 32768 a
    let s := ((List.range 33).foldl (State.arriveOne i a b) s).commitEntries (dukptRun k)
    (s.updImport i fun x => { x with handles := (BitVec.ofNat 32 (fld b 0 4), makeHandle k (s.entry k).gen) :: x.handles }, none)

/-- A record of the slot written under a scheme. -/
def State.importRec (i : Fin 128) (id : RecId) (dual : Bool) (body : Bytes) (s : State) : State × Option (BitVec 16) :=
  let t := s.store.takeNonce
  let c : Copy := { secret := secretClass id.cls, nctr := t.nctr, body }
  match Store.write (s.tenants.slots[i]).run.store dual id c s.commits t with
  | .error st => (s, some st)
  | .ok (u, _) => ({ s with store := u }, if s.commits then none else some 0x0501)

/-- One item is staged (Table 20-6). -/
def State.importItem (i : Fin 128) (type : Byte) (b : Bytes) (s : State) : State × Option (BitVec 16) :=
  let bad := (s, some (Config.refuseStatus 0))
  match s.bqt.imports[i] with
  | none => bad
  | some x => match type.toNat with
    | 2 =>
      let k := s.tenants.slots[i]
      let size := fld (x.manifest.getD []) 48 4
      if b.length < 4 ∨ size < fld b 0 4 + (b.length - 4) then bad
      else match k.staged with
        | some _ => (s.updSlot i fun k => { k with staged := k.staged.map fun g => { g with pieces := (fld b 0 4, b.drop 4) :: g.pieces } }, none)
        | none =>
          if s.poolFree < (size + 4095) / 4096 then (s, some 0x0502)
          else (s.updSlot i fun k => { k with staged := some { size, pieces := [(fld b 0 4, b.drop 4)] } }, none)
    | 3 => if b.length = 68 then s.importKey i b else bad
    | 4 => if b.length = 2116 then s.importDukpt i b else bad
    | 5 => match x.handles.find? (·.1 == BitVec.ofNat 32 (fld b 0 4)) with
      | some (_, h) => s.importRec i (blobId i (handleIndex h)) false (b.drop 4)
      | none => bad
    | 6 =>
      if b.length < 4 ∨ 16 ≤ fld b 0 1 then bad
      else s.importRec i (slotRec i (BitVec.ofNat 5 (fld b 0 1)) (BitVec.ofNat 16 (fld b 2 2))) (byteAt b 1 == 1) (b.drop 4)
    | 7 =>
      if b.length = 192 then
        (s.updStore fun t => { t with vals := (List.finRange 24).foldl (fun v k => v.set (valIndex i k) (BitVec.ofNat 64 (fld b (8 * k.val) 8))) t.vals }, none)
      else bad
    | _ => bad

/-- Items staged in order, up to the first that fails. -/
def State.importItems (i : Fin 128) (l : List (Byte × Bytes)) (s : State) : State × Option (BitVec 16) :=
  match l with
  | [] => (s, none)
  | (t, b) :: r =>
    let ans := s.importItem i t b
    let s := ans.1
    match ans.2 with
    | some st => (s, some st)
    | none => s.importItems i r

/-- A pair of handles in the order of the handle map. -/
def insertPair (p : Word × Word) : List (Word × Word) → List (Word × Word)
  | [] => [p]
  | q :: r => if p.1.toNat ≤ q.1.toNat then p :: q :: r else q :: insertPair p r

/-- The records of the handle map (R492): 256 pairs each. -/
def handleMap (l : List (Word × Word)) : List (Nat × Bytes) :=
  let l := l.foldr insertPair []
  (List.range ((l.length + 255) / 256)).map fun k => (0xFF00 + k, ((l.drop (256 * k)).take 256).flatMap fun p => leN 4 p.1.toNat ++ leN 4 p.2.toNat)

/-- The handle map is written. -/
def State.writeMap (i : Fin 128) (l : List (Nat × Bytes)) (s : State) : State × Option (BitVec 16) :=
  match l with
  | [] => (s, none)
  | (tag, b) :: r =>
    let ans := s.importRec i (slotRec i 11 (BitVec.ofNat 16 tag)) false b
    let s := ans.1
    match ans.2 with
    | some st => (s, some st)
    | none => s.writeMap i r

/-- The parts staged, in order, from 1 on. -/
def Import.bodies (x : Import) : List Bytes :=
  (List.range (x.parts - 1)).map fun k => match x.staged.find? (·.1 == k + 1) with | some (_, b) => b | none => []
/-- Every part is staged. -/
def Import.whole (x : Import) : Bool := x.manifest.isSome && (List.range x.parts).all fun k => x.staged.any (·.1 == k)

/-- The plaintext body of CONFIRM (Table 20-5). -/
def State.confirmBody (m : Membership) (i : Fin 128) (x : Import) (digest : Bytes) (s : State) : Bytes :=
  let b := leN 8 x.mid.toNat ++ leN 8 (s.tenants.slots[i]).tenantId.toNat ++ leN 2 x.src.toNat ++ [x.srcSlot, BitVec.ofNat 8 i.val] ++
    leN 2 (s.store.slotEpoch[i]).toNat ++ digest
  b ++ signP256 s.memberKey (ascii "BQCONF" ++ leN 4 m.bqtId.toNat ++ b) s.signData

/-- CONFIRM is sent. -/
def State.sendConfirm (i : Fin 128) (c : Imported) (s : State) : State :=
  let s := s.updBqt fun b => { b with imported := b.imported.set i (some { c with sentAt := s.guard.rtc }) }
  s.reply 2 c.dst (byteAt c.body 18) (s.tenants.slots[i]).tenantId c.mid c.body

/-- The whole chain is staged: it is checked and committed, and confirmed (R492). -/
def State.importDone (i : Fin 128) (x : Import) (s : State) : State :=
  let k := s.tenants.slots[i]
  let fail (st : BitVec 16) (s : State) : State := s.importFails i x k.tenantId st (x.parts - 1)
  let digest := slice (x.manifest.getD []) 56 32
  match s.bqt.member with
  | none => s
  | some m =>
    if chainDigest x.bodies ≠ digest then fail (Config.refuseStatus 1) s
    else
      let img := match k.staged with | some g => pieceBytes g.pieces g.size | none => []
      let chk := match k.staged with
        | some g => if !g.whole ∨ !headerOk img ∨ imageSize img ≠ g.size then some 0x0108 else k.imageCheck img
        | none => some 0x0108
      match chk with
      | some st => fail st s
      | none =>
        let ans := s.writeMap i (handleMap x.handles)
        let s := ans.1
        match ans.2 with
        | some st => fail st s
        | none =>
          if !s.commits then fail 0x0501 s
          else
            let body := s.confirmBody m i x digest
            let s := s.signDone.updSlot i fun k => { k.install img with importing := false }
            let s := s.updBqt fun b => { b with imports := b.imports.set i none }
            s.sendConfirm i { mid := x.mid, dst := x.src, body }

/-- A part joins those staged; the chain is finished with the last one. -/
def State.stagePart (i : Fin 128) (n : Nat) (b : Bytes) (s : State) : State :=
  match s.bqt.imports[i] with
  | none => s
  | some x =>
    if x.failed || x.staged.any (·.1 == n) then s
    else
      let tenant := (s.tenants.slots[i]).tenantId
      match parseItems 4096 b with
      | none => s.importFails i x tenant (Config.refuseStatus 0) n
      | some l =>
        let ans := s.importItems i l
        let s := ans.1
        match ans.2 with
        | some st => s.importFails i x tenant st n
        | none => s.updImport i fun x => { x with staged := (n, b) :: x.staged }

/-- The import is committed once it is whole. -/
def State.tryCommit (i : Fin 128) (s : State) : State :=
  match s.bqt.imports[i] with
  | some x => if x.live && x.whole then s.importDone i x else s
  | none => s

/-- Part 0, and the parts that came before it. -/
def State.firstPart (i : Fin 128) (x : Import) (e b : Bytes) (s : State) : State :=
  let tenant := (s.tenants.slots[i]).tenantId
  match parseItems 4096 b with
  | some [(1, m)] =>
    if m.length ≠ 88 then s.importFails i x tenant (Config.refuseStatus 0) 0
    else match s.manifestCheck i m with
      | some st => s.importFails i x tenant st 0
      | none =>
        let early := x.early
        let s := s.updImport i fun x => { x with manifest := some m, srcSlot := byteAt m 42, parts := fld e 58 2, staged := [(0, b)], early := [] }
        (early.foldl (fun (s : State) (p : Nat × Bytes) => s.stagePart i p.1 p.2) s).tryCommit i
  | _ => s.importFails i x tenant (Config.refuseStatus 0) 0

/-- A PART for a slot that imports (R491, steps 3 to 5). -/
def State.importPart (i : Fin 128) (e b : Bytes) (s : State) : State :=
  let n := fld e 56 2
  let mid := envMid e
  let s := match s.bqt.imports[i] with
    | some x =>
      if x.mid = mid then s
      else (s.dropImport i).updBqt fun q => { q with imports := q.imports.set i (some { mid, src := envSrc e }) }
    | none => s.updBqt fun q => { q with imports := q.imports.set i (some { mid, src := envSrc e }) }
  match s.bqt.imports[i] with
  | none => s
  | some x =>
    if x.failed then s
    else if x.manifest.isSome then (s.stagePart i n b).tryCommit i
    else if n = 0 then s.firstPart i x e b
    else if x.early.any (·.1 == n) ∨ 64 ≤ x.early.length then s
    else s.updImport i fun x => { x with early := x.early ++ [(n, b)] }

/-- PART (R491). -/
def State.envPart (e b : Bytes) (s : State) : State :=
  if h : fld e 36 1 < 128 then
    let i : Fin 128 := ⟨fld e 36 1, h⟩
    let k := s.tenants.slots[i]
    let tenant := BitVec.ofNat 64 (fld e 40 8)
    if fld e 38 2 ≠ (s.store.slotEpoch[i]).toNat then s.refuse i (envSrc e) 0 tenant (envMid e) 0x0203 (fld e 56 2)
    else if k.state ≠ .assigned ∨ !k.importing ∨ k.removing then
      match s.bqt.imported[i] with
      | some c =>
        if c.mid = envMid e then (if s.guard.rtc = c.sentAt then s else s.sendConfirm i c)
        else s.refuse i (envSrc e) 0 tenant (envMid e) 0x030A (fld e 56 2)
      | none => s.refuse i (envSrc e) 0 tenant (envMid e) 0x030A (fld e 56 2)
    else s.importPart i e b
  else s

/-! ### The source's end (R490, R233) -/

/-- The export that an envelope's MID names. -/
def State.exportOf (mid : BitVec 64) (s : State) : Option (Fin 128 × Export) :=
  (List.finRange 128).findSome? fun i => match s.bqt.exports[i] with
    | some x => if x.mid = mid ∧ !x.stuck then some (i, x) else none
    | none => none

/-- The slot is retired on the target's confirmation. -/
def State.retire (i : Fin 128) (x : Export) (body : Bytes) (s : State) : State :=
  if s.commits then
    let record : Retirement := { tenant := (s.tenants.slots[i]).tenantId, member := x.dst, slot := x.dslot, digest := sha body }
    (((s.destroySlot i).updSlot i fun _ => { state := .retired, retired := some record }).evC 4).tellSlot 5 i
  else s

/-- CONFIRM. -/
def State.envConfirm (e b : Bytes) (s : State) : State :=
  match s.exportOf (envMid e) with
  | none => s
  | some (i, x) =>
    let signed := ascii "BQCONF" ++ slice e 8 4 ++ b.take 54
    if b.length = 118 ∧ envSrc e = x.dst ∧ fld b 0 8 = x.mid.toNat ∧ ecdsaVerify (certKey (envCert e)) signed (slice b 54 64) then s.retire i x b
    else s

/-- The export ends; the slot stays QUIESCED. -/
def State.endExport (i : Fin 128) (s : State) : State :=
  if s.commits then s.updBqt fun b => { b with exports := b.exports.set i none } else s

/-- REFUSE. -/
def State.envRefuse (e b : Bytes) (s : State) : State :=
  match s.exportOf (envMid e) with
  | none => s
  | some (i, x) => if b.length = 16 ∧ fld b 0 8 = x.mid.toNat then s.endExport i else s

/-- CANCEL. -/
def State.envCancel (e b : Bytes) (s : State) : State :=
  match s.exportOf (envMid e) with
  | none => s
  | some (i, x) =>
    let signed := ascii "BQCANC" ++ slice e 8 4 ++ b.take 16
    if b.length = 80 ∧ envSrc e = x.dst ∧ fld b 0 8 = x.mid.toNat ∧ ecdsaVerify (certKey (envCert e)) signed (slice b 16 64) then s.endExport i
    else s

/-! ### ENV_DELIVER (R486, R487) -/

/-- What an envelope that passed does, by its KIND (Table 20-5); any other KIND does nothing. -/
def State.envEffect (e b : Bytes) (s : State) : State :=
  match (byteAt e 5).toNat with
  | 1 => s.envPart e b
  | 2 => s.envConfirm e b
  | 3 => s.envRefuse e b
  | 4 => s.envCancel e b
  | _ => s

/-- The delivery of one envelope: Table 20-7, then its answer (R487), then what it causes. -/
def State.envDeliver (r : Req) (s : State) : State :=
  let e := r.body
  s.request 0x0B04 r (248 ≤ e.length ∧ e.length ≤ 4080) fun s =>
    match s.bqt.member with
    | none => s.respond r 0x0B04 0x0207 []
    | some m => match s.envCheck m e with
      | some st => s.respond r 0x0B04 st []
      | none =>
        let pair := s.pairFor m (envCert e)
        let s := pair.1
        let key := pair.2
        match gcmOpen key (envNonce (envSrc e) (envSeq e)) (e.take 232) (e.drop 232) with
        | none => s.respond r 0x0B04 0x0407 []
        | some b =>
          let newer := decide (s.bqt.be.toNat < fld e 32 4)
          let s₀ := s
          let s := s.updBqt (Bqt.accept (envSrc e) (envSeq e))
          s₀.respondFirst r 0x0B04 0 (slice e 32 4 ++ [BitVec.ofNat 8 (b2n newer), 0, 0, 0]) (s.envEffect e b)

def execEnvDeliver (r : Req) (s : State) : Res := .next (s.envDeliver r)

/-- ENV_DELIVER of a PART. -/
def execEnvPart (r : Req) (s : State) : Res := .next (s.envDeliver r)

/-- ENV_DELIVER of a CONFIRM. -/
def execEnvConfirm (r : Req) (s : State) : Res := .next (s.envDeliver r)

/-- ENV_DELIVER of a REFUSE. -/
def execEnvRefuse (r : Req) (s : State) : Res := .next (s.envDeliver r)

/-- ENV_DELIVER of a CANCEL. -/
def execEnvCancel (r : Req) (s : State) : Res := .next (s.envDeliver r)

/-! ### Removal (R232, R493) -/

/-- A CANCEL for a staged import whose part 0 has been checked. -/
def State.cancelImport (i : Fin 128) (s : State) : State :=
  match s.bqt.member, s.bqt.imports[i] with
  | some m, some x =>
    if (s.tenants.slots[i]).importing && x.live && x.manifest.isSome then
      let tenant := (s.tenants.slots[i]).tenantId
      let b := leN 8 x.mid.toNat ++ leN 8 tenant.toNat
      let sig := signP256 s.memberKey (ascii "BQCANC" ++ leN 4 m.bqtId.toNat ++ b) s.signData
      s.signDone.reply 4 x.src x.srcSlot tenant x.mid (b ++ sig)
    else s
  | _, _ => s

/-- SLOT_REMOVE: the removal record is committed, and the destruction follows. -/
def execSlotRemove (r : Req) (s : State) : Res :=
  .next <| s.slotRequest 0x0308 r (r.body = []) fun i s =>
    let k := s.tenants.slots[i]
    if k.among [.running, .quiescing] then s.respond r 0x0308 0x0305 []
    else if !s.commits then s.respond r 0x0308 0x0501 []
    else
      let s := (s.cancelImport i).updSlot i fun k => { k with removing := true, restart := false }
      (s.updBqt fun b => { b with exports := b.exports.set i none }).wait (.remove i) r 0x0308

end Sys2Proof.Machine
end

