-- ==== Sys2Proof/Machine/Tamper.lean ====
section
/-! DEFINITION. The tamper filters, the response levels, the battery domain and the entry into TAMPERED (R390,
R435 to R452, R498). -/

namespace Sys2Proof.Machine

abbrev State.updGuard (s : State) (f : Guard → Guard) : State := { s with guard := f s.guard }

/-! ### The battery domain -/

/-- A tamper parameter as the battery domain's copy holds it (R440, R446). -/
def Guard.param (g : Guard) (n i : Nat) : Nat :=
  match paramFind g.copy n i with
  | some w => w.toNat
  | none => match param? n with
    | some p => (paramWord p.reset).toNat
    | none => 0

/-- The policy level of a class (Table 18-2). -/
def Guard.level (g : Guard) (c : Fin 7) : Nat := g.param (0x940 + c.val) 0

/-- A battery log entry; a full log counts it in OVF (R447). -/
def Guard.enter (g : Guard) (m : Mon) (origin : Nat) (erased : Bool) (count : BitVec 16) : Guard :=
  if 16 ≤ g.log.length then { g with ovf := sat16 g.ovf }
  else
    let cls := BitVec.ofNat 8 (m.cls.val + 16 * origin + 64 * b2n erased + 128 * b2n g.arm)
    { g with log := g.log ++ [{ cls, source := if m.cls = 6 then 0 else m.unit, count, rtc := g.rtc
                                sub := BitVec.ofBool g.rtcSet ++ g.rtcSub }] }

/-- The BBK is erased; nothing more where it is not VALID (R452). -/
def Guard.erase (g : Guard) : Guard := if g.bbk = .valid then { g with bbk := .erased, bbkKey := 0 } else g

/-- The 16 bytes of an entry (Table 18-5). -/
def BatEntry.bytes (e : BatEntry) : Bytes :=
  [e.cls, e.source] ++ leN 2 e.count.toNat ++ leN 6 e.rtc.toNat ++ leN 2 e.sub.toNat ++ zeros 4

/-! ### Import and TAMPERED (R390, R451) -/

/-- A debug session ends (R475). -/
def State.endDebug (s : State) : State :=
  match s.lc.dbgSession with
  | none => s
  | some d =>
    ({ s with lc := { s.lc with dbgSession := none, halted := [] } }).log 0x2B 1
      (leN 2 d.scope.toNat ++ [d.slot, match d.role with | .mfg => 0 | .owner => 1 | .tenant => 2 | .bay => 3] ++ leN 4 d.granted)

/-- What follows an erasure in the engines: cached entries, key registers and keyed contexts are zeroised and
every job in progress ends with 0x0409 (Table 18-8). -/
def State.zeroiseEngines (s : State) : State :=
  let s := s.abortAll
  { s with
    kct := { s.kct with lru := Vector.replicate 128 [], lruDev := [] }
    cipher := { s.cipher with pages := s.cipher.pages.map fun v => v.map CipherPage.dropKey, own := s.cipher.own.map CipherPage.dropKey }
    pke := { s.pke with pages := s.pke.pages.map JobPage.dropHmac, own := s.pke.own.dropHmac } }

/-- Every RUNNING slot starts to quiesce; the SRAM and mailboxes of every slot are zeroed, those of a slot that
still quiesces once it is QUIESCED (Table 18-8). -/
def State.wipeSlots (s : State) : State :=
  let s := s.quiesceAll
  { s with tenants := { s.tenants with slots := s.tenants.slots.map fun k =>
      if k.state = .quiescing then { k with cold := true } else k.wipe } }

/-- New battery entries go to the device event log, and the marks follow (R390 steps 2 to 4). -/
def State.importBattery (s : State) : State :=
  let g := s.guard
  let idx := List.range g.log.length
  let new := (idx.zip g.log).filter fun (i, _) => g.mark.toNat ≤ i
  let s := new.foldl (fun s (i, e) =>
    s.log 0x20 (e.cls &&& 0x0F) ([BitVec.ofNat 8 i, 0] ++ leN 2 e.count.toNat ++ leN 6 e.rtc.toNat)) s
  let s := if g.omark < g.ovf then s.log 0x21 0 (leN 4 g.ovf.toNat ++ leN 4 g.omark.toNat) else s
  let s := s.updGuard fun g => { g with omark := g.ovf, mark := BitVec.ofNat 5 g.log.length }
  let s := { s with hrb := { s.hrb with batNew := BitVec.ofNat 5 new.length } }
  if new = [] then s else s.evB 2

/-- The device enters TAMPERED (R390 step 5, R451). -/
def State.enterTampered (s : State) : State :=
  let s := (s.endDebug.updGuard fun g => { g with tampered := true }).evB 1
  let s := s.evB 3
  s.devEvent 0x03 0 0 s.hrb.batNew.toNat

/-! ### Responses (R441 to R443) -/

/-- The LOG actions of a response at level `l` (Table 18-3). -/
def State.logResponse (m : Mon) (count : BitVec 16) (l : Nat) (s : State) : State :=
  let c := BitVec.ofNat 8 m.cls.val
  let s := (s.log 0x24 c ([BitVec.ofNat 8 l, m.unit] ++ leN 2 count.toNat)).evB 0
  let s := { s with hrb := { s.hrb with tampLevel := BitVec.ofNat 4 (max l s.hrb.tampLevel.toNat)
                                        act := if s.guard.param 0x950 0 ≤ l then s.hrb.act.hit else s.hrb.act } }
  s.devEvent 0x02 (BitVec.ofNat 8 l) m.cls.val s.guard.rtc.toNat

/-- The ERASE actions: the BBK, the engines, the battery log entry, and the entry into TAMPERED of a device that is
DEPLOYED and whose recall is over; where the BBK is not VALID, its log entry alone (R452). -/
def State.eraseResponse (m : Mon) (count : BitVec 16) (s : State) : State :=
  let origin := if m.cls = 1 ∨ m.cls = 5 then 1 else 2
  if s.guard.bbk = .valid then
    let s := s.updGuard fun g => g.erase.enter m origin true count
    let s := s.zeroiseEngines
    (if s.lc.state = .deployed ∧ s.recalled ∧ s.supervisor then s.importBattery.enterTampered.wipeSlots else s).quiesceAll
  else s.updGuard fun g => g.enter m origin false count

/-- The response to a filtered alarm in main mode: level by policy, limited to LOG while disarmed. -/
def State.respondAlarm (m : Mon) (count : BitVec 16) (s : State) : State :=
  let p := s.guard.level m.cls
  let l := if s.guard.arm then p else min p 1
  if p = 0 then s
  else
    let s := s.logResponse m count l
    if 3 ≤ l then s.eraseResponse m count
    else
      let s := if 3 ≤ p then s.updGuard fun g => g.enter m (if m.cls = 1 ∨ m.cls = 5 then 1 else 2) false count else s
      if l = 2 then s.quiesceAll else s

/-- A filter fires (R439): it stays active, and its class is SEEN. -/
def State.fires (m : Mon) (s : State) : State :=
  let s := s.updGuard fun g => { g with active := g.active ++ [m] }
  { s with hrb := { s.hrb with tampSeen := s.hrb.tampSeen ||| BitVec.ofNat 8 (2 ^ m.cls.val) } }

/-! ### Raw detections and filters (R435 to R439, R518) -/

/-- Nominal voltage of a rail in mV (Tables 21-1 and 23-2). -/
def railNominal (n : Nat) : Int := [800, 1000, 1800, 1800].getD n 3000

/-- A tamper parameter with its sign. -/
def Guard.signed (n : Nat) (g : Guard) : Int := (BitVec.ofNat 32 (g.param n 0)).toInt

/-- A reading is a raw detection of its unit, where `drive` is what a lane or loop was driven with (Table 18-1). A bound of 0 is
switched off (R437); an open loop reads low by its pull-down (R518). -/
def Guard.detects (m : Mon) (drive : Bool) (r : Reading) (g : Guard) : Bool :=
  let u := m.unit.toNat
  match m.cls.val, r with
  | 0, .value v => decide (g.signed (0x830 + u) < v)
  | 1, .level v => v.getD false != drive
  | 2, .value v =>
    let uv := g.signed (0x8F0 + 3 * u)
    let ov := g.signed (0x8F1 + 3 * u)
    (uv != 0 && decide (v < uv)) || (ov != 0 && decide (ov < v))
  | 2, .glitch v =>
    let d := g.signed (0x8F2 + 3 * u)
    d != 0 && (decide (railNominal u + d < v) || decide (v < railNominal u - d))
  | 3, .value v =>
    let lo := g.signed (0x900 + 2 * u)
    let hi := g.signed (0x901 + 2 * u)
    (lo != 0 && decide (v < -lo)) || (hi != 0 && decide (hi < v))
  | 3, .noEdge => true
  | 4, .value v => decide (v < g.signed (0x910 + 2 * u)) || decide (g.signed (0x911 + 2 * u) < v)
  | 5, .level v => v.getD false != drive
  | 6, .failed => true
  | _, _ => false

/-- A unit that takes a bit of the pattern for each sample: a lane, or a loop in DYNAMIC mode. -/
def Guard.patterned (m : Mon) (g : Guard) : Bool := m.cls == 1 || (m.cls == 5 && g.param (0x921 + 2 * m.unit.toNat) 0 == 1)

/-- The level driven at each sample, the oldest first: the next bit of the pattern, or high (R436). -/
def Guard.drives (m : Mon) (g : Guard) : List Sample → BitVec 32 → List Bool
  | [], _ => []
  | _ :: r, p =>
    if g.patterned m then Config.patternBit (Config.patternNext p) m.unit.toNat :: g.drives m r (Config.patternNext p) else true :: g.drives m r p

/-- The LFSR after samples of a unit. -/
def Guard.patternAfter (m : Mon) (g : Guard) : List Sample → BitVec 32 → BitVec 32
  | [], p => p
  | _ :: r, p => g.patternAfter m r (if g.patterned m then Config.patternNext p else p)

/-- The battery domain after samples of a unit: its LFSR, and the level that a loop drove last. -/
def Guard.sampled (m : Mon) (raw : List Sample) (g : Guard) : Guard :=
  let encBit := match (g.drives m raw g.pattern).getLast? with
    | some b => if m.cls = 5 then (if b then g.encBit ||| BitVec.ofNat 8 (2 ^ m.unit.toNat) else g.encBit &&& ~~~(BitVec.ofNat 8 (2 ^ m.unit.toNat))) else g.encBit
    | none => g.encBit
  { g with pattern := g.patternAfter m raw g.pattern, encBit }

/-- The level at ENCn_DRV in the sampling window of a loop: high in STATIC mode, the pattern bit in DYNAMIC, low while the loop is disabled
(R436, R518). -/
def Guard.encDrive (n : Fin 8) (g : Guard) : Bool :=
  g.param (0x920 + 2 * n.val) 0 == 1 && (g.param (0x921 + 2 * n.val) 0 == 0 || g.encBit.getLsbD n.val)

/-- Milliseconds between a unit's samples in battery mode (Table 18-1). -/
def Mon.period (m : Mon) : Nat := if m.cls = 1 then 32 else if m.cls = 4 then 1000 else 4

/-- tamper.filter.count of a unit's class. -/
def Guard.filterCount (m : Mon) (g : Guard) : Nat := g.param (0x930 + 2 * m.cls.val) 0

/-- The window of a unit's filter; in battery mode no less than the count times the period (R439). -/
def Guard.filterWindow (m : Mon) (battery : Bool) (g : Guard) : Nat :=
  let w := g.param (0x931 + 2 * m.cls.val) 0
  if battery then max w (g.filterCount m * m.period) else w

/-- Raw detections of a unit within its filter's window, the oldest sample first. -/
def Guard.detections (m : Mon) (battery : Bool) (raw : List Sample) (g : Guard) : Nat :=
  (raw.zip (g.drives m raw g.pattern)).countP fun (x, d) => decide (x.age ≤ g.filterWindow m battery) && g.detects m d x.reading

/-- The unit is one that is watched (Table 18-1): enabled, and of a clock that runs. -/
def State.watched (m : Mon) (s : State) : Bool :=
  let u := m.unit.toNat
  match m.cls.val with
  | 0 => decide (u < 48) && s.guard.param (0x800 + u) 0 == 1
  | 1 => decide (u < 48) && s.guard.param (0x890 + u) 0 == 1
  | 2 => decide (u < 5)
  | 3 => decide (u < 7) && (u != 2 || s.link.u.state == 2) && (u != 3 || s.link.d.state == 2) && (u != 6 || s.tag.field)
  | 4 => decide (u < 8)
  | 5 => decide (u < 8) && s.guard.param (0x920 + 2 * u) 0 == 1
  | _ => u == 0

/-- The samples of a unit make its filter fire: it is watched, and its detections reach the count (R439). -/
def State.fired (m : Mon) (battery : Bool) (raw : List Sample) (s : State) : Bool :=
  s.watched m && decide (s.guard.filterCount m ≤ s.guard.detections m battery raw)

/-- The count that an alarm reports. -/
def State.rawCount (m : Mon) (battery : Bool) (raw : List Sample) (s : State) : BitVec 16 := BitVec.ofNat 16 (s.guard.detections m battery raw)

/-- Samples of a unit in main mode make its filter fire; one that is active already does not fire again. -/
def execTamperAlarm (m : Mon) (raw : List Sample) (s : State) : Res :=
  .next <|
    if s.live ∧ !s.guard.active.contains m ∧ s.fired m false raw then
      ((s.updGuard (Guard.sampled m raw)).fires m).respondAlarm m (s.rawCount m false raw)
    else s

/-- The units that the battery domain watches in battery mode (R435, R446): lanes, loops, VBAT, sensor 0. -/
def Mon.inBattery (m : Mon) : Bool :=
  m.cls = 1 ∨ m.cls = 5 ∨ (m.cls = 2 ∧ m.unit = 4) ∨ (m.cls = 4 ∧ m.unit = 0)

/-- Samples of a unit in battery mode make its filter fire (R442). The HRB, where it is served in the save, shows it in SEEN (R395, R439). -/
def execBatteryModeAlarm (m : Mon) (raw : List Sample) (s : State) : Res :=
  .next <|
    if !s.live ∧ s.guard.powered ∧ m.inBattery ∧ !s.guard.active.contains m ∧ s.fired m true raw then
      let count := s.rawCount m true raw
      let s := s.updGuard (Guard.sampled m raw)
      let s := if s.released then s.fires m else s.updGuard fun g => { g with active := g.active ++ [m] }
      if s.guard.level m.cls = 0 then s
      else s.updGuard fun g =>
        let erases := g.arm && g.bbk == .valid
        (if erases then g.erase else g).enter m 0 erases count
    else s

/-- The detections of an active filter within its window fall below its count, as its samples show. -/
def execTamperFilterRelease (m : Mon) (raw : List Sample) (s : State) : Res :=
  .next <|
    if s.watched m ∧ s.guard.filterCount m ≤ s.guard.detections m (!s.live) raw then s
    else s.updGuard fun g => { g.sampled m raw with active := g.active.filter (· != m) }

/-- The built-in test of one unit (R445): classes LIGHT to ENCLOSURE, with an interval, on units that are tested. -/
def Guard.tests (g : Guard) (m : Mon) : Bool :=
  m.cls != 6 && g.param (0x948 + m.cls.val) 0 != 0 &&
    (if m.cls = 0 then g.param (0x860 + m.unit.toNat) 0 != 0
     else if m.cls = 1 then g.param (0x8C0 + m.unit.toNat) 0 != 0 else true)

/-- A failed test counts as one firing of the unit's filter; one whose filter is active is skipped. -/
def execBuiltinTest (m : Mon) (out : TestOutcome) (s : State) : Res :=
  .next <|
    if s.live ∧ s.guard.tests m ∧ !s.guard.active.contains m then
      match out with
      | .pass => s
      | .noDetect => (((s.log 0x25 (BitVec.ofNat 8 m.cls.val) [m.unit, 0]).fires m).respondAlarm m 1).updGuard fun g =>
          { g with active := g.active.filter (· != m) }
      | .noRelease => ((s.log 0x25 (BitVec.ofNat 8 m.cls.val) [m.unit, 1]).fires m).respondAlarm m 1
    else s

/-- The battery domain's supply changes without losing state (R498). -/
def execBatterySourceSwitch (main : Bool) (s : State) : Res :=
  .next <| if s.guard.powered then { s with power := { s.power with mainPwr := main } } else s

/-- The rail falls below 1.60 V: everything the domain holds is lost (R446). -/
def execBatteryDomainLoss (s : State) : Res :=
  .next <| { s with guard := { tampered := s.guard.tampered, rekey := s.guard.rekey }
                    power := { s.power with mainPwr := false } }

/-- The rail returns: BBK LOST, log empty, RTC 0 and not set, disarmed, copy at its reset values. -/
def execBatteryDomainPowerOn (main : Bool) (s : State) : Res :=
  .next <|
    if s.guard.powered then s
    else { s with guard := { powered := true, tampered := s.guard.tampered, rekey := s.guard.rekey }
                  power := { s.power with mainPwr := main } }

end Sys2Proof.Machine
end

