-- ==== Sys2Proof/Machine/Lifecycle.lean ====
section
/-! DEFINITION. The life cycle: OTP, codewords, transition slots, signed requests, debug tokens, and the test
access port (R457 to R479). -/

namespace Sys2Proof.Machine

abbrev State.updLc (s : State) (f : Lc → Lc) : State := { s with lc := f s.lc }
abbrev State.updTap (s : State) (f : Tap → Tap) : State := { s with lc := { s.lc with tap := f s.lc.tap } }

/-! ### Codewords (Table 19-2) -/

/-- Base values of the states. -/
def lcBase : LcState → BitVec 16
  | .blank => 0x0000 | .factoryTest => 0x0421 | .provisioning => 0x0C63 | .deployed => 0x1CE7
  | .returned => 0x3DEF | .terminated => 0xFFFF | .invalid => 0

/-- The codeword of a state: word `i` is the base rotated left by `i`. -/
def codeword (st : LcState) : Vector (BitVec 16) 16 := Vector.ofFn fun i => (lcBase st).rotateLeft i.val

/-- The state of a code of Table 07-27. -/
def lcOfCode (n : Nat) : Option LcState :=
  match n with
  | 0 => some .blank | 1 => some .factoryTest | 2 => some .provisioning | 3 => some .deployed
  | 4 => some .returned | 5 => some .terminated | _ => none

/-- The state that 16 words decode as (R459). -/
def lcDecode (w : Vector (BitVec 16) 16) : LcState :=
  if w = codeword .blank then .blank
  else if w = codeword .factoryTest then .factoryTest
  else if w = codeword .provisioning then .provisioning
  else if w = codeword .deployed then .deployed
  else if w = codeword .returned then .returned
  else if w = codeword .terminated then .terminated
  else .invalid

/-- Every bit of the words is in the codeword. -/
def subWord (w c : Vector (BitVec 16) 16) : Bool := (w.zip c).toList.all fun (a, b) => a &&& ~~~b == 0

/-! ### Programming OTP (R458) -/

/-- A field can take a value: no bit that is set is 0 in it. -/
def otpFits (old new : Bytes) : Bool :=
  (List.range (max old.length new.length)).all fun i => byteAt old i &&& ~~~byteAt new i == 0
/-- The first `k` words of a field have taken their missing bits. -/
def otpPut (old new : Bytes) (k : Nat) : Bytes :=
  (List.range old.length).map fun i => if i < 2 * k then byteAt old i ||| byteAt new i else byteAt old i

/-- A field to program: its words, whether it can take its value, and OTP after `k` of its words. -/
structure Burn where
  words : Nat
  fits : Bool
  put : Nat → Lc → Lc

/-- Fields programmed in order. It answers OTP, and how the run ended early: cut off, or a word that does not
verify. -/
def burn : List Burn → Option OtpStop → Lc → Lc × Option Bool
  | [], _, l => (l, none)
  | b :: r, st, l =>
    if !b.fits then (l, some false)
    else match st with
      | none => burn r none (b.put b.words l)
      | some t =>
        if t.words < b.words then (b.put t.words l, some t.cut)
        else burn r (some { t with words := t.words - b.words }) (b.put b.words l)

/-- The state words take the missing bits of a codeword. -/
def Lc.burnWords (l : Lc) (st : LcState) : Burn :=
  { words := 16, fits := subWord l.words (codeword st)
    put := fun k l => { l with words := Vector.ofFn fun i => if i.val < k then l.words[i] ||| (codeword st)[i] else l.words[i] } }

/-- OWNER_HASH. -/
def Lc.burnOwner (l : Lc) (h : Bytes) : Burn :=
  { words := 16, fits := otpFits l.ownerHash h, put := fun k l => { l with ownerHash := otpPut l.ownerHash h k } }

/-- DIGEST, TARGET and FLAGS of a slot. -/
def Lc.burnSlot (l : Lc) (i : Fin 16) (digest : Bytes) (tgt : LcState) (defer : Bool) : Burn :=
  let k := l.slots[i]
  let t : Byte := BitVec.ofNat 8 (tgt.code + 16 * (15 - tgt.code))
  { words := 17, fits := otpFits k.digest digest && k.target &&& ~~~t == 0 && (!k.defer || defer)
    put := fun n l => { l with slots := modify l.slots i fun k =>
      { k with digest := otpPut k.digest digest (min n 16), target := if 16 < n then k.target ||| t else k.target
               defer := if 16 < n then k.defer || defer else k.defer } } }

/-- DONE of a slot. -/
def Lc.burnDone (i : Fin 16) : Burn :=
  { words := 1, fits := true
    put := fun n l => if n = 0 then l else { l with slots := modify l.slots i fun k => { k with done := 0x5A5A } } }

/-! ### Slots (R463) -/

/-- A slot is in use. -/
def LcSlot.inUse (k : LcSlot) : Bool := !allZero k.digest || k.target != 0 || k.defer

/-- The in-use slot that is not used, and its number. -/
def Lc.openSlot (l : Lc) : Option (Fin 16 × LcSlot) :=
  ((List.finRange 16).map fun i => (i, l.slots[i])).find? fun (_, k) => k.inUse && !k.used

/-- A deferred transition is pending (R465). -/
def Lc.pending (l : Lc) : Bool := match l.openSlot with | some (_, k) => k.defer | none => false

/-- PEND_TGT. -/
def Lc.pendTgt (l : Lc) : Byte := if l.pending then 4 else 0

/-- The target of a slot. -/
def LcSlot.tgt (k : LcSlot) : LcState := (lcOfCode (k.target.toNat % 16)).getD .invalid

/-- An INVALID pattern whose completion is possible: its slot (R467). -/
def Lc.completable (l : Lc) : Option (Fin 16 × LcSlot) :=
  match l.openSlot with
  | none => none
  | some (i, k) => if subWord l.words (codeword k.tgt) && k.tgt != .invalid then some (i, k) else none

/-! ### Effects of a transition (R462, R464) -/

/-- Mint's test source is off: pool and instances are cleared and Mint starts on its oscillators (R341). -/
def Mint.leaveTest (m : Mint) : Mint :=
  if m.testSrc.getLsbD 0 then
    let st := if m.state = .failed then MintState.failed else .startup
    { m with s := 0, pool := [], insts := Vector.replicate 160 {}, testSrc := 0, state := st, testing := st == .startup }
  else { m with testSrc := 0 }

/-- HRB_LC has changed: EVT_B.LC and LC_CHANGE (R462). -/
def State.lcTold (s : State) : State := (s.evB 3).devEvent 0x04 (BitVec.ofNat 8 s.lc.state.code) 0 s.tcnt

/-- A transition takes effect: HRB_LC, EVT_B.LC, LC_CHANGE, the debug session, and the actions after it. -/
def State.lcEffect (old tgt : LcState) (s : State) : State :=
  let s := ((s.updLc fun l => { l with state := tgt }).evB 3).endDebug
  let was := s.mint.state
  let s := if old = .factoryTest then { s with mint := s.mint.leaveTest } else s
  let s := if s.mint.state = was then s else s.evB 4
  let s := if tgt = .provisioning then { s with store := { s.store with zeroDue := true } } else s
  let s := if tgt = .deployed then s.updGuard fun g => { g with arm := true } else s
  s.devEvent 0x04 (BitVec.ofNat 8 tgt.code) 0 s.tcnt

/-- What a transition does before programming, OTP apart (Table 19-3). -/
def State.lcBefore (old tgt : LcState) (s : State) : State :=
  if tgt = .terminated ∧ (old = .provisioning ∨ old = .deployed ∨ old = .invalid) then
    let was := s.guard.bbk
    let s := s.updGuard Guard.erase
    if old = .provisioning ∨ (old = .invalid ∧ was ≠ .valid) then s else s.zeroiseEngines.wipeSlots
  else s

/-- LC_TRANSITION in the event log (Table 19-10). -/
def State.logTransition (old tgt : LcState) (defer : Bool) (digest : Bytes) (s : State) : State :=
  s.log 0x29 (BitVec.ofNat 8 tgt.code) (leN 2 s.tcnt ++ [BitVec.ofNat 8 old.code, if defer then 1 else 0] ++ digest.take 16)

/-! ### Signed requests (R468 to R471) -/

/-- NONCE matches: one issued more than 60 s before does not (R455, R470). -/
def State.nonceOk (e : Bytes) (s : State) : Bool :=
  match s.lc.nonce with
  | none => false
  | some n => n.bytes == slice e 28 16 && decide (n.age ≤ 60)

/-- The signer's key verifies for ROLE (R469). -/
def State.roleKey (e : Bytes) (slot : Nat) (s : State) : Bool :=
  let h := sha (envPub e)
  match fld e 26 1 with
  | 0 => h == s.lc.mfgHash
  | 1 => h == s.lc.ownerHash && !allZero s.lc.ownerHash
  | 2 => if p : slot < 128 then
      let k := s.tenants.slots[slot]
      h == k.authHash && k.state != .free && k.state != .retired
    else false
  | _ => false

/-- Steps 1 and 2 of Table 19-7. -/
def State.signedCheck (e : Bytes) (roles : List Nat) (skipNonce : Bool) (slot : Nat) (s : State) : Option (BitVec 16) :=
  if slice e 8 16 ≠ padTo 16 s.lc.unitId ∨ fld e 24 2 ≠ s.tcnt ∨ !(skipNonce || s.nonceOk e) then some 0x0704
  else if !(roles.contains (fld e 26 1) && s.roleKey e slot && envSigOk e) then some 0x0705
  else none

/-- The nonce is consumed by the request that reaches step 1. -/
def State.useNonce (s : State) : State := s.updLc fun l => { l with nonce := none }

/-- The layout of an LC_REQUEST (Table 19-8). -/
def lcLayout (e : Bytes) : Bool :=
  (envelopeOk e 0x01 (if byteAt e 48 = 2 then 36 else 4) && allZero (slice e 49 3)) || envelopeOk e 0x02 128

/-- Table 19-3: the roles that may sign a transition by request. -/
def lcSigners (old tgt : LcState) : List Nat :=
  match old, tgt with
  | .factoryTest, .provisioning | .factoryTest, .terminated => [0]
  | .provisioning, .deployed | .deployed, .returned | .deployed, .terminated => [1]
  | .provisioning, .terminated | .returned, .terminated => [0, 1]
  | _, _ => []

/-- The LC key's signature over a label, the unit ID and bytes. -/
def State.lcSigned (label : String) (b : Bytes) (s : State) : Bytes :=
  signP256 (keyScalar (s.dukKey "LC")) (ascii label ++ padTo 16 s.lc.unitId ++ b) s.signData

/-- The response to an LC_REQUEST (Table 19-12). -/
def State.lcAck (e : Bytes) (s : State) : Bytes :=
  let b := [BitVec.ofNat 8 s.lc.state.code, if s.lc.pending then 1 else 0, s.lc.pendTgt, 0] ++ leN 2 s.tcnt ++ [0, 0] ++ sha e
  b ++ s.lcSigned "LCACK" b

/-- What a request answers: a status and payload, or nothing where a reset or a save cut it off. -/
structure Answer where
  status : Option (BitVec 16)
  payload : Bytes := []
  state : State

/-- A refusal. -/
def State.deny (st : BitVec 16) (s : State) : Answer := { status := some st, state := s }

/-- An LC_REQUEST of TYPE 0x01 that has passed the checks: the run of R464, or the deferred one of R465. -/
def State.lcRun (e : Bytes) (i : Fin 16) (tgt : LcState) (again : Bool) (stop : Option OtpStop) (s : State) : Answer :=
  let old := s.lc.state
  let dg := sha e
  if old = .deployed ∧ tgt = .returned then
    match burn [s.lc.burnSlot i dg tgt true] stop s.lc with
    | (l, some cut) => { status := if cut then none else some 0x0707, state := { s with lc := l } }
    | (l, none) =>
      let s := ({ s with lc := l }.evB 3).logTransition old tgt true dg
      { status := some 0, payload := s.lcAck e, state := s.signDone }
  else
    let s := s.lcBefore old tgt
    let own := if tgt = .provisioning then [s.lc.burnOwner (slice e 52 32)] else []
    let slot := if again then [] else [s.lc.burnSlot i dg tgt false]
    match burn (own ++ slot ++ [s.lc.burnWords tgt, Lc.burnDone i]) stop s.lc with
    | (l, some cut) => { status := if cut then none else some 0x0707, state := { s with lc := l } }
    | (l, none) =>
      let s := { s with lc := l }
      let s := if again then s.log 0x2A 3 [BitVec.ofNat 8 i.val, BitVec.ofNat 8 tgt.code] else s
      let s := (s.lcEffect old tgt).logTransition old tgt false dg
      { status := some 0, payload := s.lcAck e, state := s.signDone }

/-- The preconditions of PROVISIONING to DEPLOYED (R464 step 1). -/
def State.lcReady (old tgt : LcState) (s : State) : Bool :=
  !(old == .provisioning && tgt == .deployed) ||
    (s.guard.bbk == .valid && s.lc.admins.toList.any (fun h => !allZero h) && s.guard.rtcSet)

/-- TYPE 0x01: Table 19-7, then the run. -/
def State.lcTransition (e : Bytes) (stop : Option OtpStop) (s : State) : Answer :=
  let open_ := if s.lc.state = .invalid then s.lc.completable else none
  let again := match open_ with | some (_, k) => sha e == k.digest | none => false
  let chk := s.signedCheck e [0, 1] again 0
  let s := s.useNonce
  match chk with
  | some st => s.deny st
  | none =>
    match open_, again with
    | some (i, k), true => s.lcRun e i k.tgt true stop
    | _, _ =>
      let n := s.tcnt
      match lcOfCode (fld e 48 1) with
      | none => s.deny 0x0706
      | some tgt =>
        if !(lcSigners s.lc.state tgt).contains (fld e 26 1) || s.lc.pending then s.deny 0x0706
        else if h : n < 16 then
          if !s.lcReady s.lc.state tgt then s.deny 0x0701
          else s.lcRun e ⟨n, h⟩ tgt false stop
        else s.deny 0x0706

/-- TYPE 0x02: the administrator key list (R469). A session whose key is no longer listed closes. -/
def State.lcAdmins (e : Bytes) (s : State) : Answer :=
  let chk := s.signedCheck e [1] false 0
  let s := s.useNonce
  match chk with
  | some st => s.deny st
  | none =>
    if s.lc.state ≠ .provisioning ∧ s.lc.state ≠ .deployed then s.deny 0x0701
    else if !s.commits then s.deny 0x0501
    else
      let new : Vector Bytes 4 := Vector.ofFn fun i => slice e (48 + 32 * i.val) 32
      let session := match s.treor.session with
        | none => none
        | some k =>
          let h := s.lc.admins[k.toNat]
          match (List.finRange 4).find? fun i => new[i] == h && !allZero h with
          | none => none
          | some i => some (BitVec.ofNat 2 i.val)
      let s := s.updLc fun l => { l with admins := new }
      let s := { s with treor := { s.treor with session } }
      { status := some 0, payload := s.lcAck e, state := s.signDone }

/-- An LC_REQUEST, by its TYPE; a permanent INVALID refuses each (R467). -/
def State.lcRequest (e : Bytes) (stop : Option OtpStop) (s : State) : Answer :=
  if s.lc.state = .invalid ∧ s.lc.completable.isNone then s.deny 0x0706
  else if byteAt e 5 = 0x01 then s.lcTransition e stop
  else s.lcAdmins e

/-- LC_STATUS: a new nonce, and the signed status (Table 19-12). -/
def State.lcStatus (s : State) : Bytes × State :=
  let q := ownDraw 147 16
  let ready := s.drawKind q true = .now
  let n := if ready then s.drawOut q else zeros 16
  let s := (if ready then s.drawNow q else s).updLc fun l => { l with nonce := if ready ∧ !allZero n then some { bytes := n } else none }
  let l := s.lc
  let pub := pubKey (keyScalar (s.dukKey "LC"))
  let dbg := match l.dbgSession with
    | none => [0, 0, 0xFF, 0] ++ leN 4 0
    | some d => leN 2 d.scope.toNat ++ [d.slot, 0] ++ leN 4 d.left
  let flags := b2n s.guard.tampered + 2 * b2n l.pending + 4 * b2n l.dbgSession.isSome + 8 * b2n (l.state == .invalid && l.completable.isNone)
  let b : Bytes := [BitVec.ofNat 8 l.state.code, BitVec.ofNat 8 flags, l.pendTgt, 0] ++ leN 2 s.tcnt ++
    [BitVec.ofNat 8 (16 - l.slots.toList.countP LcSlot.inUse), 0] ++ n ++ padTo 16 l.unitId ++ leN 8 s.boots ++ padTo 32 l.ownerHash ++
    dbg ++ pub ++ signP256 (keyScalar (s.dukKey "ID")) (ascii "LCKEY" ++ padTo 16 l.unitId ++ pub) s.signData
  let s := s.signDone
  (b ++ signP256 (keyScalar (s.dukKey "LC")) (ascii "LCSTAT" ++ b) s.signData, s.signDone)

/-! ### Debug tokens (R473, R475) -/

/-- A scope bit is allowed in a state for a role (Table 19-9). -/
def scopeAllowed (st : LcState) (role bit : Nat) : Bool :=
  match bit, st with
  | 0, .provisioning | 0, .deployed => role == 2
  | 1, .factoryTest | 2, .factoryTest | 4, .factoryTest => role == 0
  | 1, .provisioning => role == 1
  | 1, .returned | 2, .provisioning | 2, .returned | 3, .returned => role == 0 || role == 1
  | _, _ => false

/-- The layout of a DEBUG_TOKEN (Table 19-11). -/
def debugLayout (e : Bytes) : Bool :=
  envelopeOk e 0x10 16 && byteAt e 51 == 0 && allZero (slice e 56 8) && decide (1 ≤ fld e 52 4 ∧ fld e 52 4 ≤ 86400) &&
    (if (fld e 48 2) % 2 = 1 then decide (fld e 50 1 < 128) else byteAt e 50 == 0xFF)

/-- Roles by code. -/
def roleOf (n : Nat) : Role := match n with | 0 => .mfg | 1 => .owner | 2 => .tenant | _ => .bay

def State.debugToken (e : Bytes) (s : State) : Answer :=
  let scope := fld e 48 2
  let role := fld e 26 1
  let chk := s.signedCheck e [0, 1, 2] false (fld e 50 1)
  let s := s.useNonce
  match chk with
  | some st => s.deny st
  | none =>
    if !(List.range 16).all (fun b => !scope.testBit b || scopeAllowed s.lc.state role b) then s.deny 0x0709
    else
      let secs := if scope = 0 then 0 else min (fld e 52 4) (s.param 0x0D00)
      let s := s.endDebug
      let d : Debug := { scope := BitVec.ofNat 16 scope, slot := byteAt e 50, role := roleOf role, granted := secs, left := secs }
      let s := if scope = 0 then s
        else (s.updLc fun l => { l with dbgSession := some d }).log 0x2B 0 (leN 2 scope ++ [byteAt e 50, BitVec.ofNat 8 role] ++ leN 4 secs)
      let b := leN 2 scope ++ [byteAt e 50, 0] ++ leN 4 secs ++ sha e
      { status := some 0, payload := b ++ s.lcSigned "DBGACK" b, state := s.signDone }

/-- A request's answer goes to the host, before the events that it caused. -/
def State.answerLc (r : Req) (op : BitVec 16) (a : Answer) (s₀ : State) : State :=
  match a.status with
  | none => a.state
  | some st => s₀.respondFirst r op st a.payload a.state

def execLcStatus (r : Req) (s : State) : Res :=
  .next <| s.request 0x0701 r (r.body.length = 0) fun s =>
    s.lcStatus.2.respond r 0x0701 0 s.lcStatus.1

def execLcTransitionRequest (r : Req) (stop : Option OtpStop) (s : State) : Res :=
  .next <| s.request 0x0702 r (lcLayout r.body) fun s => s.answerLc r 0x0702 (s.lcRequest r.body stop)

def execAdminKeyList (r : Req) (s : State) : Res :=
  .next <| s.request 0x0702 r (lcLayout r.body) fun s => s.answerLc r 0x0702 (s.lcRequest r.body none)

def execDebugToken (r : Req) (s : State) : Res :=
  .next <| s.request 0x0703 r (debugLayout r.body) fun s => s.answerLc r 0x0703 (s.debugToken r.body)

def execDebugSessionExpiry (s : State) : Res := .next s.endDebug

/-! ### The slot left open at a reset (R466) -/

/-- What the controller does with it once the words are decoded; the LC_SLOT entry follows in the log. -/
def State.resolveSlots (s : State) : State :=
  let s := s.updLc fun l => { l with state := lcDecode l.words }
  match s.lc.openSlot with
  | none => s
  | some (i, k) =>
    let done (l : Lc) : Lc := { l with slots := modify l.slots i fun k => { k with done := 0x5A5A } }
    let note (sub : Byte) (s : State) : State := s.log 0x2A sub [BitVec.ofNat 8 i.val, BitVec.ofNat 8 k.tgt.code]
    if k.defer then
      ((s.updGuard Guard.erase).updLc fun l =>
        let w := Vector.ofFn fun (j : Fin 16) => l.words[j] ||| (codeword k.tgt)[j]
        done { l with words := w, state := lcDecode w }) |> note 2 |> State.lcTold
    else if s.lc.state = k.tgt then
      let s := (s.updLc done) |> note 0 |> State.lcTold
      if k.tgt = .provisioning then { s with store := { s.store with zeroDue := true } } else s
    else if s.lc.state ≠ .invalid then
      (s.updLc fun l => { l with slots := modify l.slots i fun k => { k with void := 0xA5A5 } }) |> note 1
    else s

/-! ### The test access port (R476) -/

/-- The TAP instruction selects the register that its table gives, or bypass where it is not allowed (Table 19-13). -/
def State.tapSel (ir : Byte) (s : State) : TapSel :=
  let st := s.lc.state
  let scan : Bool := match s.lc.dbgSession with | some d => d.scope.getLsbD 4 | none => false
  match ir.toNat with
  | 0x00 | 0x02 => .boundary
  | 0x01 => .idcode
  | 0x20 => if st = .blank then .bypass else .lcmb
  | 0x21 => if s.lc.dbgSession.isSome then .dbg else .bypass
  | 0x22 => if st = .blank ∨ (st = .factoryTest ∧ scan) then .scan else .bypass
  | 0x30 => if st = .blank then .enrol else .bypass
  | 0x31 => if st = .blank then .otpw else .bypass
  | 0x32 => if st = .blank then .lcprog else .bypass
  | _ => .bypass

/-- What drives the balls under an instruction. -/
def tapDrive (ir : Byte) : TapDrive :=
  match ir.toNat with
  | 0x00 => .boundary
  | 0x03 => .held
  | 0x04 => .highz
  | _ => .device

/-- An instruction is loaded. -/
def State.tapLoad (ir : Byte) (s : State) : State :=
  let sel := s.tapSel ir
  s.updTap fun t => { t with ir, sel, drive := tapDrive ir, out := if sel = .idcode then leN 4 0x1C5124E3 else [] }

/-- Bits as bytes, the first in bit 0. -/
def packBits : List Bool → Bytes
  | a :: b :: c :: d :: e :: f :: g :: h :: r =>
    BitVec.ofNat 8 (b2n a + 2 * b2n b + 4 * b2n c + 8 * b2n d + 16 * b2n e + 32 * b2n f + 64 * b2n g + 128 * b2n h) :: packBits r
  | [] => []
  | r => [BitVec.ofNat 8 (r.foldr (fun b n => b2n b + 2 * n) 0)]

/-- TRST_N low resets the port alone. -/
def execTapReset (s : State) : Res := .next <| s.updTap fun _ => { out := leN 4 0x1C5124E3 }
def execExtest (drive : List Bool) (s : State) : Res := .next <| (s.tapLoad 0x00).updTap fun t => { t with bsr := drive }
def execIdcode (s : State) : Res := .next <| s.tapLoad 0x01
def execSamplePreload (capture load : List Bool) (s : State) : Res :=
  .next <| (s.tapLoad 0x02).updTap fun t => { t with bsr := load, out := packBits capture }
def execClamp (s : State) : Res := .next <| s.tapLoad 0x03
def execHighz (s : State) : Res := .next <| s.tapLoad 0x04
/-- BYPASS, and any instruction that is unknown or not allowed. -/
def execBypass (ir : Byte) (s : State) : Res := .next <| s.tapLoad ir
def execScan (s : State) : Res := .next <| s.tapLoad 0x22

/-- The DUK seed and the helper data are made on the die and programmed, once. -/
def execEnrol (s : State) : Res :=
  .next <|
    let s := s.tapLoad 0x30
    if s.lc.state = .blank ∧ s.lc.dukSeed.isNone then
      let seed := s.random 32
      let s := s.drawn
      let help := s.random 480
      s.drawn.updLc fun l => { l with dukSeed := some seed, helper := help }
    else s

/-- The identity rows take the bits of their values; a row that cannot take its value ends the run. -/
def execOtpw (unitId uid mfg img : Bytes) (s : State) : Res :=
  .next <|
    let s := s.tapLoad 0x31
    if s.lc.state = .blank then
      let l := s.lc
      let bs : List Burn :=
        [{ words := 8, fits := otpFits l.unitId unitId, put := fun k l => { l with unitId := otpPut l.unitId unitId k } },
         { words := 4, fits := otpFits l.uid uid, put := fun k l => { l with uid := otpPut l.uid uid k } },
         { words := 16, fits := otpFits l.mfgHash mfg, put := fun k l => { l with mfgHash := otpPut l.mfgHash mfg k } },
         { words := 16, fits := otpFits l.imgHash img, put := fun k l => { l with imgHash := otpPut l.imgHash img k } }]
      { s with lc := (burn bs none l).1 }
    else s

/-- The identity rows are complete and ENROL is done (Table 19-3). -/
def Lc.complete (l : Lc) : Bool :=
  !allZero l.unitId && !allZero l.uid && !allZero l.mfgHash && !allZero l.imgHash && l.dukSeed.isSome

def execLcprog (stop : Option OtpStop) (s : State) : Res :=
  .next <|
    let s := s.tapLoad 0x32
    if s.lc.state = .blank ∧ s.lc.complete then
      match burn [s.lc.burnWords .factoryTest] stop s.lc with
      | (l, some _) => { s with lc := l }
      | (l, none) => { s with lc := l }.lcEffect .blank .factoryTest
    else s

/-! ### The JTAG mailbox (R477) -/

/-- No supervisor image verifies (R379). -/
def State.noImage (s : State) : Bool := s.power.run == .serviceOnly

/-- IMAGE_LOAD: what the area then holds is `now`, as the boot ROM judges it at the next start. -/
def State.imageLoad (p : Bytes) (now : SupImage) (s : State) : Answer :=
  let st := s.lc.state
  let refuse (c : BitVec 16) : Answer := { s with hrb := { s.hrb with nvErr := s.hrb.nvErr.incLo } }.deny c
  if !((st == .factoryTest || st == .provisioning || st == .deployed || st == .returned) || s.noImage) then s.deny (if st = .invalid then 0x0702 else 0x0701)
  else if p.length < 9 ∨ 4096 < p.length ∨ 1 < fld p 0 1 ∨ !allZero (slice p 1 3) then s.deny 0x0108
  else if !s.power.nvWpN then refuse 0x0507
  else if 1048576 < fld p 4 4 + (p.length - 8) then refuse 0x0506
  else { status := some 0, state :=
    { s with power := if fld p 0 1 = 0 then { s.power with imgA := now } else { s.power with imgB := now } } }

/-- A mailbox request, with the life-cycle limits of Table 19-5 and its layout first. -/
def State.mailbox (func : BitVec 16) (p : Bytes) (stop : Option OtpStop) (now : SupImage) (s : State) : Answer :=
  let limited := !lcServes s.lc.state func && s.lc.state != .invalid
  match func.toNat with
  | 0x0701 =>
    if p ≠ [] then s.deny 0x0108
    else
      { status := some 0, payload := s.lcStatus.1, state := s.lcStatus.2 }
  | 0x0702 => if !lcLayout p then s.deny 0x0108 else s.lcRequest p stop
  | 0x0703 => if limited then s.deny 0x0701 else if !debugLayout p then s.deny 0x0108 else s.debugToken p
  | 0xF001 => s.imageLoad p now
  | _ => s.deny 0x0106

/-- The response as it is read out of the mailbox. -/
def State.mailboxOut (a : Answer) : State :=
  match a.status with
  | none => a.state
  | some st =>
    let pad := (4 - a.payload.length % 4) % 4
    a.state.updTap fun t => { t with out := leN 4 (a.payload.length * 65536 + st.toNat) ++ a.payload ++ zeros pad }

def execLcmb (func : BitVec 16) (payload : Bytes) (stop : Option OtpStop) (now : SupImage) (s : State) : Res :=
  .next <|
    let s := s.tapLoad 0x20
    if s.lc.state ≠ .blank ∧ s.live then State.mailboxOut (s.mailbox func payload stop now) else s

def execImageLoad (payload : Bytes) (now : SupImage) (s : State) : Res :=
  .next <|
    let s := s.tapLoad 0x20
    if s.lc.state ≠ .blank ∧ s.live then State.mailboxOut (s.imageLoad payload now) else s

end Sys2Proof.Machine
end

