-- ==== Sys2Proof/Machine/Rekey.lean ====
section
/-! DEFINITION. RTC_SET, the re-key and the signed battery log (R277, R360, R453 to R455). -/

namespace Sys2Proof.Machine

/-- The code of a BBK state (Table 18-6). -/
def Bbk.code : Bbk → Nat
  | .valid => 1 | .erased => 2 | .lost => 3

/-- TAMP_BAT_STAT (Table 18-6). -/
def State.batStat (s : State) : Word :=
  BitVec.ofNat 32 (16 * b2n s.power.mainPwr + 8 * b2n s.guard.arm + s.guard.bbk.code)
/-- TAMP_BAT_LOG (Table 18-7). -/
def State.batLog (s : State) : Word :=
  s.guard.ovf ++ (0 : BitVec 3) ++ s.guard.mark ++ BitVec.ofNat 8 s.guard.log.length

/-- The RTC is written by a signed request, between two ticks (R450, R455). -/
def execRtcSet (r : Req) (s : State) : Res :=
  .next <| s.request 0x0704 r (envelopeOk r.body 0x20 8 && decide (fld r.body 54 2 < 32768)) fun s =>
    let chk := s.signedCheck r.body [1] false 0
    let s := s.useNonce
    match chk with
    | some st => s.respond r 0x0704 st []
    | none =>
      let old := s.guard.rtc.toNat
      let new := fld r.body 48 6
      let s := s.updGuard fun g => { g with rtc := BitVec.ofNat 48 new, rtcSub := BitVec.ofNat 15 (fld r.body 54 2), rtcSet := true }
      let s := (s.evA 4).log 0x26 0 (leN 6 old ++ leN 6 new)
      s.respond r 0x0704 0 (leN 6 old ++ leN 6 new ++ zeros 4)

/-! ### Re-key (R454) -/

/-- Every KCT entry is FREE with its GEN incremented (R277). No group made before is left to replay (log 78). -/
def Kct.clear (k : Kct) : Kct :=
  { k with entries := k.entries.map Entry.free, fresh := 0, freed := []
           lru := Vector.replicate 128 [], lruDev := [], jnl := [] }

/-- A pair holds a copy of a secret record. -/
def DPair.secret (p : DPair) : Bool :=
  (match p.a with | some c => c.secret | none => false) || (match p.b with | some c => c.secret | none => false)

/-- Identities of secret records that the store holds. -/
def Store.secretIds (t : Store) : List RecId :=
  (((t.journal.filter (·.copy.secret)).map (·.id)) ++ ((t.dual.filter DPair.secret).map (·.id))).eraseDups

/-- Every secret record is destroyed (R360). -/
def Store.dropSecrets (t : Store) : Store :=
  { t with journal := t.journal.filter fun e => !e.copy.secret, dual := t.dual.filter fun p => !p.secret }

/-- CLEAR of TAMP_BAT_LOG (R454 step 4): entries below the mark go; an empty log has no overflow. -/
def Guard.clearLog (g : Guard) : Guard :=
  let l := g.log.drop g.mark.toNat
  { g with log := l, mark := 0, ovf := if l = [] then 0 else g.ovf, omark := if l = [] then 0 else g.omark }

/-- Steps 2 to 5; `key` is the new BBK, none where the one written is VALID (R454). -/
def State.rekeySteps (key : Option Bytes) (sub : Byte) (s : State) : State × Bytes :=
  let s := match key with
    | none => s
    | some b =>
      let s := s.updGuard fun g => { g with bbk := .valid, bbkKey := BitVec.ofNat 256 (leVal b) }
      { s with store := { s.store with sealBbk := BitVec.ofNat 256 (leVal b) } }
  let secrets := s.store.secretIds.length
  let removed := min s.guard.mark.toNat s.guard.log.length
  let s := State.ownEntries { s with kct := s.kct.clear, store := s.store.dropSecrets }
  let s := s.updGuard Guard.clearLog
  let out := leN 4 32768 ++ leN 4 secrets ++ [BitVec.ofNat 8 removed]
  let was := s.guard.tampered
  let s := (s.updGuard fun g => { g with rekey := none, tampered := g.tampered && g.bbk != .valid }).log 0x27 sub out
  (if was && !s.guard.tampered then s.evB 3 else s, out ++ zeros 3)

/-- The re-key with the BBK that was drawn for it. -/
def State.rekeyRun (r : Req) (major : Byte) (key : Bytes) (s : State) : State :=
  let wipe := byteAt r.body 48 = 1
  let s₀ := s
  if !s.commits then s.respondAs major r 0x0705 0x0501 []
  else
    let s := s.updGuard fun g => { g with rekey := some ⟨wipe⟩ }
    let s := if s.lc.state = .deployed ∧ !s.guard.tampered then (s.updGuard Guard.erase).zeroiseEngines.wipeSlots else s
    let done := s.rekeySteps (some key) 0
    s₀.respondFirst r 0x0705 0 done.2 done.1

/-- BBK_REKEY is served (Table 18-9a). -/
def State.rekeyServed (wipe : Bool) (s : State) : Bool :=
  match s.lc.state with
  | .provisioning => true
  | .deployed => s.guard.tampered || wipe
  | _ => false

/-- BBK_REKEY: its checks, then its draw from DRBG instance 144 with WAIT (Table 14-4). -/
def execBbkRekey (r : Req) (s : State) : Res :=
  .next <| s.request 0x0705 r (envelopeOk r.body 0x21 4 && decide (fld r.body 48 1 ≤ 1) && allZero (slice r.body 49 3)) fun s =>
    let chk := s.signedCheck r.body [1] false 0
    let s := s.useNonce
    match chk with
    | some st => s.respond r 0x0705 st []
    | none =>
      if !s.rekeyServed (byteAt r.body 48 = 1) then s.respond r 0x0705 0x0701 []
      else
        let q : DrbgReq := { client := .rekey, inst := 144, len := 32 }
        match s.drawKind q true with
        | .now => (s.drawNow q).rekeyRun r (s.major r) (s.drawOut q)
        | .refused st => s.respond r 0x0705 st []
        | .queued => (s.queueDraw q).wait .rekey r 0x0705

/-- A start finds a REKEY record: the steps are repeated, with a fresh BBK if the one written is not VALID. -/
def State.rekeyResume (s : State) : State :=
  match s.guard.rekey with
  | none => s
  | some _ => if s.guard.bbk = .valid then (s.rekeySteps none 1).1 else ((s.ownDrawn 144 32).rekeySteps (some (s.ownOut 144 32)) 1).1

/-- The battery log, signed with the unit identity key over the challenge. -/
def execTamperLogRead (r : Req) (s : State) : Res :=
  .next <| s.request 0x0706 r (r.body.length = 16) fun s =>
    let b := r.body ++ leN 4 s.batStat.toNat ++ leN 4 s.batLog.toNat ++ leN 6 s.guard.rtc.toNat ++ [0, 0] ++
      padTo 256 (s.guard.log.flatMap BatEntry.bytes)
    let sig := signP256 (keyScalar (s.dukKey "ID")) (ascii "TAMPLOG" ++ padTo 16 s.lc.unitId ++ b) s.signData
    s.signDone.respond r 0x0706 0 (b ++ sig)

end Sys2Proof.Machine
end

