-- ==== Sys2Proof/Machine/Mint.lean ====
section
/-! DEFINITION. Mint: conditioner, health tests, states, DRBG pages and the test source (R324 to R342). -/

namespace Sys2Proof.Machine

abbrev State.updMint (s : State) (f : Mint → Mint) : State := { s with mint := f s.mint }

/-! ### The conditioner (R326, R327) -/

/-- One step: S times x modulo the primitive polynomial. -/
def condStep (v : BitVec 256) : BitVec 256 := if v.getLsbD 255 then (v <<< 1) ^^^ 0x425 else v <<< 1

/-- `n` times. -/
def times {α : Type} (f : α → α) : Nat → α → α
  | 0, a => a
  | n + 1, a => times f n (f a)

/-- A raw word enters S. -/
def condWord (v : BitVec 256) (w : BitVec 64) : BitVec 256 := times condStep 64 (v ^^^ w.setWidth 256)

/-- One step of the test pattern's register (Table 14-15). -/
def lfsrStep (v : BitVec 64) : BitVec 64 := if v.getLsbD 63 then (v <<< 1) ^^^ 0x1B else v <<< 1

/-! ### Health tests (R328 to R330) -/

/-- A bit of an oscillator: its tests go on, or one fails. -/
def OscTest.feed (b : Bool) (t : OscTest) : OscTest × Option (Fin 3 × Nat) :=
  let run := if t.run ≠ 0 ∧ t.last = b then t.run + 1 else 1
  let first := if t.pos = 0 then b else t.first
  let hits := if t.pos = 0 then 1 else if b = t.first then t.hits + 1 else t.hits
  let t : OscTest := { last := b, run, first, pos := (t.pos + 1) % 1024, hits }
  (t, if 129 ≤ run then some (0, run) else if 870 ≤ hits then some (1, hits) else none)

/-- A raw word through every oscillator's tests; the lowest oscillator that fails is reported. -/
def feedAll (w : BitVec 64) (v : Vector OscTest 64) : Vector OscTest 64 × Option HealthFail :=
  let r := (List.finRange 64).filterMap fun n => ((v[n]).feed (w.getLsbD n.val)).2.map fun (t, c) => HealthFail.mk t n (BitVec.ofNat 16 c)
  (v.mapFinIdx fun n t h => (t.feed (w.getLsbD n)).1, r.head?)

/-! ### States (R331 to R333) -/

/-- Code of a state (Table 14-2). -/
def MintState.code : MintState → Nat
  | .startup => 0 | .ready => 1 | .restarting => 2 | .failed => 3 | .testSrc => 4

/-- Mint changes its state: HRB_EVT_B.MINT and MINT_STATE. -/
def State.mintGo (st : MintState) (s : State) : State :=
  if s.mint.state = st then s
  else
    let s := s.updMint fun m => { m with state := st }
    (s.evB 4).devEvent 0x05 (BitVec.ofNat 8 st.code) 0 s.mint.restarts.toNat

/-- A DRBG request ends without output. -/
def State.endDraw (r : DrbgReq) (st : BitVec 16) (s : State) : State :=
  match r.client with
  | .page i p => (s.updDp i p (DpPage.finish st)).jobDone i
  | .kct i => s.kctEnd i st [] none
  | .pke i => s.pkeEnd i st id
  | .challenge => { s with treor := { s.treor with nonce := none } }.answer .nonceDraw st []
  | .rekey => s.answer .rekey st []
  | .migrate i => s.answer (.migrate i) st []

/-- Word of MINT_HLTH (Table 14-14). -/
def HealthFail.word (f : HealthFail) (continuous : Bool) : Word :=
  BitVec.ofNat 32 (0x80000000 + f.test.val * 0x20000000 + b2n continuous * 0x10000000 + (if f.test = 2 then 0 else f.source.val * 0x10000) + f.count.toNat)

/-- A health failure (R332, R333). -/
def State.healthFail (f : HealthFail) (s : State) : State :=
  let continuous := !s.mint.testing
  let all := s.mint.running.toList ++ s.mint.ready ++ s.mint.waitq
  let s := match s.mint.running with | some r => s.zeroOutput r | none => s
  let s := s.updMint fun m => { m with s := 0, pool := [], running := none, ready := [], waitq := [], testing := false, hlth := f.word continuous
                                       lastFail := s.guard.rtc, insts := m.insts.map fun d => if d.inst then { d with reseedReq := true } else d }
  let s : State := all.foldl (fun (s : State) r => s.endDraw r 0x0602) s
  if 3 ≤ s.mint.restarts.toNat then
    let s : State := (s.mintGo .failed).evB 5
    let m : Mon := ⟨6, 0⟩
    if s.guard.param 0x93C 0 ≤ 1 ∧ !s.guard.active.contains m then (s.fires m).respondAlarm m 1 else s
  else s.mintGo .restarting

def execHealthFailure (f : HealthFail) (s : State) : Res :=
  .next <| if s.live ∧ s.mint.state ≠ .failed then s.healthFail f else s

/-- The raw word in force: the oscillators' or the pattern's (R340). -/
def Mint.raw (m : Mint) (w : BitVec 64) : Mint × BitVec 64 :=
  if m.testSrc.getLsbD 0 then
    let l := times lfsrStep Config.patternSteps m.lfsr
    match m.testSrc.toNat / 2 % 4 with
    | 1 => (m, 0)
    | 2 => ({ m with lfsr := l }, Config.patternBiased l)
    | _ => ({ m with lfsr := l }, l)
  else (m, w)

/-- The health tests run: a startup or restart test, or the continuous ones from its pass on (R329, R330); they rest while a
restart is awaited. -/
def Mint.tests (m : Mint) : Bool := m.testing || m.state == .ready || m.state == .testSrc

/-- Raw words are sampled: S, the tests, and a health failure where one fails. -/
def State.sample : List (BitVec 64) → State → State × Bool
  | [], s => (s, true)
  | w :: r, s =>
    let (m, x) := s.mint.raw w
    let (osc, bad) := if m.tests then feedAll x m.osc else (m.osc, none)
    let s := { s with mint := { m with osc, s := condWord m.s x } }
    match bad with
    | none => State.sample r s
    | some f => (s.healthFail f, false)

/-- Mint releases blocks (Table 14-2). -/
def Mint.releases (m : Mint) : Bool := (m.state == .ready || m.state == .testSrc) && !m.testing

/-- 32 raw words: the block goes to the pool where Mint releases it and there is room. -/
def execMintBlockReady (words : List (BitVec 64)) (s : State) : Res :=
  .next <|
    if s.live ∧ s.mint.state ≠ .failed then
      let taken := s.sample words
      let s := taken.1
      let ok := taken.2
      if ok && s.mint.releases && decide (s.mint.pool.length < 16) then s.updMint fun m => { m with pool := m.pool ++ [m.s] } else s
    else s

/-- The startup or restart test ends, with the test that failed or a pass (R329). -/
def execMintStartupTestEnd (fail : Option HealthFail) (dur : BitVec 16) (s : State) : Res :=
  .next <|
    if s.live && s.mint.testing && (s.mint.state == .startup || s.mint.state == .restarting || s.mint.state == .testSrc) then
      let s := s.updMint fun m => { m with lastTest := dur }
      match fail with
      | some f => s.healthFail f
      | none =>
        let s := s.updMint fun m => { m with testing := false, pool := [] }
        s.mintGo (if s.mint.testSrc.getLsbD 0 then .testSrc else .ready)
    else s

/-- 10 ms after the failure, a restart begins. -/
def execMintRestartTimer (s : State) : Res :=
  .next <|
    if s.live && s.mint.state == .restarting && !s.mint.testing then
      s.updMint fun m => { m with restarts := m.restarts + 1, testing := true, osc := Vector.replicate 64 {} }
    else s

/-! ### DRBG pages (R338, R339) -/

/-- The instance of a page: 0 the fixed one, then the extra ones. -/
def State.pageInst (i : Fin 128) (p : Fin 4) (s : State) : Option (Fin 160) :=
  if p = 0 then some (fixedInst i) else (s.mint.extra[i])[p.val - 1]?

/-- A page request is refused. -/
def State.drbgEnd (i : Fin 128) (p : Fin 4) (st : BitVec 16) (f : DpPage → DpPage) (s : State) : State :=
  (s.updDp i p fun x => { f x with busy := false, waiting := false, status := st, evt := x.evt.hit }).jobDone i

/-- A request whose blocks are there joins those that are ready, in their order. -/
def State.startDraw (q : DrbgReq) (s : State) : State :=
  let g := if q.reseed then ([], s.seedFor q) else s.generate q
  g.2.updMint fun m => { m with ready := m.ready ++ [{ q with out := g.1 }] }.next

/-- Table 14-4 for a page request. -/
def State.pageDraw (i : Fin 128) (p : Fin 4) (q : DrbgReq) (wait : Bool) (s : State) : State :=
  match s.drawKind q wait with
  | .refused st => s.drbgEnd i p st id
  | .queued => (s.queueDraw q).updDp i p fun x => { x with busy := true, waiting := true }
  | .now => (s.startDraw q).updDp i p fun x => { x with busy := true }

/-- A store of DP_CMD with GO = 1 to a page that the slot has. -/
def State.drbgTake (i : Fin 128) (p : Fin 4) (cmd : Nat) (f : DpPage → Fin 160 → State → State) (s : State) : State :=
  if s.calls i && s.unitPage i (0x41000000 + 0x1000 * p.val) then
    let x := (s.mint.pages[i])[p]
    if x.busy then s.updDp i p fun x => { x with ignored := sat8 x.ignored }
    else match s.pageInst i p with
      | none => s
      | some n => f x n (s.updDp i p fun x => { x with cmd := BitVec.ofNat 32 cmd, split := false })
  else s

def execDrbgGenerate (slot : Fin 128) (page : Fin 4) (wait pr outreg : Bool) (s : State) : Res :=
  .next <| s.drbgTake slot page (16384 * b2n wait + 8192 * b2n pr + 4096 * b2n outreg + 1) fun x n s =>
    let len := x.len.toNat
    if len = 0 ∨ 65536 < len ∨ 32 < x.ainlen.toNat ∨ (outreg ∧ 32 < len) then s.drbgEnd slot page 0x0108 id
    else match (if outreg then none else s.badByte slot x.dst.toNat len true) with
      | some b => (s.split slot).drbgEnd slot page 0x0308 fun y => { y with split := true, fault := BitVec.ofNat 32 b }
      | none => s.pageDraw slot page { client := .page slot page, inst := n, pr, len, outreg, dst := x.dst, ain := x.ain.take x.ainlen.toNat } wait

def execDrbgReseed (slot : Fin 128) (page : Fin 4) (wait : Bool) (s : State) : Res :=
  .next <| s.drbgTake slot page (16384 * b2n wait + 2) fun x n s =>
    if 32 < x.ainlen.toNat then s.drbgEnd slot page 0x0108 id
    else s.pageDraw slot page { client := .page slot page, inst := n, reseed := true, ain := x.ain.take x.ainlen.toNat } wait

/-- ABORT ends the request at once. -/
def execDrbgAbort (slot : Fin 128) (page : Fin 4) (s : State) : Res :=
  .next <|
    if s.calls slot && s.unitPage slot (0x41000000 + 0x1000 * page.val) then
      if ((s.mint.pages[slot])[page]).busy then
        ((s.endPage slot page 0x0409).updDp slot page fun x => { x with cmd := (x.cmd &&& 0x7000) ||| 0x0F }).jobDone slot
      else s.updDp slot page fun x => { x with ignored := sat8 x.ignored }
    else s

/-- The running request completes: its output is written and it is counted. -/
def State.drawDone (r : DrbgReq) (s : State) : State :=
  match r.client with
  | .page i p =>
    if r.reseed then s.drbgEnd i p 0 id
    else
      let s := s.countGen r
      if r.outreg then s.drbgEnd i p 0 fun x => { x with out := padTo 32 r.out }
      else (s.dmaWrite i r.dst.toNat r.out).drbgEnd i p 0 id
  | _ => s

/-- Mint's core finishes a request and takes the next. -/
def execDrbgRequestDone (s : State) : Res :=
  .next <|
    if s.live then
      let s := match s.mint.running with
        | some r => (s.updMint fun m => { m with running := none }).drawDone r
        | none => s
      s.updMint Mint.next
    else s

/-- The nonce of ADMIN_CHALLENGE is drawn, and the request answered. -/
def State.challengeRun (n : Bytes) (s : State) : State :=
  ({ s with treor := { s.treor with nonce := some n } }).answer .nonceDraw 0 n

/-- A request that waited is served. -/
def State.serveDraw (r : DrbgReq) (s : State) : State :=
  match r.client with
  | .page i p => (s.startDraw r).updDp i p fun x => { x with waiting := false }
  | .kct i =>
    let b := s.drawOut r
    (s.drawNow r).updKc i fun p => { p with cur := p.cur.map fun o => { o with draw := b, waiting := false } }
  | .pke i =>
    let b := s.drawOut r
    match (s.pke.pages[i]).job with
    | none => s
    | some j => (s.drawNow r).pkeQueue i { j with draw := b }
  | .challenge => (s.drawNow r).challengeRun (s.drawOut r)
  | .migrate i => (s.drawNow r).migrateRun i (s.drawOut r)
  | .rekey =>
    match s.treor.waiting.find? (·.what == .rekey) with
    | none => s
    | some w =>
      let key := s.drawOut r
      let s := s.drawNow r
      let s := ({ s with treor := { s.treor with waiting := s.treor.waiting.erase w } }).rekeyRun w.req w.major key
      s

/-- The first request that waits is served, once Mint has what it needs. -/
def execDrbgWaitServed (s : State) : Res :=
  .next <|
    if s.live then
      match s.mint.waitq with
      | [] => s
      | r :: rest => if s.mint.canSeed ∨ !s.needsMint r then (s.updMint fun m => { m with waitq := rest }).serveDraw r else s
    else s

/-- 20 ms after it was taken, the oldest request that waits and has not been started ends. -/
def execDrbgWaitTimeout (s : State) : Res :=
  .next <|
    if s.live then
      match s.mint.waitq with
      | [] => s
      | r :: rest => (s.updMint fun m => { m with waitq := rest }).endDraw r 0x0601
    else s

/-! ### The factory test source (R340, R341) -/

/-- A write of MINT_TEST_SRC outside FACTORY_TEST is ignored and logged. -/
def State.testWrite (v : Word) (f : State → State) (s : State) : State :=
  if !s.live then s
  else if s.lc.state = .factoryTest then f s
  else s.log 0x05 (BitVec.ofNat 8 s.lc.state.code) (leN 4 v.toNat)

/-- Mint with every instance uninstantiated, its pool and S zeroed. -/
def Mint.emptied (m : Mint) : Mint := { m with s := 0, pool := [], insts := Vector.replicate 160 {} }

def execTestSrcEnable (v : Word) (s : State) : Res :=
  .next <| s.testWrite v fun s =>
    let w := (v &&& 0xFFFF0007) ||| 1
    let seed : BitVec 64 := if v >>> 16 = 0 then 1 else (v >>> 16).setWidth 64
    if s.mint.testSrc.getLsbD 0 ∨ s.mint.state = .failed then s.updMint fun m => { m with testSrc := w }
    else (s.updMint fun m => { m.emptied with testSrc := w, lfsr := seed, testing := true, osc := Vector.replicate 64 {} }).mintGo .testSrc

def execTestSrcDisable (v : Word) (s : State) : Res :=
  .next <| s.testWrite v fun s =>
    let w := v &&& 0xFFFF0006
    if !s.mint.testSrc.getLsbD 0 ∨ s.mint.state = .failed then s.updMint fun m => { m with testSrc := w }
    else (s.updMint fun m => { m.emptied with testSrc := w, testing := true, osc := Vector.replicate 64 {} }).mintGo .startup

/-- A read of MINT_RAW_LO latches the upper half of the same word. -/
def execMintRawRead (raw : BitVec 64) (s : State) : Res :=
  .next <| if s.live ∧ s.lc.state = .factoryTest then s.updMint fun m => { m with rawHi := (raw >>> 32).setWidth 32 } else s

/-- MINT_STATUS (Table 14-17). -/
def execMintStatus (r : Req) (s : State) : Res :=
  .next <| s.request 0x0601 r (r.body = []) fun s =>
    let m := s.mint
    let n := m.insts.toList.countP (·.inst)
    let q := m.insts.toList.countP (·.reseedReq)
    s.respond r 0x0601 0 ([BitVec.ofNat 8 m.state.code, m.restarts] ++ leN 2 n ++ leN 2 q ++ leN 2 m.lastTest.toNat ++ leN 4 m.hlth.toNat ++
      leN 6 m.lastFail.toNat ++ [0, 0])

end Sys2Proof.Machine
end

