-- ==== Sys2Proof/Machine/Power.lean ====
section
/-! DEFINITION. Start and stop of the main side: release, recall, supervisor image, cold starts, the carry-over seed, the
power-loss save, and the locks of the clocks (R376 to R398, R500, R501). -/

namespace Sys2Proof.Machine

abbrev State.updPower (s : State) (f : Power → Power) : State := { s with power := f s.power }

/-! ### Holding the main side in reset (R8, R217, R376 to R378) -/

/-- Every supply counts as clear (Table 16-1). -/
def Levels.clear (l : Levels) : Bool := decide (765 ≤ l.core) && decide (950 ≤ l.phy) && decide (1680 ≤ l.io)
/-- A supply is below its hold threshold. -/
def Levels.low (l : Levels) : Bool := decide (l.core < 720) || decide (l.phy < 900) || decide (l.io < 1600)

/-- What a main-side reset leaves of a port: its owner and its stored settings. -/
def Port.atReset (p : Port) : Port := { owner := p.owner, recEn := p.recEn, recGen := p.recGen, recAuto := p.recAuto }

/-- What it leaves of a slot (Table 09-4). -/
def Slot.atReset (k : Slot) : Slot :=
  { state := if k.state = .running ∨ k.state = .quiescing then .quiesced else k.state
    tenantId := k.tenantId, authHash := k.authHash, role := k.role, version := k.version, importing := k.importing, run := k.run, stage := k.stage
    image := k.image, staged := k.staged, imageOk := k.imageOk, restart := k.restart || k.state == .running
    stopped := k.stopped || k.state == .running || k.state == .quiescing, apply := k.apply, removing := k.removing
    retired := k.retired, stopCause := k.stopCause, stopCount := k.stopCount, stopEpc := k.stopEpc, stopTval := k.stopTval }

/-- The next SEQ of each owner as recall finds it: one above the highest of its JOURNAL records, valid or not (R356). -/
def recallSeqs (j : List JEntry) : List (Byte × BitVec 48) :=
  (j.map (·.id.owner)).eraseDups.map fun o => (o, (j.filter (·.id.owner == o)).foldl (fun m e => if m ≤ e.copy.seq then e.copy.seq + 1 else m) 0)

/-- What it leaves of the store. -/
def Store.atReset (t : Store) : Store :=
  { t with journalSeq := recallSeqs t.journal, nctr := 0, vals := Vector.replicate 4096 0, queue := [], refreshPage := 0, readsLost := 0, parityRejects := 0, lostLogged := [], parityLogged := []
           ptableAwait := false, saveBankSeq := none }

/-- Of the bouquet: records stay, what SRAM holds goes (R485, R486). -/
def Bqt.atReset (b : Bqt) (rtc : BitVec 48) : Bqt :=
  { b with seq := b.seqRes, cache := [], replay := [], held := [], resetRtc := rtc, imports := b.imports.map fun i => i.map fun x => { x with early := [] } }

/-- Of the tag window: what the supervisor kept for it goes, an update is abandoned and a grant released (R141, R507). -/
def Tag.atReset (t : Tag) : Tag :=
  { t.dropMain with site := [], cfg := [0, 0, 0], summary := [], logCopy := [], due := false, hostDue := none, rowsTold := false, askDue := true
                    inboxBusy := none, inboxAnswer := none, maxWait := 0 }

/-- Of Bay: its request is discarded, and the supervisor's view of it goes (R507). -/
def Bay.atReset (b : Bay) : Bay :=
  { b with bridge := 0, reqs := [], offered := [], seenSeal := 3, seenPend := none, seenRec := 0, seenConfirmed := 0, seenEvt := 0, seenFw := 0, seenCfg := 0
           queuedHost := [], firstBridge := true }

/-- Everything that the main side holds is at its reset value; the store, OTP, the battery domain, Bay, the tag island, pins and
supplies are as they were. -/
def State.volatileReset (s : State) : State :=
  let s : State := (List.finRange 128).foldl (fun s i => s.dropVolatile i) s
  { power := { levels := s.power.levels, bayMv := s.power.bayMv, vbatMv := s.power.vbatMv, pwrFailN := s.power.pwrFailN, resetN := s.power.resetN
               nvWpN := s.power.nvWpN, run := .held, fell := s.power.fell, savedRun := s.power.savedRun, imgA := s.power.imgA, imgB := s.power.imgB
               mainPwr := s.power.mainPwr }
    sprig := { ports := s.sprig.ports.map Port.atReset }
    treor := { params := s.treor.params }
    tenants := { slots := s.tenants.slots.map Slot.atReset }
    kct := { entries := s.kct.entries, fresh := s.kct.fresh, freed := s.kct.freed, jnl := s.kct.jnl, jnlHead := s.kct.jnlHead, jnlSeq := s.kct.jnlSeq }
    mint := { testing := true, extra := s.mint.extra }
    store := s.store.atReset
    guard := { s.guard with tampered := false, active := s.guard.active.filter Mon.inBattery }
    lc := { s.lc with nonce := none, dbgSession := none, halted := [] }
    tag := s.tag.atReset, bay := s.bay.atReset, bqt := s.bqt.atReset s.guard.rtc, free := s.free, pending := s.pending }

/-- The main side enters reset. -/
def State.hold (s : State) : State := s.volatileReset

/-- A main supply falls: below its hold threshold the main side is held in reset, whatever it was doing. -/
def execSupplyLoss (lv : Levels) (s : State) : Res :=
  .next <|
    let s := s.updPower fun p => { p with levels := lv }
    if lv.low then (s.updPower fun p => { p with fell := true, savedRun := p.savedRun || p.run == .saveDone }).hold else s

/-- RESET_N goes low (R378). -/
def execResetNAssert (s : State) : Res :=
  .next <|
    let s := s.updPower fun p => { p with resetN := false }
    match s.power.run with
    | .held => s
    | .saving => s
    | .saveDone => (s.updPower fun p => { p with savedRun := true }).hold
    | .bootRom | .running | .serviceOnly => s.hold

/-! ### Release and recall phases 1 and 2 (R18, R305, R369, R377, R381, R382) -/

/-- Every epoch increments (R18). -/
def Store.nextEpochs (t : Store) : Store :=
  { t with slotEpoch := t.slotEpoch.map nextEpoch, portEpoch := t.portEpoch.map nextEpoch, chanEpoch := t.chanEpoch.map nextEpoch }

/-- The boot counter increments; a lost BOOT record takes one more bit of the era. False where the era is full (R381). -/
def State.nextBoot (s : State) : State × Bool :=
  match s.store.bootRec with
  | some v => ({ s with store := { s.store with bootRec := some (v + 1) } }, true)
  | none =>
    if s.lc.era < 512 then
      let s : State := { s with lc := { s.lc with era := s.lc.era + 1 }, store := { s.store with bootRec := some 0 } }
      (s.log 0x22 0 (leN 2 s.lc.era), true)
    else (s, false)

/-- The seed that a countermeasure generator takes at reset (R305). -/
def State.cmSeed (n : Nat) (s : State) : Bytes :=
  sha ((match s.store.carry with | some c => padTo 32 c.seed | none => zeros 32) ++ leN 8 s.boots ++ padTo 16 s.lc.unitId ++ [BitVec.ofNat 8 n])

/-- Main-store recall fails: HRB_RECALL shows 3 (R371). -/
def State.recallFails (s : State) : State := { s with hrb := { s.hrb with rclMain := 3 } }

/-- The partition table is rewritten while NV_WP_N is high (R349, R351). -/
def State.writeTable (ok : Bool) (s : State) : State :=
  if ok then (s.updStore fun t => { t with ptable := .good, ptableAwait := false }).log 0x07 2 []
  else s.log 0x0A 21 [0xFE, 0]

/-- The stored partition table is compared with the layout that is built in. -/
def State.checkTable (s : State) : State :=
  match s.store.ptable with
  | .good => s
  | bad =>
    let s := (s.log 0x07 (if bad = .lost then 0 else 1) []).updStore fun t => { t with ptableAwait := true }
    if s.power.nvWpN then s.writeTable s.store.writeOk else s

/-- Phases 1 and 2. The nonce counter resumes at its reservation (R365). -/
def State.recallStart (s : State) : State :=
  if !s.store.cellOk then s.recallFails.updPower fun p => { p with phase := 1 }
  else
    let boot := s.nextBoot
    if !boot.2 then s.recallFails.updPower fun p => { p with phase := 1 }
    else
      let s := boot.1
      let t := s.store.nextEpochs
      let s : State := { s with store := { t with nctr := t.nctrRes, nctrRes := t.nctrRes + 65536 } }
      let s := s.checkTable
      let gens := Vector.ofFn fun (n : Fin 13) => s.cmSeed n.val
      s.updPower fun p => { p with phase := 2, cmGen := gens }

/-- The cause of the start (R377). -/
def Power.cause (p : Power) : BitVec 4 := if p.fell then 1 else if p.savedRun then 3 else 2

/-- The conditions of Table 16-1 have been clear for 10 ms: the main side leaves reset. -/
def execMainResetRelease (pins : PowerUp) (s : State) : Res :=
  .next <|
    if pins.levels.clear && pins.pwrFailN && pins.resetN && (s.power.run == .held || s.power.run == .saveDone) then
      let s := s.updPower fun p => { p with savedRun := p.savedRun || p.run == .saveDone }
      let cause := s.power.cause
      let s := s.volatileReset
      let s := s.updPower fun p =>
        { p with run := .bootRom, levels := pins.levels, pwrFailN := true, resetN := true, nvWpN := pins.nvWpN, carLock := pins.carLock
                 coreLock := pins.coreLock, vbatMv := pins.vbatMv, fell := false, savedRun := false }
      let s : State :=
        { s with hrb := { s.hrb with rstCause := cause, rclMain := 1, rclTagw := 1, tmax := pins.tmax
                                     rclBay := if s.bay.running && !s.bay.recalled then 1 else 0 }
                 bay := { s.bay with bridge := if s.bay.running then 0 else 3 }
                 store := { s.store with cellOk := pins.cellOk } }
      s.resolveSlots.recallStart
    else s

/-! ### The supervisor image (R379) -/

/-- Area A is taken before B where both headers are valid: the higher version, or A. -/
def firstIsA (a b : SupImage) : Bool := a.header && (!b.header || decide (b.version ≤ a.version))

/-- The image that starts, whether it is B, and the one that failed before it. -/
def pickImage (a b : SupImage) : Option (SupImage × Bool × Option (Byte × SupImage)) :=
  let (x, y, code) : SupImage × SupImage × Byte := if firstIsA a b then (a, b, 0) else (b, a, 1)
  if x.header && x.body then some (x, code == 1, none)
  else if x.header && y.header && y.body then some (y, code == 0, some (code, x))
  else none

/-- HRB_FWVER of the image of area A or, where `isB`, B (Table 07-3). -/
def fwverOf (m : SupImage) (isB : Bool) : Word := (if isB then 0x80000000 else 0) ||| m.version.extractLsb' 0 31 |>.setWidth 32

def execSupervisorImageStart (s : State) : Res :=
  .next <|
    if s.power.run = .bootRom ∧ s.lc.state ≠ .blank then
      match pickImage s.power.imgA s.power.imgB with
      | none => s.recallFails.updPower fun p => { p with run := .serviceOnly }
      | some (m, isB, bad) =>
        let s : State := { s with hrb := { s.hrb with fwver := fwverOf m isB } }
        let s := s.updPower fun p => { p with run := .running }
        match bad with
        | none => s
        | some (code, x) => s.log 0x23 code (leN 4 x.version.toNat ++ leN 4 m.version.toNat)
    else s

/-! ### The carry-over seed and the save banks (R365 to R367, R387 to R389) -/

/-- A new SEED (R388): from DRBG instance 146 where it can serve, else a hash. -/
def State.newSeed (s : State) : Bytes × State :=
  let old := match s.store.carry with | some c => padTo 32 c.seed | none => zeros 32
  let q : DrbgReq := { ownDraw 146 32 with ain := old }
  if !s.needsMint q || s.mint.state == .ready then (s.drawOut q, s.drawNow q)
  else (sha (ascii "CARRY" ++ old ++ leN 8 s.boots ++ leN 6 s.guard.rtc.toNat), s)

/-- The seed is written with its REASON. -/
def State.writeCarry (reason : Byte) (s : State) : State :=
  let new := s.newSeed
  let seed := new.1
  let s := new.2
  if s.commits then s.updStore fun t => { t with carry := some { seed, boot := BitVec.ofNat 64 s.boots, rtc := s.guard.rtc, reason } } else s

/-- The newest valid save bank. -/
def Store.newestBank (t : Store) : Option SaveBank :=
  if t.bankA.valid && (!t.bankB.valid || decide (t.bankB.seq < t.bankA.seq)) then some t.bankA
  else if t.bankB.valid then some t.bankB
  else none

/-- A bank is written: A takes even SEQ values, B odd ones, the first 0 (R358, R367). -/
def State.writeBank (s : State) : State :=
  if s.commits then
    let q := match s.store.newestBank with | none => 0 | some b => b.seq + 1
    let b : SaveBank := { seq := q, valid := true, vals := s.store.vals.toList }
    s.updStore fun t => if q.getLsbD 0 then { t with bankB := b, saveBankSeq := some q } else { t with bankA := b, saveBankSeq := some q }
  else s

/-- The seed is refreshed once at each start. -/
def execStartSeedRefresh (s : State) : Res :=
  .next <|
    if s.supervisor && s.recalled && s.mint.state == .ready && !s.power.seedDone then
      (s.writeCarry 2).updPower fun p => { p with seedDone := true }
    else s

/-- HRB_UPTIME stands at a multiple of 3,600 s. -/
def execHourlySave (s : State) : Res :=
  .next <| if s.supervisor && s.recalled && s.hrb.uptime != 0 && s.hrb.uptime.toNat % 3600 == 0 then (s.writeBank).writeCarry 1 else s

/-! ### Recall phases 3 to 7 (R344, R369, R385, R386, R390) -/

/-- The zeroing of the main store at the first start in PROVISIONING: the records of every unit but BOOT, NCTR and EPOCH go. -/
def State.zeroStore (s : State) : State :=
  let t := s.store
  { s with store := { bootRec := t.bootRec, ptable := t.ptable, ptableAwait := t.ptableAwait, nctrRes := t.nctrRes, slotEpoch := t.slotEpoch
                      portEpoch := t.portEpoch, chanEpoch := t.chanEpoch, sealBbk := t.sealBbk, cellOk := t.cellOk, writeOk := t.writeOk, nctr := t.nctr }
           kct := {}, bqt := { resetRtc := s.bqt.resetRtc }, treor := { s.treor with params := [] }
           tenants := { s.tenants with slots := Vector.replicate 128 {} }
           sprig := { s.sprig with ports := s.sprig.ports.map fun _ => {} }
           mint := { s.mint with extra := Vector.replicate 128 [] }
           lc := { s.lc with admins := Vector.replicate 4 (zeros 32) }
           guard := { s.guard with rekey := none } }

/-- The values of a bank are loaded. -/
def Store.load (b : SaveBank) (t : Store) : Store := { t with vals := Vector.ofFn fun (k : Fin 4096) => b.vals.getD k.val 0 }

/-- The save bank is restored and the PDC judged (R367, R396). -/
def State.restoreBank (s : State) : State :=
  let s := match s.store.newestBank with
    | some b => s.updStore (Store.load b)
    | none => s.log 0x09 0 []
  let ok := match s.store.pdc with
    | none => false
    | some p => p.boot.toNat + 1 == s.boots && ((s.store.bankA.valid && s.store.bankA.seq == p.bank) || (s.store.bankB.valid && s.store.bankB.seq == p.bank))
  match s.store.pdc, ok with
  | some p, true => { s with hrb := { s.hrb with saveValid := true, saveBackstop := p.backstop, saveDur := p.dur } }
  | _, _ => ({ s with hrb := { s.hrb with saveValid := false } }.evC 5).devEvent 0x0E 0 0 0

/-- HRB_CARRY (R389). -/
def State.showCarry (s : State) : State :=
  match s.store.carry with
  | none => { s with hrb := { s.hrb with carryValid := false, carryAge := 0 } }
  | some c => { s with hrb := { s.hrb with carryValid := true, carryAge := BitVec.ofNat 16 (min 0xFFFF ((s.guard.rtc.toNat - c.rtc.toNat) / 3600)) } }

/-- An interrupted apply or removal is finished (R225, R232), and a slot that the reset stopped says that it is QUIESCED (R216,
Table 09-4). -/
def State.finishSlot (s : State) (i : Fin 128) : State :=
  let k := s.tenants.slots[i]
  let s := if k.stopped then ((s.updSlot i fun k => { k with stopped := false }).evC 4).tellSlot 4 i else s
  if k.removing then (((s.destroySlot i).updSlot i fun _ => {}).evC 4).tellSlot 0 i
  else match k.apply with
    | some a => s.applyNow i a.target
    | none => s

/-- The stored settings go to every port (R385). -/
def Port.configure (p : Port) : Port := { p with en := p.recEn, genLimit := p.recGen, autoRetrain := p.recAuto }

/-- The parameters that the battery domain's copy holds (R446). -/
def tamperParams (l : List (Nat × Nat × Word)) : List (Nat × Nat × Word) := l.filter fun x => decide (0x0800 ≤ x.1 ∧ x.1 ≤ 0x0950)

/-- A PARAM record that reads as lost: its values take their reset value, staged ones return to the running ones, and the loss is
counted and logged (R210, R360). The page it lay in is a free value. -/
def State.loseParams (s : State) (row : Nat) : State :=
  let held (n : Nat) : Bool := paramRow n == some row
  let page := s.random 2
  let s := s.drawn
  let s : State := { s with treor := { s.treor with params := s.treor.params.filter fun x => !held x.1 } }
  let s : State := { s with tenants := { s.tenants with slots := s.tenants.slots.map fun k => { k with stage := Resources.restage held k.run k.stage } } }
  ({ s with hrb := { s.hrb with nvErr := s.hrb.nvErr.incHi } }.updStore fun t => { t with readsLost := t.readsLost + 1 }).log 0x03 18
    ([0xFE, 0] ++ leN 2 row ++ page)

/-- Slots that the supervisor is to cold-start. -/
def State.restarts (s : State) : List (Fin 128) := (List.finRange 128).filter fun i => (s.tenants.slots[i]).restart

/-- `ms` milliseconds after the reset, with the PARAM records that read as lost. -/
def execMainRecallDone (ms : Nat) (lost : List Nat) (s : State) : Res :=
  .next <|
    if s.supervisor ∧ s.hrb.rclMain = 1 then
      let first := s.store.zeroDue && s.lc.state == .provisioning
      let s := if first then s.zeroStore.ownEntries else s
      let s := lost.foldl State.loseParams s.replayKct
      let s := s.restoreBank.showCarry
      let s := (List.finRange 128).foldl State.finishSlot s
      let s := s.rekeyResume
      let s := s.updGuard fun g =>
        { g with copy := tamperParams s.treor.params, arm := match s.lc.state with | .deployed => true | .invalid => g.arm | _ => false }
      let s := s.importBattery
      let s : State := { s with hrb := { s.hrb with rclMain := 2, pagesMain := 65536 }, sprig := { s.sprig with ports := s.sprig.ports.map Port.configure } }
      let s := if s.lc.state = .deployed ∧ s.guard.bbk ≠ .valid then s.enterTampered.zeroiseEngines.wipeSlots else s
      let s := if first then s.writeCarry 3 else s
      let s := s.updPower fun p => { p with phase := 7, coldStarts := s.restarts }
      (s.recallEnd ms).askSummary
    else s

/-- A slot may be cold-started (R386). -/
def State.mayRestart (s : State) : Bool := s.lc.state == .deployed && !s.guard.tampered && s.mint.state != .failed

/-- The next slot to be cold-started. One that another request has started, reset or removed is passed over. -/
def execSlotColdStart (slot : Fin 128) (s : State) : Res :=
  .next <|
    match s.power.coldStarts with
    | [] => s
    | i :: r =>
      if s.supervisor ∧ s.recalled ∧ i = slot then
        let s := s.updPower fun p => { p with coldStarts := r }
        let k := s.tenants.slots[slot]
        let s := s.updSlot slot fun k => { k with restart := false }
        if !k.restart ∨ k.removing ∨ k.state ≠ .quiesced ∨ !s.mayRestart then s
        else if k.image.isSome && k.imageOk then (s.coldStart slot).tellSlot 2 slot
        else (s.recordStop slot 0x06 0 0 0).tellSlot 4 slot
      else s

/-! ### The save (R392 to R396) -/

/-- A port goes to OFF in the save, with STOP in its next window, that of frame `f`, where the head is linked (R56). -/
def Port.saveOff (f : Nat) (p : Port) : Port :=
  let w : DownWindow := { ftag := BitVec.ofNat 6 f, kind := .stop, nak := p.ack.nak, av := p.ack.av, aseq := p.ack.aseq }
  { p.unlink with state := .off, gen := 0, ant := false, sent := if p.linked then some w else none }.drive

/-- What the device may still send of its own (R395). -/
def OutSrc.inSave : OutSrc → Bool
  | .response => false
  | .devEvent => false
  | .mbxMsg => false
  | .bayRecord => false
  | .envOut => false
  | .regAnswer => true
  | .enumReply => true
  | .notice => true

/-- The write that the controller has in hand runs to its commit word; the queue is dropped (R368). -/
def State.saveQueue (s : State) : State :=
  match s.store.queue with
  | [] => s
  | w :: _ => ((s.writeRec w.slot w.id w.del w.body s.store.writeOk).1).updStore fun t => { t with queue := [] }

/-- The save begins: cores stop, jobs end, Bay takes its snapshot, ports go OFF, the store drops its queue. -/
def State.beginSave (backstop : Bool) (s : State) : State :=
  let s := s.abortAll.saveQueue
  let s := if s.bayOn then s.updBay fun b => b.commitBank 0 s.guard.rtc else s
  let s := s.updTag Tag.dropMain
  let s := s.updLink .u fun l => { l with own := l.own.map fun q => q.filter fun m => m.src.inSave }
  let s : State := { s with sprig := { s.sprig with ports := s.sprig.ports.map (Port.saveOff (s.frameNo + 1)) }, treor := { s.treor with waiting := [] }
                            lc := { s.lc with dbgSession := none, halted := [] } }
  s.updPower fun p => { p with run := .saving, backstop, limited := decide (p.phase < 4) }

/-- PWR_FAIL_N has been low for 0.5 µs. -/
def execPowerFailSave (s : State) : Res :=
  .next <|
    let s := s.updPower fun p => { p with pwrFailN := false }
    if s.live then s.beginSave false else s

/-- VDD_CORE has been below 0.750 V for 0.5 µs while PWR_FAIL_N is high. -/
def execBackstopSave (s : State) : Res := .next <| if s.live && s.power.pwrFailN then s.beginSave true else s

/-- The power-down commit record (R394). -/
def State.writePdc (dur : BitVec 16) (s : State) : State :=
  match s.store.saveBankSeq with
  | some q => if s.commits then s.updStore fun t => { t with pdc := some { boot := BitVec.ofNat 64 s.boots, bank := q, dur, backstop := s.power.backstop } } else s
  | none => s

/-- The writes of the save are complete; `dur` is the time to the start of the last of them. -/
def execSaveDone (dur : BitVec 16) (s : State) : Res :=
  .next <|
    if s.power.run = .saving then
      let s := if s.power.limited then s else ((s.writeBank).writeCarry 0).writePdc dur
      let s := s.updPower fun p => { p with run := .saveDone, savedRun := true }
      if s.power.resetN then s else s.hold
    else s

/-- NV_WP_N goes high: what awaits it is written (R134, R349). -/
def execNvWpRise (rowsOk tableOk : Bool) (s : State) : Res :=
  .next <|
    let s := s.updPower fun p => { p with nvWpN := true }
    if s.supervisor then
      let s := s.askIdentity rowsOk
      if s.store.ptableAwait then s.writeTable tableOk else s
    else s

/-! ### Clocks (R500, R501) -/

/-- CAR_LOCK falls: no pair is driven and the counts hold. -/
def execCarrierLockLoss (s : State) : Res :=
  .next <|
    if s.live && s.power.carLock then
      let lost := ((List.finRange 512).filter fun p => (s.sprig.ports[p]).state != .off).map (·.val)
      let s : State := { s with sprig := { s.sprig with ports := s.sprig.ports.map fun p => { p with sent := none } } }
      s.updPower fun p => { p with carLock := false, lostPorts := lost }
    else s

/-- CAR_LOCK returns: at the next boundary those ports enter FAULT with the cause LOCK. -/
def execCarrierRelock (s : State) : Res :=
  .next <|
    if s.live && !s.power.carLock then
      let lost := s.power.lostPorts
      let s : State := { s with sprig := { s.sprig with ports := s.sprig.ports.mapFinIdx fun n p _ => if lost.contains n then p.pend 2 else p } }
      s.updPower fun p => { p with carLock := true, lostPorts := [] }
    else s

def execCoreLockLoss (s : State) : Res := .next <| if s.live then s.updPower fun p => { p with coreLock := false } else s
def execCoreRelock (s : State) : Res := .next <| if s.live then s.updPower fun p => { p with coreLock := true } else s

end Sys2Proof.Machine
end

