-- ==== Sys2Proof/Machine/Regs.lean ====
section
/-! DEFINITION. The register pages: what each word reads, what a read clears or latches, what a write does, REG
blocks and the debug transport (R3 to R7, R80, R83, R170, R173 to R188, R251 to R254, R474, R475). -/

namespace Sys2Proof.Machine

/-! ### Host register block: reads (Tables 07-2 to 07-43) -/

/-- The word at a byte offset of a byte string. -/
def wordAt (b : Bytes) (off : Nat) : Word := BitVec.ofNat 32 (fld b off 4)

/-- A word from fields given as values and places. -/
def packWord (fs : List (Nat × Nat)) : Word := BitVec.ofNat 32 (fs.foldl (fun n (v, sh) => n + v * 2 ^ sh) 0)

/-- HRB_LNKx_STAT (Table 07-7). -/
def State.lnkStat (side : LinkSide) (s : State) : Word :=
  let l := s.linkPort side
  packWord [(b2n l.l2bar, 31), (if s.link.everUp then s.link.addr.toNat else 0, 25), (b2n l.fresh, 24), (l.failed.toNat, 20),
    (l.laneMask.toNat, 16), (l.used.toNat, 8), (l.width.toNat, 5), (l.lsel.toNat, 3), (l.state.toNat, 0)]

/-- HRB_LNKx_EVT (Table 07-9). -/
def LinkPort.evt (l : LinkPort) : Word :=
  packWord [(l.evDiscard.rep.toNat, 21), (l.evLane.rep.toNat, 17), (l.evCause.rep.toNat, 13), (l.evDown.rep.toNat, 9),
    (l.evUp.rep.toNat, 5), (b2n l.evDiscard.set, 4), (b2n l.evLane.set, 3), (b2n l.evCause.set, 2), (b2n l.evDown.set, 1),
    (b2n l.evUp.set, 0)]

/-- HRB_LNKx_CREDIT (Table 07-10). -/
def LinkPort.creditWord (l : LinkPort) : Word := l.credit 3 ++ l.credit 2 ++ l.credit 1 ++ l.credit 0

/-- A message that the device itself has made, not a reply of the link's own blocks (R180). -/
def OutSrc.isMessage : OutSrc → Bool
  | .response | .devEvent | .mbxMsg | .bayRecord | .envOut => true
  | .regAnswer | .enumReply | .notice => false

/-- HRB_DBc (Table 07-13). -/
def State.doorbell (c : Fin 4) (s : State) : Word :=
  let f := s.hrb.dbSent[c]
  let queued := s.link.u.own[c].countP fun m => m.src.isMessage && !m.begun
  packWord [(f.rep.toNat, 18), (b2n f.set, 17), (min 255 queued, 8), (min 255 (s.takenClass c), 0)]

/-- HRB_EVT_x (Table 07-15). -/
def evtWord (fs : Vector Flag 6) : Word :=
  packWord ((List.finRange 6).flatMap fun i => [((fs[i]).rep.toNat, 6 + 4 * i.val), (b2n (fs[i]).set, i.val)])

/-- HRB_IRQ (Table 07-18). -/
def State.irqWord (s : State) : Word :=
  packWord [(b2n s.irqLow, 31), (b2n (flagsOn s.hrb.evtC s.hrb.ienC), 2), (b2n (flagsOn s.hrb.evtB s.hrb.ienB), 1),
    (b2n (flagsOn s.hrb.evtA s.hrb.ienA), 0)]

/-- HRB_TOUT (Table 07-19). -/
def State.toutWord (s : State) : Word :=
  let ended := 2 ≤ s.hrb.rclMain
  packWord [(b2n s.tamperLow, 31), (if ended then s.param 0x0950 else 0, 8), (b2n (decide ended && s.guard.tampered), 7),
    (s.hrb.act.rep.toNat, 3), (b2n s.hrb.act.set, 0)]

/-- ELAPSED of HRB_RECALL: counting until the last recall finishes (Table 07-20). -/
def State.elapsedMs (s : State) : Nat :=
  if 2 ≤ s.hrb.rclMain ∧ 2 ≤ s.hrb.rclBay ∧ 2 ≤ s.hrb.rclTagw then s.hrb.elapsed.toNat
  else max s.hrb.elapsed.toNat (min 0xFFFF (s.hrb.uptime.toNat * 1000))

/-- HRB_LC (Table 07-28). -/
def State.lcWord (s : State) : Word :=
  packWord [(s.lc.pendTgt.toNat, 20), (b2n s.lc.pending, 19), (b2n (s.recalled && s.guard.tampered), 16), (s.lc.state.code, 0)]

/-- Classes with an active filter (Table 07-30). -/
def Guard.activeClasses (g : Guard) : Nat :=
  ((List.range 7).map fun c => if g.active.any (·.cls.val == c) then 2 ^ c else 0).sum

/-- HRB_SEAL (Table 07-32). -/
def State.sealWord (s : State) : Word :=
  packWord [(b2n s.bay.pinLow, 7), (match s.bay.seenPend with | some t => t.toNat | none => 0, 5), (b2n s.bay.seenPend.isSome, 4),
    (s.bay.seenSeal.toNat, 0)]

/-- HRB_MINT (Table 07-36). -/
def State.mintWord (s : State) : Word :=
  packWord [(s.mint.restarts.toNat, 24), (s.mint.insts.toList.countP (·.reseedReq), 16), (s.mint.state.code, 0)]

/-- HRB_TAGW_ARB (Table 07-37). -/
def State.arbWord (s : State) : Word :=
  let t := s.tag
  let cbank := if s.hrb.rclTagw = 2 then (match t.committed with | none => 2 | some b => b2n b) else 3
  packWord [(t.maxWait.toNat, 24), (match t.latch with | some (some b) => b2n b | _ => 0, 11), (b2n t.latch.isSome, 10), (cbank, 8),
    (b2n s.tagVio, 7), (b2n t.field, 6), (b2n t.mainReq, 5), (t.fieldCount, 2),
    (match t.holder with | .none => 0 | .field => 1 | .main => 2, 0)]

/-- The latch that a read of RTC_LO makes for RTC_HI (R187, Table 07-41). -/
def State.rtcHigh (s : State) : Word := s.guard.rtcSub ++ BitVec.ofBool s.guard.rtcSet ++ s.guard.rtc.extractLsb' 32 16

/-- HRB_SLOTk (Table 07-42). -/
def State.slotWord (k : Nat) (s : State) : Word :=
  packWord ((List.range 8).map fun j =>
    (if s.recalled then (s.tenants.slots[Fin.ofNat 128 (8 * k + j)]).state.code else 15, 4 * j))

/-- HRB_PFLTk (Table 07-43). -/
def State.faultWord (k : Nat) (s : State) : Word :=
  packWord ((List.range 32).map fun j => (b2n ((s.sprig.ports[Fin.ofNat 512 (32 * k + j)]).state == .fault), j))

/-- The link registers, by their offset from the port's base. -/
def State.lnkRead (side : LinkSide) (o : Nat) (s : State) : Word :=
  let l := s.linkPort side
  match o with
  | 0x00 => s.lnkStat side
  | 0x08 => l.cnt0.word
  | 0x0C => l.cnt1.word
  | 0x10 => l.cnt2.word
  | 0x14 => l.cnt3.word
  | 0x18 => l.evt
  | 0x1C => l.creditWord
  | _ => 0

/-- HRB registers from 0x000 to 0x01C. -/
def State.idRead (o : Nat) (s : State) : Word :=
  match o with
  | 0x000 => 0xC512B101
  | 0x004 => s.hrb.fwver
  | 0x008 | 0x00C | 0x010 | 0x014 => wordAt (padTo 16 s.lc.unitId) (o - 8)
  | 0x018 => packWord [(1, 20), (2, 16), (b2n s.treor.helloOk, 15), (s.treor.verMaj, 4), (s.treor.verMin, 0)]
  | _ => s.hrb.scratch

/-- HRB registers from 0x060 to 0x0BC. -/
def State.evtRead (o : Nat) (s : State) : Word :=
  let h := s.hrb
  match o with
  | 0x060 => s.doorbell 0
  | 0x064 => s.doorbell 1
  | 0x068 => s.doorbell 2
  | 0x06C => s.doorbell 3
  | 0x070 => packWord [(h.cl0MaxLat.toNat, 24), (h.cl0Over.toNat, 16), (min 63 (s.outClass 0), 0)]
  | 0x074 => h.msgErr.word
  | 0x078 => h.regErr.word
  | 0x07C => h.disc.word
  | 0x080 => evtWord h.evtA
  | 0x084 => h.ienA.setWidth 32
  | 0x088 => evtWord h.evtB
  | 0x08C => h.ienB.setWidth 32
  | 0x090 => evtWord h.evtC
  | 0x094 => h.ienC.setWidth 32
  | 0x098 => s.irqWord
  | 0x09C => s.toutWord
  | 0x0A0 => packWord [(s.elapsedMs, 16), (h.rclMain.toNat, 4), (h.rclBay.toNat, 2), (h.rclTagw.toNat, 0)]
  | 0x0A4 => h.pagesMain.setWidth 32
  | 0x0A8 => h.pagesBay.setWidth 32
  | 0x0AC => h.pagesTagw.setWidth 32
  | 0x0B0 => packWord [(b2n s.power.pwrFailN, 1), (b2n (!s.power.nvWpN), 0)]
  | 0x0B4 => if s.recalled then packWord [(b2n h.saveValid, 31), (b2n h.saveBackstop, 30), (h.saveDur.toNat, 0)] else 0
  | 0x0B8 => h.nvErr.word
  | 0x0BC => packWord [(h.carryAge.toNat, 16), (b2n h.carryValid, 0)]
  | _ => 0

/-- HRB registers from 0x0C0 to 0x0FC. -/
def State.sumRead (o : Nat) (s : State) : Word :=
  let h := s.hrb
  match o with
  | 0x0C0 => s.lcWord
  | 0x0C4 => packWord [(s.bootEpoch.toNat, 16), (s.tcnt, 0)]
  | 0x0C8 => packWord [(s.guard.activeClasses, 16), (h.tampSeen.toNat, 8), (h.tampLevel.toNat, 4)]
  | 0x0CC => if s.recalled then packWord [(s.guard.ovf.toNat, 16), (h.batNew.toNat, 8), (s.guard.log.length, 0)] else 0
  | 0x0D0 => s.sealWord
  | 0x0D4 => packWord [(h.tmax.toNat, 24), (b2n s.bay.clock, 19), (b2n s.power.coreLock, 18), (b2n s.power.carLock, 17),
      (min 4095 s.power.vbatMv, 0)]
  | 0x0D8 => h.uptime
  | 0x0DC => h.rstCause.setWidth 32
  | 0x0E0 => s.mintWord
  | 0x0E4 => s.arbWord
  | 0x0E8 => if s.hrb.rclTagw = 2 then s.tag.gen else 0
  | 0x0EC => if s.hrb.rclTagw = 2 then packWord [(s.tag.freeSlots, 16), (s.tag.newSlots, 8)] else 0
  | 0x0F0 => s.guard.rtc.extractLsb' 0 32
  | 0x0F4 => h.rtcHi
  | 0x0F8 => packWord [(min 0xFFFF s.bay.queuedHost.length, 16), (b2n (s.bay.bridge == 1), 4), (s.bay.bridge.toNat, 0)]
  | 0x0FC => s.bay.seenRec.extractLsb' 0 32
  | _ => 0

/-- The value that a read of the HRB returns (Table 07-1). -/
def State.hrbRead (o : Nat) (s : State) : Word :=
  if o < 0x20 then s.idRead o
  else if o < 0x40 then s.lnkRead .u (o - 0x20)
  else if o < 0x60 then s.lnkRead .d (o - 0x40)
  else if o < 0xC0 then s.evtRead o
  else if o < 0x100 then s.sumRead o
  else if o < 0x140 then s.slotWord ((o - 0x100) / 4)
  else if o < 0x180 then s.faultWord ((o - 0x140) / 4)
  else 0

/-! ### Host register block: what a read clears (R6, R7, R187) -/

abbrev State.updHrb (s : State) (f : Hrb → Hrb) : State := { s with hrb := f s.hrb }

/-- REPEAT of every flag of HRB_LNKx_EVT is cleared. -/
def LinkPort.readEvt (l : LinkPort) : LinkPort :=
  { l with evUp := l.evUp.read, evDown := l.evDown.read, evCause := l.evCause.read, evLane := l.evLane.read
           evDiscard := l.evDiscard.read }

/-- What a read of a link register clears. -/
def LinkPort.afterRead (o : Nat) (l : LinkPort) : LinkPort :=
  match o with
  | 0x08 => { l with cnt0 := {} }
  | 0x0C => { l with cnt1 := {} }
  | 0x10 => { l with cnt2 := {} }
  | 0x14 => { l with cnt3 := {} }
  | 0x18 => l.readEvt
  | _ => l

/-- A read of HRB_RTC_LO latches HRB_RTC_HI (R187). -/
def State.latchRtc (s : State) : State := s.updHrb fun h => { h with rtcHi := s.rtcHigh }

/-- What a read of the HRB clears or latches. -/
def State.hrbAfterRead (o : Nat) (s : State) : State :=
  match o with
  | 0x060 => s.updHrb fun h => { h with dbSent := modify h.dbSent (0 : Fin 4) Flag.read }
  | 0x064 => s.updHrb fun h => { h with dbSent := modify h.dbSent (1 : Fin 4) Flag.read }
  | 0x068 => s.updHrb fun h => { h with dbSent := modify h.dbSent (2 : Fin 4) Flag.read }
  | 0x06C => s.updHrb fun h => { h with dbSent := modify h.dbSent (3 : Fin 4) Flag.read }
  | 0x070 => s.updHrb fun h => { h with cl0MaxLat := 0, cl0Over := 0 }
  | 0x074 => s.updHrb fun h => { h with msgErr := {} }
  | 0x078 => s.updHrb fun h => { h with regErr := {} }
  | 0x07C => s.updHrb fun h => { h with disc := {} }
  | 0x080 => s.updHrb fun h => { h with evtA := h.evtA.map Flag.read }
  | 0x088 => s.updHrb fun h => { h with evtB := h.evtB.map Flag.read }
  | 0x090 => s.updHrb fun h => { h with evtC := h.evtC.map Flag.read }
  | 0x09C => s.updHrb fun h => { h with act := h.act.read }
  | 0x0B8 => s.updHrb fun h => { h with nvErr := {} }
  | 0x0C8 => s.updHrb fun h => { h with tampSeen := 0 }
  | 0x0E4 => s.updTag fun t => { t with maxWait := 0 }
  | 0x0F0 => s.latchRtc
  | _ =>
    if 0x20 ≤ o ∧ o < 0x40 then s.updLink .u (LinkPort.afterRead (o - 0x20))
    else if 0x40 ≤ o ∧ o < 0x60 then s.updLink .d (LinkPort.afterRead (o - 0x40))
    else s

/-! ### Host register block: writes (R174) -/

/-- W1C on the flags of a link port; a hardware set in the same cycle wins and sets LINK_x as well. -/
def State.lnkClear (side : LinkSide) (v sim : Word) (s : State) : State :=
  let s := s.updLink side fun l =>
    { l with evUp := l.evUp.clear (v.getLsbD 0) (sim.getLsbD 0), evDown := l.evDown.clear (v.getLsbD 1) (sim.getLsbD 1)
             evCause := l.evCause.clear (v.getLsbD 2) (sim.getLsbD 2), evLane := l.evLane.clear (v.getLsbD 3) (sim.getLsbD 3)
             evDiscard := l.evDiscard.clear (v.getLsbD 4) (sim.getLsbD 4) }
  if sim &&& 0x1F = 0 then s else s.linkFlag side

/-- W1C on SENT of a doorbell. -/
def State.dbClear (c : Fin 4) (v sim : Word) (s : State) : State :=
  let s := s.updHrb fun h => { h with dbSent := modify h.dbSent c fun f => f.clear (v.getLsbD 17) (sim.getLsbD 17) }
  if sim.getLsbD 17 then s.evA 2 else s

/-- W1C on the six flags of HRB_EVT_x. -/
def evtClear (fs : Vector Flag 6) (v sim : Word) : Vector Flag 6 :=
  Vector.ofFn fun i => (fs[i]).clear (v.getLsbD i) (sim.getLsbD i)

/-- A write of 1s to the W1C flags of the HRB, with the hardware sets of the same cycle (R6). -/
def State.hrbClear (o : Nat) (v sim : Word) (s : State) : State :=
  match o with
  | 0x038 => s.lnkClear .u v sim
  | 0x058 => s.lnkClear .d v sim
  | 0x060 => s.dbClear 0 v sim
  | 0x064 => s.dbClear 1 v sim
  | 0x068 => s.dbClear 2 v sim
  | 0x06C => s.dbClear 3 v sim
  | 0x080 => s.updHrb fun h => { h with evtA := evtClear h.evtA v sim }
  | 0x088 => s.updHrb fun h => { h with evtB := evtClear h.evtB v sim }
  | 0x090 => s.updHrb fun h => { h with evtC := evtClear h.evtC v sim }
  | 0x09C => s.updHrb fun h => { h with act := h.act.clear (v.getLsbD 0) (sim.getLsbD 0) }
  | _ => s

/-- HRB_LNKx_CTRL.RETRAIN: the port that carried the REG block waits for its answer to be acknowledged (R178);
D ignores it while U is not UP (Table 07-8). -/
def State.orderRetrain (side : LinkSide) (s : State) : State :=
  match side with
  | .u => if s.link.u.state = 2 then s.updLink .u fun l => { l with orderPend := true } else s
  | .d => if s.link.u.state = 2 then s.retrain .d true else s

/-- A host write of the HRB (R174). -/
def State.hrbWrite (o : Nat) (v : Word) (s : State) : State :=
  match o with
  | 0x01C => s.updHrb fun h => { h with scratch := v }
  | 0x024 => if v.getLsbD 0 then s.orderRetrain .u else s
  | 0x044 => if v.getLsbD 0 then s.orderRetrain .d else s
  | 0x084 => s.updHrb fun h => { h with ienA := v.setWidth 6 }
  | 0x08C => s.updHrb fun h => { h with ienB := v.setWidth 6 }
  | 0x094 => s.updHrb fun h => { h with ienC := v.setWidth 6 }
  | _ => s.hrbClear o v 0

/-! ### REG blocks (R170) -/

/-- RES of an operation: the first check that applies. -/
def regRes (off op : Nat) : Byte := if 1 < op then 8 else if 0x17C < off then 5 else if off % 4 ≠ 0 then 4 else 0

/-- One operation of a REG block: the state after it, and its eight bytes of the answer. -/
def State.regOp (b : Bytes) (s : State) : State × Bytes :=
  let off := fld b 0 2
  let op := fld b 2 1
  let res := regRes off op
  let head := b.take 3 ++ [res]
  if res ≠ 0 then (s.updHrb fun h => { h with regErr := h.regErr.incLo }, head ++ zeros 4)
  else if op = 0 then (s.hrbAfterRead off, head ++ leN 4 (s.hrbRead off).toNat)
  else (s.hrbWrite off (wordAt b 4), head ++ leN 4 (fld b 4 4))

/-- The operations from byte 8 on, in order. -/
def State.regOps : Nat → Bytes → State → State × Bytes
  | 0, _, s => (s, [])
  | n + 1, b, s =>
    let one := s.regOp (padTo 8 b)
    let rest := State.regOps n (b.drop 8) one.1
    (rest.1, one.2 ++ rest.2)

/-- A REG block carried out: the state after it and the answer's payload. -/
def State.regBlock (d : Bytes) (s : State) : State × Bytes :=
  let n := fld d 4 1
  if 1 ≤ n ∧ n ≤ 31 ∧ d.length = 8 + 8 * n then
    let all := State.regOps n (d.drop 8) s
    (all.1, padTo 4 d ++ leN 2 n ++ [0, 0] ++ all.2)
  else (s.updHrb fun h => { h with regErr := h.regErr.incHi }, padTo 4 d ++ [0, 0, 1, 1])

/-- The REG block that was delivered first, and its answer of the same class. -/
def execRegBlock (s : State) : Res :=
  .next <|
    match s.link.delivered.find? fun d => match d with | .reg _ => true | _ => false with
    | some (.reg b) =>
      let s := s.consume (.reg b) b
      if s.released then
        let all := s.regBlock b.data
        all.1.send { src := .regAnswer, kind := 1, cls := b.cls, bytes := all.2, order := all.1.link.u.orderPend && !s.link.u.orderPend }
      else s
    | _ => s

/-! ### Reads of the other pages -/

/-- The bytes of an inbound descriptor (Table 10-6). -/
def InEntry.bytes (e : InEntry) : Bytes := [e.kind, e.cls] ++ leN 2 e.len.toNat ++ leN 4 e.offset.toNat ++ leN 4 e.tag.toNat ++ zeros 4
/-- The bytes of an outbound descriptor (Table 10-7). -/
def OutEntry.bytes (e : OutEntry) : Bytes := leN 4 e.tag.toNat ++ [e.cls, 0] ++ leN 2 e.len.toNat ++ leN 4 e.addr.toNat ++ zeros 4
/-- The descriptor that 16 bytes spell. -/
def OutEntry.ofBytes (b : Bytes) : OutEntry :=
  { tag := wordAt b 0, cls := byteAt b 4, len := BitVec.ofNat 16 (fld b 6 2), addr := wordAt b 8 }

/-- Word `o` of a port page (Tables 02-15 to 02-19, 03-8, 03-9). -/
def State.portRead (p : Fin 512) (o : Nat) (s : State) : Word :=
  let x := s.sprig.ports[p]
  let g := x.page
  match o with
  | 0x00 => x.ctrl
  | 0x04 => x.stat s.store.portEpoch[p]
  | 0x08 => x.evt
  | 0x0C => s.carrier.setWidth 32
  | 0x10 => g.cmd
  | 0x14 => g.cmdArg
  | 0x18 => g.cmdRes
  | 0x1C => x.tstate
  | 0x20 => g.evqWr.setWidth 32
  | 0x24 => g.evqRd.setWidth 32
  | 0x28 => g.evqLost.setWidth 32
  | 0x2C => g.rxLen
  | 0x30 => g.fence.setWidth 32
  | 0x34 => g.errcnt
  | 0x38 => g.lastTsof
  | _ =>
    if o < 0x40 then 0
    else if o < 0x140 then wordAt (padTo 16 (g.ring[Fin.ofNat 16 ((o - 0x40) / 16)])) (o % 16)
    else BitVec.ofNat 32 (leVal (Memory.readN g.mem o 4))

/-- One byte, or two, of a port page from offset 0x010 on (R80). -/
def State.portPartRead (p : Fin 512) (o : Nat) (half : Bool) (s : State) : Word :=
  BitVec.ofNat 32 ((s.portRead p (o / 4 * 4)).toNat / 256 ^ (o % 4) % (if half then 65536 else 256))

/-- PEND[w] (Table 10-5). -/
def State.pendWord (i : Fin 128) (w : Nat) (s : State) : Word :=
  packWord ((List.range 32).map fun j =>
    let p := s.sprig.ports[Fin.ofNat 512 (32 * w + j)]
    (b2n (p.ownedBy i && p.moved.isNone && p.page.evqWr != p.page.evqRd), j))

/-- Word `o` of a mailbox page (Table 10-5). -/
def State.mbxRead (i : Fin 128) (o : Nat) (s : State) : Word :=
  let m := (s.tenants.slots[i]).mbox
  match o with
  | 0x00 => m.ringBase
  | 0x04 => m.ringSize
  | 0x08 => m.inWr.setWidth 32
  | 0x0C => m.inRd.setWidth 32
  | 0x10 => m.outWr.setWidth 32
  | 0x14 => m.outRd.setWidth 32
  | 0x18 => m.inPos
  | 0x1C => m.errWrites ++ m.errDrops
  | _ =>
    if o < 0x40 then 0
    else if o < 0x140 then wordAt (m.ins[Fin.ofNat 16 ((o - 0x40) / 16)]).bytes ((o - 0x40) % 16)
    else if o < 0x240 then wordAt (m.outs[Fin.ofNat 16 ((o - 0x140) / 16)]).bytes ((o - 0x140) % 16)
    else if o < 0x280 then s.pendWord i ((o - 0x240) / 4)
    else if o < 0x780 then wordAt (padTo 80 (m.notes[Fin.ofNat 16 ((o - 0x280) / 80)])) ((o - 0x280) % 80)
    else 0

/-- Word `o` of the device information page, as a core reads it for the slot it runs (Table 10-4). -/
def State.infoRead (c : Fin 8) (i : Fin 128) (o : Nat) (s : State) : Word :=
  let k := s.tenants.slots[i]
  let x := s.tenants.cores[c]
  match o with
  | 0x10 => k.tenantId.extractLsb' 0 32
  | 0x14 => k.tenantId.extractLsb' 32 32
  | 0x18 => packWord [((s.store.slotEpoch[i]).toNat, 16), (k.role.toNat, 8), (i.val, 0)]
  | 0x1C => k.version
  | 0x80 => s.carrier.setWidth 32
  | 0x84 => s.guard.rtc.extractLsb' 0 32
  | 0x88 => x.rtcHi
  | 0x8C => BitVec.ofNat 32 s.mint.state.code
  | 0x90 => packWord [(b2n s.guard.tampered, 16), (s.lc.state.code, 0)]
  | 0x94 => packWord [(k.stopCount.toNat, 16), (k.stopCause.toNat, 0)]
  | 0x98 => k.stopEpc
  | 0x9C => k.stopTval
  | 0xA0 => k.splits
  | 0xA4 => x.carrierHi
  | _ =>
    if o < 0x10 then wordAt (padTo 16 s.lc.unitId) o
    else if 0x20 ≤ o ∧ o < 0x40 then BitVec.ofNat 32 (k.run.eight.getD ((o - 0x20) / 4) 0)
    else if 0x40 ≤ o ∧ o < 0x80 then k.run.ports[Fin.ofNat 16 ((o - 0x40) / 4)]
    else 0

/-- Word `o` of a core's MPU (Table 10-8). -/
def Mpu.readWord (o : Nat) (m : Mpu) : Word :=
  match o with
  | 0x00 => BitVec.ofNat 32 (b2n m.en)
  | 0x04 => m.faults ++ m.ignored
  | 0x08 => m.faultAddr
  | 0x0C => m.faultInfo
  | _ =>
    if 0x100 ≤ o ∧ o < 0x180 then
      if o % 8 = 0 then m.rbase[Fin.ofNat 16 ((o - 0x100) / 8)] else m.rlim[Fin.ofNat 16 ((o - 0x100) / 8)]
    else 0

/-- A completion flag register (Tables 11-11, 12-10). -/
def Flag.doneWord (f : Flag) : Word := packWord [(f.rep.toNat, 1), (b2n f.set, 0)]

/-- Word `o` of a KCT access page (Table 11-6). -/
def State.kcRead (i : Fin 128) (o : Nat) (s : State) : Word :=
  let p := s.kct.pages[i]
  match o with
  | 0x00 => p.op.setWidth 32
  | 0x04 => p.handle
  | 0x08 => p.arg
  | 0x0C => packWord [(b2n p.busy, 31), (p.ignored.toNat, 16), (p.status.toNat, 0)]
  | 0x10 => p.evt.doneWord
  | 0x14 => p.out0
  | 0x18 => p.out1
  | 0x1C => p.out2
  | 0x20 => packWord [((s.tenants.slots[i]).run.kct, 16), (s.kctUsed i, 0)]
  | 0x24 => packWord [(p.misses.toNat, 16), (s.lines i, 0)]
  | _ => if 0x40 ≤ o ∧ o < 0xC0 then wordAt (padTo 128 p.buf) (o - 0x40) else 0

/-- KTYPE of CP_KSTAT (Table 12-6). -/
def Entry.ktype (e : Entry) : Nat :=
  if e.cls = 1 then (if e.key.length = 16 then 1 else if e.key.length = 24 then 2 else 3)
  else if e.key.length = 16 then 4 else 5

/-- Word `o` of a cipher page (Table 12-1). -/
def CipherPage.readWord (o : Nat) (p : CipherPage) : Word :=
  match o with
  | 0x00 => p.op.setWidth 32
  | 0x04 => p.mode
  | 0x08 => p.key
  | 0x0C => match p.loaded with
    | none => 0
    | some (_, e) => packWord [(1, 31), (b2n (e.may 4 || e.may 5), 30), (e.mincm.toNat, 28), (e.ktype, 24), (e.kcv.toNat, 0)]
  | 0x10 => p.src
  | 0x14 => p.dst
  | 0x18 => p.len.setWidth 32
  | 0x1C => p.aad
  | 0x20 => p.aadlen.setWidth 32
  | 0x24 => packWord [(b2n p.busy, 31), (b2n p.msg.isSome, 30), (p.frange.toNat, 28), (p.level.toNat, 24), (p.ignored.toNat, 16),
      (p.status.toNat, 0)]
  | 0x28 => p.evt.doneWord
  | 0x2C => p.fault
  | 0x30 | 0x34 | 0x38 | 0x3C => wordAt (padTo 16 p.iv) (o - 0x30)
  | 0x40 | 0x44 | 0x48 | 0x4C => wordAt (padTo 16 p.tag) (o - 0x40)
  | 0x50 => p.prog
  | _ => 0

/-- Word `o` of a job page (Table 13-1). -/
def JobPage.readWord (o : Nat) (p : JobPage) : Word :=
  match o with
  | 0x000 => p.cmd
  | 0x004 => p.key
  | 0x008 => p.arg
  | 0x00C => p.src
  | 0x010 => p.srclen.setWidth 32
  | 0x014 => p.dst
  | 0x018 => p.dstlen.setWidth 32
  | 0x01C => packWord [(b2n p.busy, 31), (p.frange.toNat, 28), (p.ignored.toNat, 16), (p.status.toNat, 0)]
  | 0x020 => p.evt.doneWord
  | 0x024 => p.fault
  | 0x028 => p.outlen.setWidth 32
  | 0x100 => p.hcmd
  | 0x104 => p.hkey
  | 0x108 => p.hsrc
  | 0x10C => p.hlen.setWidth 32
  | 0x110 => packWord [(b2n p.hbusy, 31), (b2n p.ctx.isSome, 30), (p.hfrange.toNat, 28), (p.hignored.toNat, 16), (p.hstatus.toNat, 0)]
  | 0x114 => p.hevt.doneWord
  | 0x118 => p.hfault
  | _ => if 0x140 ≤ o ∧ o < 0x180 then wordAt (padTo 64 p.hout) (o - 0x140) else 0

/-- Word `o` of a DRBG page (Table 14-6). -/
def State.dpRead (i : Fin 128) (n : Fin 4) (o : Nat) (s : State) : Word :=
  let p := (s.mint.pages[i])[n]
  let d : Drbg := match s.pageInst i n with | some j => s.mint.insts[j] | none => {}
  match o with
  | 0x00 => p.cmd
  | 0x04 => p.dst
  | 0x08 => p.len.setWidth 32
  | 0x0C => packWord [(b2n p.busy, 31), (b2n p.waiting, 30), (b2n d.inst, 29), (b2n d.reseedReq, 28), (b2n p.split, 27),
      (p.ignored.toNat, 16), (p.status.toNat, 0)]
  | 0x10 => p.evt.doneWord
  | 0x14 => p.fault
  | 0x18 => BitVec.ofNat 32 (min 0xFFFFFFFF d.uses)
  | 0x1C => if d.inst then BitVec.ofNat 32 (min 0xFFFFFFFF (s.drbgAge d)) else 0
  | 0x20 => p.ainlen.setWidth 32
  | _ =>
    if 0x40 ≤ o ∧ o < 0x60 then wordAt (padTo 32 p.ain) (o - 0x40)
    else if 0x60 ≤ o ∧ o < 0x80 then wordAt (padTo 32 p.out) (o - 0x60)
    else 0

/-- Mint's own registers (Table 14-13); those of the factory source read 0 outside FACTORY_TEST (R340). MINT_RAW_LO
is the word that MINT_RAW_READ shows. -/
def State.mintRead (o : Nat) (s : State) : Word :=
  match o with
  | 0x00 => s.mint.hlth
  | 0x04 => if s.lc.state = .factoryTest then s.mint.testSrc else 0
  | 0x0C => if s.lc.state = .factoryTest then s.mint.rawHi else 0
  | _ => 0

/-- A meter port's registers (Tables 17-6 to 17-9). -/
def Meter.readWord (o : Nat) (m : Meter) : Word :=
  match o with
  | 0x0 => packWord [(m.cfg.rate.toNat, 16), (m.cfg.filt.toNat, 8), (m.cfg.opt.toNat, 4), (m.cfg.mode.toNat, 0)]
  | 0x4 => packWord [(b2n (decide (16 ≤ m.tx.length)), 27), (m.rx.length, 20), (m.ovr.rep.toNat, 16), (m.ferr.rep.toNat, 12),
      (m.qerr.rep.toNat, 8), (m.gate.rep.toNat, 4), (b2n m.ovr.set, 3), (b2n m.ferr.set, 2), (b2n m.qerr.set, 1), (b2n m.gate.set, 0)]
  | 0x8 =>
    if m.cfg.mode = 3 then (match m.rx with | [] => 0 | b :: _ => packWord [(1, 8), (b.toNat, 0)])
    else if m.cfg.mode = 4 then m.gateCount
    else 0
  | _ => 0

/-- The battery domain's registers (Tables 18-6 to 18-7a). -/
def State.batRead (o : Nat) (s : State) : Word :=
  match o with
  | 0x0 => s.batStat
  | 0x4 => s.batLog
  | 0x8 => s.guard.omark.setWidth 32
  | _ => 0

/-- The value that a read of any register returns. -/
def State.regRead (r : RegAddr) (s : State) : Word :=
  match r with
  | .hrb o => s.hrbRead o.toNat
  | .port p o => s.portRead p o.toNat
  | .portPart p o half => s.portPartRead p o.toNat half
  | .mbx i o => s.mbxRead i o.toNat
  | .devInfo c o => match (s.tenants.cores[c]).slot with | some i => s.infoRead c i o.toNat | none => 0
  | .mpu c o => (s.tenants.cores[c]).mpu.readWord o.toNat
  | .kc i o => s.kcRead i o.toNat
  | .cp i n o => ((s.cipher.pages[i])[n]).readWord o.toNat
  | .pk i o => (s.pke.pages[i]).readWord o.toNat
  | .dp i n o => s.dpRead i n o.toNat
  | .mint o => s.mintRead o.toNat
  | .meter n o => (s.bay.meters[n]).readWord o.toNat
  | .bat o => s.batRead o.toNat

/-! ### Paths: who reaches a register, and when -/

/-- The byte offset of a register; for a part of a word, a number that is a multiple of 4 where the access is aligned and not to
one of the four registers at 0x000 to 0x00F (R3, R80). -/
def RegAddr.off : RegAddr → Nat
  | .hrb o => o.toNat
  | .port _ o => o.toNat
  | .portPart _ o half => if o.toNat < 0x10 ∨ (half ∧ o.toNat % 2 = 1) then 1 else 0
  | .mbx _ o => o.toNat
  | .devInfo _ o => o.toNat
  | .mpu _ o => o.toNat
  | .kc _ o => o.toNat
  | .cp _ _ o => o.toNat
  | .pk _ o => o.toNat
  | .dp _ _ o => o.toNat
  | .mint o => o.toNat
  | .meter _ o => o.toNat
  | .bat o => o.toNat

/-- The register's path is open, and the access is aligned (R3). -/
def State.reaches (r : RegAddr) (s : State) : Bool :=
  r.off % 4 == 0 && (match r with
    | .hrb _ => s.released
    | .port p _ => s.ownerCalls p
    | .portPart p _ _ => s.ownerCalls p
    | .mbx i _ => s.calls i
    | .devInfo c _ => match (s.tenants.cores[c]).slot with | some i => s.calls i | none => false
    | .mpu _ _ => s.live
    | .kc i _ => s.calls i
    | .cp i n _ => s.calls i && s.unitPage i (0x40000000 + 0x1000 * n.val)
    | .pk i _ => s.calls i
    | .dp i n _ => s.calls i && s.unitPage i (0x41000000 + 0x1000 * n.val)
    | .mint _ => s.live
    | .meter _ _ => s.bay.running
    | .bat _ => s.live && s.guard.powered)

/-! ### What a read clears or latches on the other pages -/

/-- REPEAT of every flag of SPnnn_EVT is cleared. -/
def Port.readEvt (p : Port) : Port :=
  { p with evWake := p.evWake.read, evLate := p.evLate.read, evResend := p.evResend.read, evFault := p.evFault.read
           evTrained := p.evTrained.read, evHead := p.evHead.read }

/-- A read of BAY_MPnn_STAT or of BAY_MPnn_DATA. -/
def Meter.afterRead (o : Nat) (m : Meter) : Meter :=
  match o with
  | 0x4 => { m with ovr := m.ovr.read, ferr := m.ferr.read, qerr := m.qerr.read, gate := m.gate.read }
  | 0x8 => if m.cfg.mode = 3 then { m with rx := m.rx.tail } else if m.cfg.mode = 4 then { m with gateCount := 0 } else m
  | _ => m

/-- What a read of any register clears or latches (R6, R7, R187, R251). -/
def State.afterRead (r : RegAddr) (s : State) : State :=
  match r with
  | .hrb o => s.hrbAfterRead o.toNat
  | .port p o => if o = 0x08 then s.updPort p Port.readEvt else s
  | .portPart _ _ _ | .mbx _ _ | .mint _ | .bat _ => s
  | .devInfo c o =>
    if o = 0x80 then s.updCore c fun x => { x with carrierHi := s.carrier.extractLsb' 32 32 }
    else if o = 0x84 then s.updCore c fun x => { x with rtcHi := s.rtcHigh }
    else s
  | .mpu c o => if o = 0x04 then s.updCore c fun x => { x with mpu := { x.mpu with faults := 0, ignored := 0 } } else s
  | .kc i o =>
    if o = 0x0C then s.updKc i fun p => { p with ignored := 0 }
    else if o = 0x10 then s.updKc i fun p => { p with evt := p.evt.read }
    else if o = 0x24 then s.updKc i fun p => { p with misses := 0 }
    else s
  | .cp i n o =>
    if o = 0x24 then s.updCp i n fun p => { p with ignored := 0 }
    else if o = 0x28 then s.updCp i n fun p => { p with evt := p.evt.read }
    else s
  | .pk i o =>
    if o = 0x01C then s.updPk i fun p => { p with ignored := 0 }
    else if o = 0x020 then s.updPk i fun p => { p with evt := p.evt.read }
    else if o = 0x110 then s.updPk i fun p => { p with hignored := 0 }
    else if o = 0x114 then s.updPk i fun p => { p with hevt := p.hevt.read }
    else s
  | .dp i n o =>
    if o = 0x0C then s.updDp i n fun p => { p with ignored := 0 }
    else if o = 0x10 then s.updDp i n fun p => { p with evt := p.evt.read }
    else s
  | .meter n o => s.updMeter n (Meter.afterRead o.toNat)

def execClearingRead (r : RegAddr) (s : State) : Res := .next <| if s.reaches r then s.afterRead r else s

def execRtcLoRead (s : State) : Res := .next <| if s.released then s.latchRtc else s

/-- A core's read of CARRIER for the slot that it runs (R251). -/
def execCarrierRead (core : Fin 8) (s : State) : Res :=
  .next <| if s.reaches (.devInfo core 0x080) then s.updCore core fun x => { x with carrierHi := s.carrier.extractLsb' 32 32 } else s

/-! ### W1C (R6) -/

/-- W1C on SPnnn_EVT (Table 02-18). -/
def Port.clearEvt (v sim : Word) (p : Port) : Port :=
  { p with evWake := p.evWake.clear (v.getLsbD 0) (sim.getLsbD 0), evLate := p.evLate.clear (v.getLsbD 1) (sim.getLsbD 1)
           evResend := p.evResend.clear (v.getLsbD 2) (sim.getLsbD 2), evFault := p.evFault.clear (v.getLsbD 3) (sim.getLsbD 3)
           evTrained := p.evTrained.clear (v.getLsbD 4) (sim.getLsbD 4), evHead := p.evHead.clear (v.getLsbD 5) (sim.getLsbD 5) }

/-- W1C on BAY_MPnn_STAT (Table 17-7). -/
def Meter.clearStat (v sim : Word) (m : Meter) : Meter :=
  { m with gate := m.gate.clear (v.getLsbD 0) (sim.getLsbD 0), qerr := m.qerr.clear (v.getLsbD 1) (sim.getLsbD 1)
           ferr := m.ferr.clear (v.getLsbD 2) (sim.getLsbD 2), ovr := m.ovr.clear (v.getLsbD 3) (sim.getLsbD 3) }

/-- A write of 1s to the W1C flags of any register, with the hardware sets of the same cycle. -/
def State.w1c (r : RegAddr) (v sim : Word) (s : State) : State :=
  let done (f : Flag) : Flag := f.clear (v.getLsbD 0) (sim.getLsbD 0)
  match r with
  | .hrb o => s.hrbClear o.toNat v sim
  | .port p o => if o = 0x08 then s.updPort p (Port.clearEvt v sim) else s
  | .kc i o => if o = 0x10 then s.updKc i fun p => { p with evt := done p.evt } else s
  | .cp i n o => if o = 0x28 then s.updCp i n fun p => { p with evt := done p.evt } else s
  | .pk i o =>
    if o = 0x020 then s.updPk i fun p => { p with evt := done p.evt }
    else if o = 0x114 then s.updPk i fun p => { p with hevt := done p.hevt }
    else s
  | .dp i n o => if o = 0x10 then s.updDp i n fun p => { p with evt := done p.evt } else s
  | .meter n o => if o = 0x4 then s.updMeter n (Meter.clearStat v sim) else s
  | .portPart _ _ _ | .mbx _ _ | .devInfo _ _ | .mpu _ _ | .mint _ | .bat _ => s

def execW1cClear (r : RegAddr) (v : Word) (simultaneous : Word) (s : State) : Res :=
  .next <| if s.reaches r then s.w1c r v simultaneous else s

def execHrbIenWrite (bank : Fin 3) (v : Word) (s : State) : Res :=
  .next <| if s.released then s.hrbWrite (0x084 + 8 * bank.val) v else s

/-! ### Writes of the other pages (R5) -/

/-- The state that a meaning answers. -/
def State.following (r : Res) (s : State) : State :=
  match r with
  | .next t => t
  | _ => s

/-- A tenant's store of a word to its port page (R80, R83). -/
def Page.storeWord (o : Nat) (v : Word) (g : Page) : Page :=
  match o with
  | 0x10 => g.writeCmd v
  | 0x14 => if g.busy then g.discard else { g with cmdArg := v }
  | 0x24 => g.writeEvqRd (v.setWidth 16)
  | 0x28 => if v = 0 then { g with evqLost := 0 } else g
  | 0x30 => if v = 0 then { g with fence := 0 } else g
  | _ =>
    if o < 0x40 then g.discard
    else if o < 0x140 then
      let n := Fin.ofNat 16 ((o - 0x40) / 16)
      let old := padTo 16 g.ring[n]
      { g with ring := g.ring.set n (old.take (o % 16) ++ leN 4 v.toNat ++ old.drop (o % 16 + 4)) }
    else if o < 0x1C0 ∨ g.txHeld then g.discard
    else { g with mem := Memory.writeN g.mem o (leN 4 v.toNat) }

/-- A store of one or two bytes to the ring, the card record or the buffer areas; one to the control block is
discarded and counted. -/
def Page.storePart (o : Nat) (b : Bytes) (g : Page) : Page :=
  if o < 0x40 then g.discard
  else if o < 0x140 then
    let n := Fin.ofNat 16 ((o - 0x40) / 16)
    let old := padTo 16 g.ring[n]
    { g with ring := g.ring.set n (old.take (o % 16) ++ b ++ old.drop (o % 16 + b.length)) }
  else if o < 0x1C0 ∨ g.txHeld then g.discard
  else { g with mem := Memory.writeN g.mem o b }

/-- A tenant's write of its port page. -/
def State.portWrite (p : Fin 512) (o : Nat) (v : Word) (s : State) : State :=
  s.updPort p fun x =>
    if o = 0 then x.writeCtrl false v
    else if o = 8 then x.clearEvt v 0
    else if o < 0x10 then x
    else x.updPage (Page.storeWord o v)

/-- A tenant's write of its mailbox page (Table 10-5). -/
def State.mbxWrite (i : Fin 128) (o : Nat) (v : Word) (s : State) : State :=
  let upd (f : Mailbox → Mailbox) : State := s.updSlot i fun k => { k with mbox := f k.mbox }
  match o with
  | 0x00 => upd fun m => { m with ringBase := v }
  | 0x04 => upd fun m => { m with ringSize := v }
  | 0x0C => s.following (execMbxInRdWrite i (v.setWidth 16) s)
  | 0x10 => s.following (execMbxOutWrWrite i (v.setWidth 16) s)
  | 0x1C => if v = 0 then upd fun m => { m with errWrites := 0, errDrops := 0 } else s
  | _ =>
    if 0x140 ≤ o ∧ o < 0x240 then
      let n := Fin.ofNat 16 ((o - 0x140) / 16)
      let j := (o - 0x140) % 16
      upd fun m =>
        let b := (m.outs[n]).bytes
        { m with outs := m.outs.set n (OutEntry.ofBytes (b.take j ++ leN 4 v.toNat ++ b.drop (j + 4))) }
    else s

/-- A write of the MPU in machine mode (R260). -/
def State.mpuWrite (c : Fin 8) (o : Nat) (v : Word) (s : State) : State :=
  if o = 0 then s.updCore c fun x => { x with mpu := { x.mpu with en := v.getLsbD 0 } }
  else if 0x100 ≤ o ∧ o < 0x180 then s.following (execMpuRegionWrite c (Fin.ofNat 16 ((o - 0x100) / 8)) (o % 8 == 4) v s)
  else s

/-- Bytes `j` to `j + 3` of a byte register bank. -/
def putWord (b : Bytes) (j : Nat) (v : Word) : Bytes := b.take j ++ leN 4 v.toNat ++ b.drop (j + 4)

/-- A write of a KCT access page (R285, R286). -/
def State.kcWrite (i : Fin 128) (o : Nat) (v : Word) (s : State) : State :=
  let p := s.kct.pages[i]
  let op : Byte := v.setWidth 8
  let free (f : KcPage → KcPage) : State := s.updKc i fun p => if p.busy then { p with ignored := sat8 p.ignored } else f p
  match o with
  | 0x00 =>
    if !v.getLsbD 15 ∨ p.busy then free fun p => { p with op }
    else if 1 ≤ op ∧ op ≤ 0x0C then s.kctIssue i op
    else (s.updKc i fun p => { p with op }).kctEnd i 0x0106 [] none
  | 0x04 => free fun p => { p with handle := v }
  | 0x08 => free fun p => { p with arg := v }
  | 0x10 => s.w1c (.kc i 0x10) v 0
  | _ => if 0x40 ≤ o ∧ o < 0xC0 then free fun p => { p with buf := putWord (padTo 128 p.buf) (o - 0x40) v } else s

/-- A write of a cipher page (R294, R295). -/
def State.cpWrite (i : Fin 128) (n : Fin 32) (o : Nat) (v : Word) (s : State) : State :=
  let p := (s.cipher.pages[i])[n]
  let op : Byte := v.setWidth 8
  let free (f : CipherPage → CipherPage) : State := s.updCp i n fun p => if p.busy then { p with ignored := sat8 p.ignored } else f p
  let kept (r : Res) : State := (s.following r).updCp i n fun p => { p with op }
  match o with
  | 0x00 =>
    if v.getLsbD 15 && op == 0x0F then (if p.busy then kept (execCipherAbort i n s) else s.following (execCipherAbort i n s))
    else if !v.getLsbD 15 ∨ p.busy then free fun p => { p with op }
    else if op = 1 then kept (execLoadKey i n s)
    else if op = 2 then kept (execCipherRun i n s)
    else if op = 3 then kept (execCipherClear i n s)
    else (s.updCp i n fun p => { p with op }).cipherEnd i n 0x0106 id
  | 0x04 => free fun p => { p with mode := v &&& 0x01FF33EF }
  | 0x08 => free fun p => { p with key := v }
  | 0x10 => free fun p => { p with src := v }
  | 0x14 => free fun p => { p with dst := v }
  | 0x18 => free fun p => { p with len := v.setWidth 22 }
  | 0x1C => free fun p => { p with aad := v }
  | 0x20 => free fun p => { p with aadlen := v.setWidth 22 }
  | 0x28 => s.w1c (.cp i n 0x28) v 0
  | 0x30 | 0x34 | 0x38 | 0x3C => free fun p => { p with iv := putWord (padTo 16 p.iv) (o - 0x30) v }
  | 0x40 | 0x44 | 0x48 | 0x4C => free fun p => { p with tag := putWord (padTo 16 p.tag) (o - 0x40) v }
  | _ => s

/-- A store of PK_CMD. -/
def State.pkCmd (i : Fin 128) (v : Word) (s : State) : State :=
  let p := s.pke.pages[i]
  let op := v.toNat % 256
  if v.getLsbD 15 && op == 0x0F then
    let t := s.following (execPkeAbort i s)
    if p.busy then t.updPk i fun p => { p with cmd := v &&& 0x30FF } else t
  else if p.busy then s.updPk i fun p => { p with ignored := sat8 p.ignored }
  else if !v.getLsbD 15 then s.updPk i fun p => { p with cmd := v &&& 0x30FF }
  else if 1 ≤ op ∧ op ≤ 0x0A then s.pkeIssue i op (v.extractLsb' 12 2)
  else (s.updPk i fun p => { p with cmd := v &&& 0x30FF }).pkeEnd i 0x0106 id

/-- A store of PK_HCMD. The fields of the word that the operation does not use keep the value written (R5). -/
def State.hashCmd (i : Fin 128) (v : Word) (s : State) : State :=
  let p := s.pke.pages[i]
  let op := v.toNat % 256
  let kept (r : Res) : State := (s.following r).updPk i fun p => { p with hcmd := v &&& 0x7F4FFF }
  if v.getLsbD 15 && op == 0x0F then (if p.hbusy then kept (execHashAbort i s) else s.following (execHashAbort i s))
  else if p.hbusy then s.updPk i fun p => { p with hignored := sat8 p.hignored }
  else if !v.getLsbD 15 then s.updPk i fun p => { p with hcmd := v &&& 0x7F4FFF }
  else if op = 1 then kept (execHashInit i (v.extractLsb' 8 4) s)
  else if op = 2 then kept (execHmacInit i (v.getLsbD 14) s)
  else if op = 3 then kept (execHashUpdate i s)
  else if op = 4 then kept (execHashFinal i (v.extractLsb' 16 7) s)
  else (s.updPk i fun p => { p with hcmd := v &&& 0x7F4FFF }).hashEnd i 0x0106 id

/-- A write of a job page (R309, R310). -/
def State.pkWrite (i : Fin 128) (o : Nat) (v : Word) (s : State) : State :=
  let a (f : JobPage → JobPage) : State := s.updPk i fun p => if p.busy then { p with ignored := sat8 p.ignored } else f p
  let h (f : JobPage → JobPage) : State := s.updPk i fun p => if p.hbusy then { p with hignored := sat8 p.hignored } else f p
  match o with
  | 0x000 => s.pkCmd i v
  | 0x004 => a fun p => { p with key := v }
  | 0x008 => a fun p => { p with arg := v &&& 0x80FFFFFF }
  | 0x00C => a fun p => { p with src := v }
  | 0x010 => a fun p => { p with srclen := v.setWidth 22 }
  | 0x014 => a fun p => { p with dst := v }
  | 0x018 => a fun p => { p with dstlen := v.setWidth 22 }
  | 0x020 => if (s.pke.pages[i]).busy then a id else s.w1c (.pk i 0x020) v 0
  | 0x01C | 0x024 | 0x028 => a id
  | 0x110 | 0x118 => h id
  | 0x100 => s.hashCmd i v
  | 0x104 => h fun p => { p with hkey := v }
  | 0x108 => h fun p => { p with hsrc := v }
  | 0x10C => h fun p => { p with hlen := v.setWidth 22 }
  | 0x114 => if (s.pke.pages[i]).hbusy then h id else s.w1c (.pk i 0x114) v 0
  | _ => if 0x140 ≤ o ∧ o < 0x180 then h fun p => { p with hout := putWord (padTo 64 p.hout) (o - 0x140) v } else s

/-- A write of a DRBG page (R338, R339): while BUSY, a store to any of its registers is discarded and counted, and one to a
reserved offset is only ignored (R4). -/
def State.dpWrite (i : Fin 128) (n : Fin 4) (o : Nat) (v : Word) (s : State) : State :=
  let p := (s.mint.pages[i])[n]
  let op := v.toNat % 256
  let free (f : DpPage → DpPage) : State := s.updDp i n fun p => if p.busy then { p with ignored := sat8 p.ignored } else f p
  let kept (r : Res) : State := (s.following r).updDp i n fun p => { p with cmd := v &&& 0x70FF }
  match o with
  | 0x00 =>
    if v.getLsbD 15 && op == 0x0F then (if p.busy then kept (execDrbgAbort i n s) else s.following (execDrbgAbort i n s))
    else if !v.getLsbD 15 ∨ p.busy then free fun p => { p with cmd := v &&& 0x70FF }
    else if op = 1 then kept (execDrbgGenerate i n (v.getLsbD 14) (v.getLsbD 13) (v.getLsbD 12) s)
    else if op = 2 then kept (execDrbgReseed i n (v.getLsbD 14) s)
    else (s.updDp i n fun p => { p with cmd := v &&& 0x70FF }).drbgEnd i n 0x0106 id
  | 0x04 => free fun p => { p with dst := v }
  | 0x08 => free fun p => { p with len := v.setWidth 17 }
  | 0x10 => if p.busy then free id else s.w1c (.dp i n 0x10) v 0
  | 0x20 => free fun p => { p with ainlen := v.setWidth 6 }
  | 0x0C | 0x14 | 0x18 | 0x1C => free id
  | _ =>
    if 0x40 ≤ o ∧ o < 0x60 then free fun p => { p with ain := putWord (padTo 32 p.ain) (o - 0x40) v }
    else if 0x60 ≤ o ∧ o < 0x80 then free id
    else s

/-- The supervisor's write of a battery-domain register (R448, R449, R454): CLEAR acts while the BBK is VALID. -/
def State.batWrite (o : Nat) (v : Word) (s : State) : State :=
  s.updGuard fun g =>
    match o with
    | 0x0 => { g with arm := v.getLsbD 3 }
    | 0x4 =>
      let m := (v.extractLsb' 8 5).toNat
      let g := if m ≤ g.log.length then { g with mark := BitVec.ofNat 5 m } else g
      if v.getLsbD 15 ∧ g.bbk = .valid then g.clearLog else g
    | 0x8 => { g with omark := v.setWidth 16 }
    | _ => g

/-- The effect of a write of any register (R5): RW fields take the value, W1C flags clear where it holds 1, RO and
reserved bits ignore it. -/
def State.regWrite (r : RegAddr) (v : Word) (s : State) : State :=
  match r with
  | .hrb o => s.hrbWrite o.toNat v
  | .port p o => s.portWrite p o.toNat v
  | .portPart p o half => s.updPort p fun x => if o.toNat < 0x10 then x else x.updPage (Page.storePart o.toNat (leN (if half then 2 else 1) v.toNat))
  | .mbx i o => s.mbxWrite i o.toNat v
  | .devInfo _ _ => s
  | .mpu c o => s.mpuWrite c o.toNat v
  | .kc i o => s.kcWrite i o.toNat v
  | .cp i n o => s.cpWrite i n o.toNat v
  | .pk i o => s.pkWrite i o.toNat v
  | .dp i n o => s.dpWrite i n o.toNat v
  | .mint o => if o = 4 then s.following (if v.getLsbD 0 then execTestSrcEnable v s else execTestSrcDisable v s) else s
  | .meter n o => if o = 0x4 then s.updMeter n (Meter.clearStat v 0) else if o = 0xC then s.following (execMpTxWrite n (v.setWidth 8) s) else s
  | .bat o => s.batWrite o.toNat v

def execRegisterWrite (r : RegAddr) (v : Word) (s : State) : Res := .next <| if s.reaches r then s.regWrite r v else s

end Sys2Proof.Machine
end

