-- ==== Sys2Proof/Machine/Code.lean ====
section
/-! DEFINITION. The code that a tenant core runs in user mode: RV32IMC, its fetches, loads and stores through the MPU and the unit
access checker, its traps and its environment calls (R241, R242, R247, R249, R261, R262). What each instruction of the set does is
the RISC-V standard's, which R241 names (log 67). -/

namespace Sys2Proof.Machine

/-! ### Instructions -/

/-- An integer register. -/
abbrev RegNo := BitVec 5

/-- The instructions of RV32IM with the counters; a compressed one is the one that it stands for. -/
inductive Rv where
  | lui (rd : RegNo) (imm : Word)
  | auipc (rd : RegNo) (imm : Word)
  | jal (rd : RegNo) (off : Word)
  | jalr (rd rs1 : RegNo) (imm : Word)
  | branch (cond : Nat) (rs1 rs2 : RegNo) (off : Word)
  | load (kind : Nat) (rd rs1 : RegNo) (imm : Word)
  | store (kind : Nat) (rs2 rs1 : RegNo) (imm : Word)
  | opImm (fn : Nat) (alt : Bool) (rd rs1 : RegNo) (imm : Word)
  | op (fn : Nat) (alt : Bool) (rd rs1 rs2 : RegNo)
  | muldiv (fn : Nat) (rd rs1 rs2 : RegNo)
  | fence
  | ecall
  | ebreak
  | wfi
  | csr (rd : RegNo) (num : Nat)
  deriving DecidableEq, Repr

/-- Bits `lo` to `lo + n - 1`. -/
def bitsAt (w lo n : Nat) : Nat := w / 2 ^ lo % 2 ^ n
/-- An `n`-bit number with its sign. -/
def signed (n v : Nat) : Word := BitVec.ofInt 32 (if v < 2 ^ (n - 1) then (v : Int) else (v : Int) - 2 ^ n)
/-- A register number. -/
def regNo (n : Nat) : RegNo := BitVec.ofNat 5 n

/-- The I immediate. -/
def immI (w : Nat) : Word := signed 12 (bitsAt w 20 12)
/-- The S immediate. -/
def immS (w : Nat) : Word := signed 12 (bitsAt w 25 7 * 32 + bitsAt w 7 5)
/-- The B immediate. -/
def immB (w : Nat) : Word := signed 13 (bitsAt w 31 1 * 4096 + bitsAt w 7 1 * 2048 + bitsAt w 25 6 * 32 + bitsAt w 8 4 * 2)
/-- The U immediate. -/
def immU (w : Nat) : Word := BitVec.ofNat 32 (bitsAt w 12 20 * 4096)
/-- The J immediate. -/
def immJ (w : Nat) : Word := signed 21 (bitsAt w 31 1 * 1048576 + bitsAt w 12 8 * 4096 + bitsAt w 20 1 * 2048 + bitsAt w 21 10 * 2)

/-- SYSTEM: the calls, and reads of the counters; user mode writes none of them. -/
def rvSystem (w : Nat) : Option Rv :=
  let fn := bitsAt w 12 3
  if fn = 0 then (if w = 0x73 then some .ecall else if w = 0x100073 then some .ebreak else if w = 0x10500073 then some .wfi else none)
  else
    let num := bitsAt w 20 12
    let reads := (fn = 2 ∨ fn = 3 ∨ fn = 6 ∨ fn = 7) ∧ bitsAt w 15 5 = 0
    if reads ∧ ((0xC00 ≤ num ∧ num ≤ 0xC02) ∨ (0xC80 ≤ num ∧ num ≤ 0xC82)) then some (.csr (regNo (bitsAt w 7 5)) num) else none

/-- A 32-bit instruction; none is an illegal one. -/
def rvDecode (w : Nat) : Option Rv :=
  let rd := regNo (bitsAt w 7 5)
  let a := regNo (bitsAt w 15 5)
  let b := regNo (bitsAt w 20 5)
  let fn := bitsAt w 12 3
  let hi := bitsAt w 25 7
  match w % 128 with
  | 0x37 => some (.lui rd (immU w))
  | 0x17 => some (.auipc rd (immU w))
  | 0x6F => some (.jal rd (immJ w))
  | 0x67 => if fn = 0 then some (.jalr rd a (immI w)) else none
  | 0x63 => if fn = 2 ∨ fn = 3 then none else some (.branch fn a b (immB w))
  | 0x03 => if fn = 3 ∨ 6 ≤ fn then none else some (.load fn rd a (immI w))
  | 0x23 => if 3 ≤ fn then none else some (.store fn b a (immS w))
  | 0x13 =>
    if fn = 1 then (if hi = 0 then some (.opImm 1 false rd a (BitVec.ofNat 32 (bitsAt w 20 5))) else none)
    else if fn = 5 then (if hi = 0 ∨ hi = 0x20 then some (.opImm 5 (hi == 0x20) rd a (BitVec.ofNat 32 (bitsAt w 20 5))) else none)
    else some (.opImm fn false rd a (immI w))
  | 0x33 =>
    if hi = 1 then some (.muldiv fn rd a b)
    else if hi = 0 then some (.op fn false rd a b)
    else if hi = 0x20 ∧ (fn = 0 ∨ fn = 5) then some (.op fn true rd a b)
    else none
  | 0x0F => if fn = 0 then some .fence else none
  | 0x73 => rvSystem w
  | _ => none

/-- Quadrant 0 of the compressed instructions. -/
def rvc0 (h : Nat) : Option Rv :=
  let near (lo : Nat) : RegNo := regNo (8 + bitsAt h lo 3)
  let word := BitVec.ofNat 32 (bitsAt h 5 1 * 64 + bitsAt h 10 3 * 8 + bitsAt h 6 1 * 4)
  match bitsAt h 13 3 with
  | 0 =>
    let imm := bitsAt h 7 4 * 64 + bitsAt h 11 2 * 16 + bitsAt h 5 1 * 8 + bitsAt h 6 1 * 4
    if imm = 0 then none else some (.opImm 0 false (near 2) 2 (BitVec.ofNat 32 imm))
  | 2 => some (.load 2 (near 2) (near 7) word)
  | 6 => some (.store 2 (near 2) (near 7) word)
  | _ => none

/-- The offset of C.J and C.JAL. -/
def rvcJump (h : Nat) : Word :=
  signed 12 (bitsAt h 12 1 * 2048 + bitsAt h 8 1 * 1024 + bitsAt h 9 2 * 256 + bitsAt h 6 1 * 128 + bitsAt h 7 1 * 64 + bitsAt h 2 1 * 32 +
    bitsAt h 11 1 * 16 + bitsAt h 3 3 * 2)

/-- The arithmetic of quadrant 1. -/
def rvcArith (h : Nat) (imm : Word) : Option Rv :=
  let r := regNo (8 + bitsAt h 7 3)
  let b := regNo (8 + bitsAt h 2 3)
  let far := bitsAt h 12 1 = 1
  match bitsAt h 10 2 with
  | 0 => if far then none else some (.opImm 5 false r r (BitVec.ofNat 32 (bitsAt h 2 5)))
  | 1 => if far then none else some (.opImm 5 true r r (BitVec.ofNat 32 (bitsAt h 2 5)))
  | 2 => some (.opImm 7 false r r imm)
  | _ =>
    if far then none
    else match bitsAt h 5 2 with
      | 0 => some (.op 0 true r r b)
      | 1 => some (.op 4 false r r b)
      | 2 => some (.op 6 false r r b)
      | _ => some (.op 7 false r r b)

/-- Quadrant 1. -/
def rvc1 (h : Nat) : Option Rv :=
  let rd := regNo (bitsAt h 7 5)
  let imm := signed 6 (bitsAt h 12 1 * 32 + bitsAt h 2 5)
  let off := signed 9 (bitsAt h 12 1 * 256 + bitsAt h 5 2 * 64 + bitsAt h 2 1 * 32 + bitsAt h 10 2 * 8 + bitsAt h 3 2 * 2)
  match bitsAt h 13 3 with
  | 0 => some (.opImm 0 false rd rd imm)
  | 1 => some (.jal 1 (rvcJump h))
  | 2 => some (.opImm 0 false rd 0 imm)
  | 3 =>
    if imm = 0 then none
    else if rd = 2 then
      some (.opImm 0 false 2 2 (signed 10 (bitsAt h 12 1 * 512 + bitsAt h 3 2 * 128 + bitsAt h 5 1 * 64 + bitsAt h 2 1 * 32 + bitsAt h 6 1 * 16)))
    else some (.lui rd (imm <<< 12))
  | 4 => rvcArith h imm
  | 5 => some (.jal 0 (rvcJump h))
  | 6 => some (.branch 0 (regNo (8 + bitsAt h 7 3)) 0 off)
  | _ => some (.branch 1 (regNo (8 + bitsAt h 7 3)) 0 off)

/-- Quadrant 2. -/
def rvc2 (h : Nat) : Option Rv :=
  let rd := regNo (bitsAt h 7 5)
  let b := regNo (bitsAt h 2 5)
  let far := bitsAt h 12 1 = 1
  match bitsAt h 13 3 with
  | 0 => if far then none else some (.opImm 1 false rd rd (BitVec.ofNat 32 (bitsAt h 2 5)))
  | 2 => if rd = 0 then none else some (.load 2 rd 2 (BitVec.ofNat 32 (bitsAt h 2 2 * 64 + bitsAt h 12 1 * 32 + bitsAt h 4 3 * 4)))
  | 4 =>
    if b ≠ 0 then some (.op 0 false rd (if far then rd else 0) b)
    else if rd = 0 then (if far then some .ebreak else none)
    else some (.jalr (if far then 1 else 0) rd 0)
  | 6 => some (.store 2 b 2 (BitVec.ofNat 32 (bitsAt h 7 2 * 64 + bitsAt h 9 4 * 4)))
  | _ => none

/-- A 16-bit instruction; those of floating point are illegal. -/
def rvcDecode (h : Nat) : Option Rv :=
  match h % 4 with
  | 0 => rvc0 h
  | 1 => rvc1 h
  | 2 => rvc2 h
  | _ => none

/-! ### Arithmetic -/

/-- The integer operations, by funct3; `alt` is subtraction or the arithmetic shift. -/
def rvAlu (fn : Nat) (alt : Bool) (x y : Word) : Word :=
  match fn with
  | 0 => if alt then x - y else x + y
  | 1 => x <<< (y.toNat % 32)
  | 2 => if x.slt y then 1 else 0
  | 3 => if x.ult y then 1 else 0
  | 4 => x ^^^ y
  | 5 => if alt then x.sshiftRight (y.toNat % 32) else x >>> (y.toNat % 32)
  | 6 => x ||| y
  | _ => x &&& y

/-- Multiplication and division; a division by zero gives all ones, its remainder the dividend. -/
def rvMuldiv (fn : Nat) (x y : Word) : Word :=
  match fn with
  | 0 => x * y
  | 1 => BitVec.ofInt 32 (x.toInt * y.toInt / 4294967296)
  | 2 => BitVec.ofInt 32 (x.toInt * (y.toNat : Int) / 4294967296)
  | 3 => BitVec.ofNat 32 (x.toNat * y.toNat / 4294967296)
  | 4 => if y = 0 then 0xFFFFFFFF else x.sdiv y
  | 5 => if y = 0 then 0xFFFFFFFF else x / y
  | 6 => if y = 0 then x else x.srem y
  | _ => if y = 0 then x else x % y

/-- A branch is taken. -/
def rvTaken (cond : Nat) (x y : Word) : Bool :=
  match cond with
  | 0 => x == y
  | 1 => x != y
  | 4 => x.slt y
  | 5 => !x.slt y
  | 6 => x.ult y
  | _ => !x.ult y

/-- Bytes that a load or store moves. -/
def rvSize (kind : Nat) : Nat := if kind % 4 = 0 then 1 else if kind % 4 = 1 then 2 else 4

/-- What a load puts in its register. -/
def rvExtend (kind : Nat) (v : Word) : Word :=
  match kind with
  | 0 => (v.setWidth 8).signExtend 32
  | 1 => (v.setWidth 16).signExtend 32
  | _ => v

/-! ### Registers and memory of a slot -/

/-- A register's value; x0 is 0. -/
def Slot.reg (r : RegNo) (k : Slot) : Word := if r.toNat = 0 then 0 else k.regs[r.toNat - 1]'(by have := r.isLt; omega)
/-- A register set; x0 keeps 0. -/
def Slot.setReg (r : RegNo) (v : Word) (k : Slot) : Slot :=
  if r.toNat = 0 then k else { k with regs := k.regs.set (r.toNat - 1) v (by have := r.isLt; omega) }

/-- A byte of the code window: the code, and 0x00 after it (R249). -/
def Slot.codeByte (a : Nat) (k : Slot) : Byte :=
  let m := k.image.getD []
  if a < fld m 20 4 then byteAt m (256 + a) else 0

/-- The register word, or the part of a port page, at an address of the unit pages, the mailbox page or the information page. -/
def pageReg (c : Fin 8) (i : Fin 128) (a size : Nat) : Option RegAddr :=
  let o : BitVec 12 := BitVec.ofNat 12 a
  match a / 0x1000000 with
  | 0x20 => some (.mbx i o)
  | 0x40 => if a % 0x1000 < 0x100 then some (.cp i (Fin.ofNat 32 (a / 0x1000)) (BitVec.ofNat 8 a)) else none
  | 0x41 => if a % 0x1000 < 0x100 then some (.dp i (Fin.ofNat 4 (a / 0x1000)) (BitVec.ofNat 8 a)) else none
  | 0x42 => some (if size = 4 then .port (Fin.ofNat 512 (a / 0x1000)) o else .portPart (Fin.ofNat 512 (a / 0x1000)) o (size == 2))
  | 0x43 => some (.kc i o)
  | 0x44 => some (.pk i o)
  | 0x80 => some (.devInfo c o)
  | _ => none

/-- What an access that the MPU and the checker allow reads, and the state after it. -/
def State.loadAt (c : Fin 8) (i : Fin 128) (a size : Nat) (s : State) : Word × State :=
  let k := s.tenants.slots[i]
  if a < 0x1000000 then (BitVec.ofNat 32 (leVal ((List.range size).map fun j => k.codeByte (a + j))), s)
  else if a < 0x20000000 then (BitVec.ofNat 32 (leVal (Memory.readN k.sram (a - 0x10000000) size)), s)
  else match pageReg c i a size with
    | some r => (s.regRead r, s.afterRead r)
    | none => (0, s)

/-- What such an access writes. -/
def State.storeAt (c : Fin 8) (i : Fin 128) (a size : Nat) (v : Word) (s : State) : State :=
  if a < 0x20000000 then s.updSlot i fun k => { k with sram := Memory.writeN k.sram (a - 0x10000000) (leN size v.toNat) }
  else if fencedStore .store a size then
    s.updPort (Fin.ofNat 512 (a / 0x1000)) fun x => { x with page := { x.page with fence := sat16 x.page.fence } }
  else match pageReg c i a size with
    | some r => s.regWrite r v
    | none => s

/-! ### One instruction -/

/-- The instruction at the program counter retires, and the slot goes on at `pc`. -/
def State.passes (i : Fin 128) (pc : Word) (s : State) : State := s.updSlot i fun k => { k with pc, instret := k.instret + 1 }
/-- It retires with a result. -/
def State.result (i : Fin 128) (rd : RegNo) (v pc : Word) (s : State) : State := (s.updSlot i (Slot.setReg rd v)).passes i pc
/-- It traps. -/
def State.traps (i : Fin 128) (t : TenantTrap) (s : State) : State := s.following (execTenantTrap i (s.tenants.slots[i]).pc t s)

/-- A counter: a slot's own cycles and instructions, and the carrier count (R241). -/
def State.counter (i : Fin 128) (num : Nat) (s : State) : Word :=
  let k := s.tenants.slots[i]
  let v : BitVec 64 := match num % 16 with | 0 => k.cycle | 1 => s.carrier | _ => k.instret
  if num < 0xC80 then v.setWidth 32 else v.extractLsb' 32 32

/-- An environment call: function in a7, arguments in a0 to a3 (R247, R363). The slot goes on behind the `ecall`. -/
def State.envCall (i : Fin 128) (s : State) : State :=
  let k := s.tenants.slots[i]
  let a (n : RegNo) : Word := k.reg n
  let t := s.updSlot i fun k => { k with pc := k.pc + 4 }
  match (a 17).toNat with
  | 0x01 => t.following (execWait i (a 10) (a 11) t)
  | 0x02 => t.following (execYield i t)
  | 0x03 => t.following (execRegionSet i (a 10) (a 11) (a 12) (a 13) t)
  | 0x10 => t.following (execRecPut i (a 10) (a 11) (a 12) t)
  | 0x11 => t.following (execRecGet i (a 10) (a 11) (a 12) t)
  | 0x12 => t.following (execRecDel i (a 10) t)
  | 0x13 => t.following (execStoreUse i t)
  | 0x14 => t.following (execValAdd i (a 10) (a 11) t)
  | 0x15 => t.following (execValGet i (a 10) t)
  | _ => t.traps i (.call (a 17))

/-- An instruction of `len` bytes carried out for the slot that core `c` runs. -/
def State.rv (c : Fin 8) (i : Fin 128) (v : Rv) (len : Nat) (s : State) : State :=
  let k := s.tenants.slots[i]
  let next := k.pc + BitVec.ofNat 32 len
  match v with
  | .lui rd imm => s.result i rd imm next
  | .auipc rd imm => s.result i rd (k.pc + imm) next
  | .jal rd off => s.result i rd next (k.pc + off)
  | .jalr rd a imm => s.result i rd next ((k.reg a + imm) &&& 0xFFFFFFFE)
  | .branch cond a b off => s.passes i (if rvTaken cond (k.reg a) (k.reg b) then k.pc + off else next)
  | .load kind rd a imm =>
    let at_ := k.reg a + imm
    match s.userFault c i .load at_.toNat (rvSize kind) with
    | some _ => s.traps i (.access .load at_ (Fin.ofNat 5 (rvSize kind)))
    | none =>
      let got := s.loadAt c i at_.toNat (rvSize kind)
      got.2.result i rd (rvExtend kind got.1) next
  | .store kind b a imm =>
    let at_ := k.reg a + imm
    match s.userFault c i .store at_.toNat (rvSize kind) with
    | some _ => s.traps i (.access .store at_ (Fin.ofNat 5 (rvSize kind)))
    | none => (s.passes i next).storeAt c i at_.toNat (rvSize kind) (k.reg b)
  | .opImm fn alt rd a imm => s.result i rd (rvAlu fn alt (k.reg a) imm) next
  | .op fn alt rd a b => s.result i rd (rvAlu fn alt (k.reg a) (k.reg b)) next
  | .muldiv fn rd a b => s.result i rd (rvMuldiv fn (k.reg a) (k.reg b)) next
  | .fence => s.passes i next
  | .wfi => s.passes i next
  | .csr rd num => s.result i rd (s.counter i num) next
  | .ebreak => s.traps i (.breakpoint (Config.breakTval k.pc))
  | .ecall => s.envCall i

/-- Bytes of the code window as a number. -/
def State.fetch (i : Fin 128) (n : Nat) (s : State) : Nat :=
  let k := s.tenants.slots[i]
  leVal ((List.range n).map fun j => k.codeByte (k.pc.toNat + j))

/-- The instruction at the slot's program counter: fetched, judged, decoded and carried out. -/
def State.codeStep (c : Fin 8) (i : Fin 128) (s : State) : State :=
  let pc := (s.tenants.slots[i]).pc
  match s.userFault c i .fetch pc.toNat 2 with
  | some _ => s.traps i (.access .fetch pc 2)
  | none =>
    let h := s.fetch i 2
    if h % 4 ≠ 3 then
      match rvcDecode h with
      | some v => s.rv c i v 2
      | none => s.traps i (.illegal (BitVec.ofNat 32 h))
    else match s.userFault c i .fetch pc.toNat 4 with
      | some _ => s.traps i (.access .fetch pc 4)
      | none => match rvDecode (s.fetch i 4) with
        | some v => s.rv c i v 4
        | none => s.traps i (.illegal (BitVec.ofNat 32 (s.fetch i 4)))

/-- Up to `n` instructions of slot `i` on core `c`, until it waits, yields to another slot or stops. -/
def State.runCode (c : Fin 8) (i : Fin 128) : Nat → State → State
  | 0, s => s
  | n + 1, s => if s.calls i && (s.tenants.cores[c]).slot == some i then State.runCode c i n (s.codeStep c i) else s

/-! ### Quanta (R243, R244) -/

/-- The quantum boundary of a core: the slot that it runs has carried out `n` instructions of its code since it was last charged, and
is charged for the `us` microseconds since then; the core chooses. With `n` = 0 its code is not followed, and the count of what it
retired is free (log 13). -/
def execQuantumEnd (core : Fin 8) (us n : Nat) (s : State) : Res :=
  .next <|
    if s.live then
      let s := match (s.tenants.cores[core]).slot with
        | some i =>
          let s := s.runCode core i n
          if (s.tenants.cores[core]).slot = some i then s.charge i us (n != 0) else s
        | none => s
      s.choose core (!(s.tenants.cores[core]).urgent)
    else s

end Sys2Proof.Machine
end

