-- ==== Sys2Proof/Machine/Macro.lean ====
section
/-! DEFINITION. The main store as its bytes: the keys that protect what lies in it, and the stored forms of entries and records
(R15, R16, R270, R274, R275, R348 to R350, R352 to R359, R367, R482). -/

namespace Sys2Proof.Machine

/-! ### The keys of what is stored (R15, R16) -/

/-- KDF(DUK, BBK, label): the key that the DUK and a BBK give, then the derivation with it. -/
def State.kdfBbk (bbk : BitVec 256) (label : String) (s : State) : Bytes :=
  kdfBytes (hmac256 s.duk (leN 32 bbk.toNat)) (ascii label) (padTo 16 s.lc.unitId)

/-- K_KCT: the key of the entries in the main store. -/
def State.kKct (s : State) : Bytes := s.kdfBbk s.store.sealBbk "KCT"
/-- K_REC: the key of a tenant's secret records. -/
def State.kRec (s : State) : Bytes := s.kdfBbk s.store.sealBbk "REC"
/-- K_IMG: the key of tenant images and of records that are not secret. -/
def State.kImg (s : State) : Bytes := s.dukKey "IMG"

/-! ### Stored forms -/

/-- The commit word (R345). -/
def commitWord : Word := 0xC3A55A3C

/-- The 64 bytes of an entry as stored (R270, R274): the attribute block, the secret block under K_KCT, 8 bytes of tag. -/
def State.storedEntry (k : KIdx) (e : Entry) (s : State) : Bytes :=
  let r := gcm false s.kKct (leN 2 k.val ++ [e.gen, 0] ++ leN 5 e.wcnt.toNat ++ ascii "KCT") e.attr (padTo 32 e.secret)
  e.attr ++ r.1 ++ r.2.take 8

/-- The body as stored (R353): a device's in clear, a tenant's with its tag, under K_REC where it is secret and else under K_IMG; an
EXT key's under the blob key of its entry, bound to INDEX and GEN (R272, log 75). -/
def State.storedBody (id : RecId) (c : Copy) (header : Bytes) (s : State) : Bytes :=
  if c.del then []
  else if id.owner = 0xFE then c.body
  else if id.cls = 16 then
    let e := s.entry (Fin.ofNat 32768 id.tag.toNat)
    gcmSeal (padTo 32 e.secret) (leN 8 c.nctr.toNat ++ [id.owner, id.cls.setWidth 8] ++ leN 2 id.tag.toNat) (header ++ [e.gen]) c.body
  else gcmSeal (if c.secret then s.kRec else s.kImg) (leN 8 c.nctr.toNat ++ [id.owner, id.cls.setWidth 8] ++ leN 2 id.tag.toNat) header c.body

/-- A version as the store holds it (R352, R353). A CRC that does not match and a commit word that is missing show as such. -/
def State.storedRecord (dual : Bool) (id : RecId) (c : Copy) (s : State) : Bytes :=
  let len := c.len id.owner
  let cls := id.cls.toNat + 32 * b2n dual + 64 * b2n c.secret + 128 * b2n c.del
  let header := [BitVec.ofNat 8 cls, id.owner] ++ leN 2 id.tag.toNat ++ leN 2 len ++ zeros 4 ++ leN 8 c.nctr.toNat
  let b := leN 6 c.seq.toNat ++ header ++ padTo ((len + 3) / 4 * 4) (s.storedBody id c header)
  let crc := (crc32c b).toNat
  b ++ leN 4 (if c.crc then crc else 0xFFFFFFFF - crc) ++ (if c.commit then leN 4 commitWord.toNat else zeros 4)

/-! ### Raw bytes (Table 15-2) -/

/-- Byte `j` of granule `g`: a free granule keeps what it held, which is free; in an assigned one nothing but its records is written. -/
def State.granuleByte (g j : Nat) (s : State) : Byte :=
  match s.store.granules[g]? with
  | none => 0
  | some x =>
    if x.owner = 0xFF then Config.randomByte s.free (4096 * g + j)
    else if x.kind = 1 then
      match s.store.journal.find? fun e => e.granule == g && decide (e.off ≤ j ∧ j < e.off + recSize (e.copy.len e.id.owner)) with
      | some e => byteAt (s.storedRecord false e.id e.copy) (j - e.off)
      | none => 0
    else
      let z := zSize x.kind
      match s.store.dual.find? fun p => p.granule == g && p.idx == j / (2 * z) with
      | none => 0
      | some p => match (if j % (2 * z) < z then p.a else p.b) with
        | none => 0
        | some c => byteAt (s.storedRecord true p.id c) (j % z)

/-- A journal group as the ring holds it (R352, R373). -/
def State.storedGroup (g : KctGroup) (s : State) : Bytes :=
  let body := leN 2 g.items.length ++ [0, 0] ++ g.items.flatMap fun (n, e) => leN 2 n ++ [0, 0] ++ s.storedEntry (Fin.ofNat 32768 n) e
  let b := leN 6 g.seq.toNat ++ [19, 0xFE, 0, 0] ++ leN 2 body.length ++ zeros 12 ++ body
  b ++ leN 4 (crc32c b).toNat ++ leN 4 commitWord.toNat

/-- A byte of the KCT journal. -/
def State.ringByte (j : Nat) (s : State) : Byte :=
  match s.kct.jnl.find? fun g => decide (g.off ≤ j ∧ j < g.off + groupSize g.items.length) with
  | some g => byteAt (s.storedGroup g) (j - g.off)
  | none => 0

/-- A byte of the event log: entry SEQ stands at place SEQ − 1 of the ring (R374). -/
def State.logByte (j : Nat) (s : State) : Byte :=
  match s.store.log.find? fun e => decide ((e.seq.toNat + 8191) % 8192 = j / 64) with
  | some e => byteAt e.bytes (j % 64)
  | none => 0

/-- The areas of Table 15-2: first page, page count, pin-protected. -/
def storeAreas : List (Nat × Nat × Bool) :=
  [(0x0000, 8, true), (0x0008, 56, false), (0x0040, 192, false), (0x0100, 256, false), (0x0200, 384, false), (0x0380, 3200, false),
   (0x1000, 2048, false), (0x1800, 2048, false), (0x2000, 4096, true), (0x3000, 4096, true), (0x4000, 8192, false), (0x6000, 8192, false),
   (0x8000, 32768, false)]

/-- The body of the partition table (R349). -/
def ptableBody : Bytes :=
  ascii "PT" ++ [1, 13, 0, 0, 0, 0] ++ storeAreas.flatMap fun (p, n, w) => leN 2 p ++ leN 4 n ++ leN 2 (b2n w)

/-- A fixed DUAL pair: the first pages of slots A and B, the pages of one slot, the class, and the body of the newest copy, where the
model holds one. -/
structure FixedPair where
  a : Nat
  b : Nat
  pages : Nat
  cls : BitVec 5
  body : Option Bytes

/-- The fixed DUAL pairs (R349, Tables 15-3, 16-3 and 20-3). -/
def State.fixedPairs (s : State) : List FixedPair :=
  let t := s.store
  let q := s.bqt
  [{ a := 0x0000, b := 0x0004, pages := 4, cls := 21, body := if t.ptable = .good then some ptableBody else none },
   { a := 0x0008, b := 0x0011, pages := 9, cls := 22, body := some (t.granules.flatMap fun g => [g.owner, BitVec.ofNat 8 g.kind, 0, 0]) },
   { a := 0x001A, b := 0x0020, pages := 6, cls := 23
     body := some ((t.slotEpoch.toList ++ t.portEpoch.toList ++ t.chanEpoch.toList).flatMap fun e => leN 2 e.toNat) },
   { a := 0x0026, b := 0x0027, pages := 1, cls := 24, body := t.bootRec.map fun n => leN 8 n.toNat },
   { a := 0x0028, b := 0x0029, pages := 1, cls := 25, body := some (leN 8 t.nctrRes.toNat) },
   { a := 0x002A, b := 0x002B, pages := 1, cls := 26
     body := t.carry.map fun c => c.seed ++ leN 8 c.boot.toNat ++ leN 6 c.rtc.toNat ++ [c.reason, 0] },
   { a := 0x002C, b := 0x002D, pages := 1, cls := 27
     body := t.pdc.map fun p => leN 8 p.boot.toNat ++ leN 6 p.bank.toNat ++ leN 2 p.dur.toNat ++ [BitVec.ofNat 8 (b2n p.backstop)] ++ zeros 7 },
   { a := 0x0380, b := 0x0388, pages := 8, cls := 29
     body := q.member.map fun m => leN 4 m.bqtId.toNat ++ leN 2 m.member.toNat ++ [0, 0] ++ m.auth ++ m.cert },
   { a := 0x0390, b := 0x03A0, pages := 16, cls := 29, body := q.member.map fun _ => leN 4 q.be.toNat ++ q.bitmap },
   { a := 0x03B0, b := 0x03B1, pages := 1, cls := 29, body := some (leN 8 q.seqRes.toNat) }]

/-- Byte `a` in a fixed pair. SEQ, the TAG of class BQT and the older copy are not held: they are free values (log 75). The newest copy
stands in the slot of its SEQ's parity (R359). -/
def State.fixedByte (f : FixedPair) (a : Nat) (s : State) : Byte :=
  let seq := leVal ((List.range 6).map fun j => Config.randomByte s.free (256 * f.a + j))
  let tag := if f.cls = 29 then leVal ((List.range 2).map fun j => Config.randomByte s.free (256 * f.a + 8 + j)) else 0
  let first := 256 * (if seq % 2 = 0 then f.a else f.b)
  match f.body with
  | some body =>
    if first ≤ a ∧ a < first + 256 * f.pages then
      let c : Copy := { seq := BitVec.ofNat 48 seq, body }
      byteAt (s.storedRecord true { owner := 0xFE, cls := f.cls, tag := BitVec.ofNat 16 tag } c) (a - first)
    else Config.randomByte s.free a
  | none => Config.randomByte s.free a

/-- Byte `j` of a save bank: a record of class SAVE (R367). One that is not valid holds what was left there, a free value. -/
def State.bankByte (b : SaveBank) (a j : Nat) (s : State) : Byte :=
  if b.valid then
    byteAt (s.storedRecord true { owner := 0xFE, cls := 28, tag := 0 } { seq := b.seq, body := b.vals.flatMap fun v => leN 8 v.toNat }) j
  else Config.randomByte s.free a

/-- A byte below page 0x1800: the fixed pairs, the save banks and the KCT journal; the reserves and the rest of the areas are zero. -/
def State.lowByte (a : Nat) (s : State) : Byte :=
  if 0x10000 ≤ a ∧ a < 0x20000 then s.ringByte (a - 0x10000)
  else if 0x20000 ≤ a ∧ a < 0x2C000 then s.bankByte s.store.bankA a (a - 0x20000)
  else if 0x2C000 ≤ a ∧ a < 0x38000 then s.bankByte s.store.bankB a (a - 0x2C000)
  else match s.fixedPairs.find? fun f => decide ((f.a ≤ a / 256 ∧ a / 256 < f.a + f.pages) ∨ (f.b ≤ a / 256 ∧ a / 256 < f.b + f.pages)) with
    | some f => s.fixedByte f a
    | none => 0

/-- A byte of the main store (Table 15-2), computed from what the model holds. The supervisor images, the image pool and what a
VOLATILE entry left are free values (log 75). -/
def State.storeByte (a : Nat) (s : State) : Byte :=
  if a < 0x180000 then s.lowByte a
  else if a < 0x200000 then s.logByte (a - 0x180000)
  else if 0x400000 ≤ a ∧ a < 0x600000 then
    let k : KIdx := Fin.ofNat 32768 ((a - 0x400000) / 64)
    if (s.entry k).vol then Config.randomByte s.free a else byteAt (s.storedEntry k (s.entry k)) (a % 64)
  else if 0x600000 ≤ a ∧ a < 0x800000 then s.granuleByte ((a - 0x600000) / 4096) (a % 4096)
  else Config.randomByte s.free a

/-- Four bytes of the main store, for a raw read of it (Table 19-9). -/
def State.storeWord (a : Nat) (s : State) : Bytes := (List.range 4).map fun j => s.storeByte ((a + j) % 0x1000000)

end Sys2Proof.Machine
end

