-- ==== Sys2Proof/Machine/Debug.lean ====
section
/-! DEFINITION. The debug transport: access within the scope of the open session (R473 to R476). -/

namespace Sys2Proof.Machine

/-- The scope bit that an access needs (Table 19-9); none for a register that no scope opens. -/
def DbgAccess.scope : DbgAccess → Option Nat
  | .tenantHalt _ | .tenantResume _ | .tenantStep _ | .tenantReg _ _ | .tenantRegWrite _ _ _ | .tenantRead _ _
  | .tenantWrite _ _ _ => some 0
  | .supervisor _ | .supervisorWrite _ _ | .thyme _ => some 1
  | .reg r | .regWrite r _ => match r with
    | .hrb _ | .port _ _ | .portPart _ _ _ => some 1
    | .mint _ => some 2
    | .mbx _ _ | .devInfo _ _ | .mpu _ _ | .kc _ _ | .cp _ _ _ | .pk _ _ | .dp _ _ _ | .meter _ _ | .bat _ => none
  | .store _ => some 3

/-- The slot that an access names. -/
def DbgAccess.slot : DbgAccess → Option (Fin 128)
  | .tenantHalt i | .tenantResume i | .tenantStep i | .tenantReg i _ | .tenantRegWrite i _ _ | .tenantRead i _
  | .tenantWrite i _ _ => some i
  | .supervisor _ | .supervisorWrite _ _ | .thyme _ | .reg _ | .regWrite _ _ | .store _ => none

/-- The address that a DEBUG_DENIED entry names. -/
def DbgAccess.address : DbgAccess → Nat
  | .tenantHalt _ | .tenantResume _ | .tenantStep _ => 0
  | .tenantReg _ r | .tenantRegWrite _ r _ => r.val
  | .tenantRead _ a | .tenantWrite _ a _ | .supervisor a | .supervisorWrite a _ | .store a => a.toNat
  | .thyme p => p.val
  | .reg r | .regWrite r _ => r.off

/-- The MPU and the unit access checker allow the slot's own access (R474), in its data window. -/
def State.tenantAllows (i : Fin 128) (k : AccessKind) (a : Word) (s : State) : Bool :=
  let t := s.tenants.slots[i]
  let s := s.updCore 0 fun x => { x with slot := some i, mpu := x.mpu.load t }
  decide (0x10000000 ≤ a.toNat ∧ a.toNat + 4 ≤ 0x10000000 + 0x10000 * t.run.sram) && (s.userFault 0 i k a.toNat 4).isNone

/-- The access lies in the open scope: its bit, the slot that the session names, which is RUNNING, and the judgement
of the slot's own accesses. -/
def State.inScope (d : Debug) (a : DbgAccess) (s : State) : Bool :=
  (match a.scope with | some b => d.scope.getLsbD b | none => false) &&
  (match a.slot with | some i => d.slot.toNat == i.val && (s.tenants.slots[i]).state == .running | none => true) &&
  (match a with
    | .tenantRead i x => s.tenantAllows i .load x
    | .tenantWrite i x _ => s.tenantAllows i .store x
    | .tenantStep i => s.lc.halted.contains i
    | .reg r | .regWrite r _ => r.off % 4 == 0
    | _ => true)

/-- The context row of a port as Table 03-3 lays it out; the places whose inner layout the table does not give are
free values (at 0x04, the table puts five one-byte values into four bytes: PROF is the first). -/
def State.contextRow (p : Fin 512) (s : State) : Bytes :=
  let c := (s.sprig.ports[p]).ctx
  let r := s.random 256
  let n (w : Option Word) : Bytes := leN 4 (w.getD 0).toNat
  [c.owner, BitVec.ofNat 8 c.phase.code] ++ leN 2 c.epoch.toNat ++ [c.prof] ++ r.take 3 ++ leN 4 c.r.toNat ++ leN 4 c.e.toNat ++ leN 4 c.l.toNat ++ leN 4 c.tClose.toNat ++
    n c.tsof ++ n c.teof ++ slice r 32 224

/-- The data register answers. -/
def State.dbgOut (b : Bytes) (s : State) : State := s.updTap fun t => { t with out := b, dbgStatus := 0 }

/-- One instruction of a halted tenant, while a core has it (log 18): it halts again behind it. -/
def State.haltedStep (i : Fin 128) (s : State) : State :=
  match s.coreOf i with
  | none => s
  | some c =>
    let t := (s.updLc fun l => { l with halted := l.halted.filter (· != i) }).codeStep c i
    t.updLc fun l => { l with halted := i :: l.halted.filter (· != i) }

/-- An access within the scope. -/
def State.dbgAct (a : DbgAccess) (s : State) : State :=
  match a with
  | .tenantHalt i => ((s.updLc fun l => { l with halted := i :: l.halted.filter (· != i) })).dbgOut []
  | .tenantResume i =>
    let s := s.updLc fun l => { l with halted := l.halted.filter (· != i) }
    (if s.onCore i then s else s.joinRun i).dbgOut []
  | .tenantStep i => (s.haltedStep i).dbgOut []
  | .tenantReg i r => s.dbgOut (leN 4 (if h : r.val = 0 then 0 else (s.tenants.slots[i]).regs[r.val - 1]'(by omega)).toNat)
  | .tenantRegWrite i r v =>
    (if h : r.val = 0 then s else s.updSlot i fun k => { k with regs := k.regs.set (r.val - 1) v (by omega) }).dbgOut []
  | .tenantRead i x => s.dbgOut (Memory.readN (s.tenants.slots[i]).sram (x.toNat - 0x10000000) 4)
  | .tenantWrite i x v => (s.updSlot i fun k => { k with sram := Memory.writeN k.sram (x.toNat - 0x10000000) (leN 4 v.toNat) }).dbgOut []
  | .supervisor _ => s.drawn.dbgOut (s.random 4)
  | .store a => s.drawn.dbgOut (s.storeWord a.toNat)
  | .supervisorWrite _ _ => s.drawn.dbgOut []
  | .thyme p => s.drawn.dbgOut (s.contextRow p)
  | .reg r => (s.afterRead r).dbgOut (leN 4 (s.regRead r).toNat)
  | .regWrite r v =>
    (match r with
      | .port p o => if o = 0 then s.updPort p (Port.writeCtrl true v) else s.portWrite p o.toNat v
      | _ => s.regWrite r v).dbgOut []

def execDbg (access : DbgAccess) (s : State) : Res :=
  .next <|
    let s := s.tapLoad 0x21
    match s.lc.dbgSession with
    | none => s
    | some d =>
      if s.live then
        if s.inScope d access then s.dbgAct access
        else (s.updTap fun t => { t with dbgStatus := 0x0709 }).log 0x2C 0x21 (leN 2 d.scope.toNat ++ leN 4 access.address)
      else s

end Sys2Proof.Machine
end

