-- ==== Sys2Proof/Machine/Treor.lean ====
section
/-! DEFINITION. The supervisor's own requests: HELLO, the administrator session, parameters, ports (R199 to R206,
R209 to R211, R385, R438). -/

namespace Sys2Proof.Machine

abbrev State.updTreor (s : State) (f : Treor → Treor) : State := { s with treor := f s.treor }

/-! ### HELLO (R199 to R202) -/

/-- The device's versions, as major × 256 + minor. -/
def treorVersions : List Nat := [0x100, 0x101, 0x200]

/-- The highest version of the device that an offer holds. -/
def selectVersion (lo hi : Nat) : Option Nat := (treorVersions.filter fun v => decide (lo ≤ v ∧ v ≤ hi)).getLast?

/-- DEV_CAPS (Table 08-4). -/
def devCaps (v : Nat) : Nat := if v = 0x100 then 0x17BF else if v = 0x101 then 0x17FF else 0x1FFF

/-- A version as HELLO writes it: major, then minor. -/
def helloVersion (b : Bytes) (off : Nat) : Nat := fld b off 1 * 256 + fld b (off + 1) 1

/-- A HELLO that fails: no version, no HOST_CAPS, no session. -/
def State.helloFail (r : Req) (status : BitVec 16) (payload : Bytes) (s : State) : State :=
  (s.updTreor fun t => { t with verMaj := 0, verMin := 0, hostCaps := 0, session := none }).respond r 0x0001 status payload

/-- Events that were held back are sent (R202). -/
def State.flushEvents (s : State) : State :=
  let s := (List.finRange 128).foldl (fun s i => s.takeOut i 16) s
  (s.forwardRecords s.bay.queuedHost).flushEnv

/-- A HELLO that negotiates version `v`. -/
def State.helloOk (r : Req) (v : Nat) (s : State) : State :=
  let s := s.updTreor fun t => { t with verMaj := v / 256, verMin := v % 256, hostCaps := wordAt r.body 4, session := none, helloOk := true }
  let s := s.respond r 0x0001 0 ([BitVec.ofNat 8 (v / 256), BitVec.ofNat 8 (v % 256), 1, 0, 2, 0] ++ leN 2 (s.unitEpoch 0 0).toNat ++
    leN 4 (devCaps v) ++ leN 2 32 ++ leN 2 4096)
  s.flushEvents

/-- A HELLO that passes steps 1 to 10 of Table 08-3. -/
def State.helloTaken (r : Req) (s : State) : State :=
  let lo := helloVersion r.body 0
  let hi := helloVersion r.body 2
  if r.body.length ≠ 16 ∨ !allZero (r.body.drop 8) ∨ hi < lo then s.helloFail r 0x0108 []
  else if 256 ≤ s.outAll then s.helloFail r 0x0109 []
  else match selectVersion lo hi with
    | none => s.helloFail r 0x0102 [1, 0, 2, 0]
    | some v => s.helloOk r v

/-- HELLO: one that passes steps 1 to 10 is taken once every request taken before it has been answered (R200). -/
def execHello (r : Req) (s : State) : Res :=
  .next <|
    let gone := { s with link := { s.link with delivered := dropDelivered 0x0001 r s.link.delivered } }
    if !s.live then gone
    else if !s.turn 0x0001 r then s.arrive 0x0001 r
    else match s.power.run with
      | .running => match s.admitHead 0x0001 r with
        | some (st, p) => gone.respond r 0x0001 st p
        | none => if s.treor.waiting.isEmpty then gone.helloTaken r else s.arrive 0x0001 r
      | .serviceOnly => gone.respond r 0x0001 0x0501 []
      | _ => gone.respond r 0x0001 0x0510 []

/-! ### ECHO and DEV_INFO (Table 08-7) -/

def execEcho (r : Req) (s : State) : Res :=
  .next <| s.request 0x0002 r (r.body.length ≤ 4080) fun s => s.respond r 0x0002 0 r.body

def execDevInfo (r : Req) (s : State) : Res :=
  .next <| s.request 0x0003 r (r.body = []) fun s =>
    let used := s.tenants.slots.toList.countP (·.state != .free)
    let (id, member) : Word × Nat := match s.bqt.member with | none => (0, 0xFFFF) | some m => (m.bqtId, m.member.toNat)
    s.respond r 0x0003 0 (padTo 16 s.lc.unitId ++ leN 4 (s.hrbRead 0x000).toNat ++ leN 4 s.hrb.fwver.toNat ++
      [BitVec.ofNat 8 s.lc.state.code, BitVec.ofNat 8 (b2n (s.recalled && s.guard.tampered) + 2 * b2n s.lc.pending),
       s.bay.seenSeal.setWidth 8, BitVec.ofNat 8 used] ++ leN 4 id.toNat ++ leN 2 member ++ leN 2 s.bootEpoch.toNat ++ leN 2 s.tcnt ++ [0, 0])

/-! ### Administrator session (R203) -/

/-- ADMIN_CHALLENGE: refused in a lockout; else 16 bytes from instance 147, drawn with WAIT. -/
def execAdminChallenge (r : Req) (s : State) : Res :=
  .next <| s.request 0x0101 r (r.body = []) fun s =>
    if s.treor.lockout then s.respond r 0x0101 0x0206 []
    else
      let q : DrbgReq := { client := .challenge, inst := 147, len := 16 }
      match s.drawKind q true with
      | .refused st => (s.updTreor fun t => { t with nonce := none }).respond r 0x0101 st []
      | .queued => (s.queueDraw q).wait .nonceDraw r 0x0101
      | .now =>
        let n := s.drawOut q
        ((s.drawNow q).updTreor fun t => { t with nonce := some n }).respond r 0x0101 0 n

/-- The administrator key that an ADMIN_OPEN proves, under the nonce that it uses up. -/
def State.adminKey (body : Bytes) (s : State) : Option (Fin 4) :=
  let pub := body.take 64
  match s.treor.nonce with
  | none => none
  | some n =>
    if s.treor.lockout then none
    else if ecdsaVerify pub (ascii "TREOR-ADMIN" ++ padTo 16 s.lc.unitId ++ leN 2 s.bootEpoch.toNat ++ n) (slice body 64 64) then
      (List.finRange 4).find? fun i => s.lc.admins[i] == sha pub
    else none

/-- ADMIN_OPEN. The fourth failure in a row starts the lockout, in which failures are not counted. -/
def State.adminOpen (r : Req) (s : State) : State :=
  let key := s.adminKey r.body
  let s := s.updTreor fun t => { t with nonce := none }
  match key with
  | some i =>
    (s.updTreor fun t => { t with session := some (BitVec.ofNat 2 i.val), fails := 0 }).respond r 0x0102 0 [BitVec.ofNat 8 i.val, 0, 0, 0]
  | none =>
    (s.updTreor fun t =>
      if t.lockout then t else { t with fails := t.fails + 1, lockout := decide (4 ≤ t.fails + 1) }).respond r 0x0102 0x0206 []

def execAdminOpen (r : Req) (s : State) : Res := .next <| s.request 0x0102 r (r.body.length = 128) (State.adminOpen r)
/-- The ADMIN_OPEN whose failure is the fourth. -/
def execAdminLockout (r : Req) (s : State) : Res := .next <| s.request 0x0102 r (r.body.length = 128) (State.adminOpen r)

def execAdminLockoutEnd (s : State) : Res :=
  .next <| if s.live ∧ s.treor.lockout then s.updTreor fun t => { t with lockout := false, fails := 0 } else s

def execAdminClose (r : Req) (s : State) : Res :=
  .next <| s.request 0x0103 r (r.body = []) fun s => (s.updTreor fun t => { t with session := none }).respond r 0x0103 0 []

def execAdminIdleTimeout (s : State) : Res :=
  .next <| if s.live then s.updTreor fun t => { t with session := none } else s

/-! ### Parameters (R209 to R211) -/

/-- INDEX lies in the scope of the parameter. -/
def Param.inScope (p : Param) (i : Nat) : Bool :=
  if p.scope = 0 then i == 0 else if p.scope = 1 then decide (i < 128) else decide (i < 512)

/-- Checks 1 and 2 of R209. -/
def paramAt (n i : Nat) : Except (BitVec 16) Param :=
  match param? n with
  | none => .error 0x0310
  | some p => if p.inScope i then .ok p else .error 0x0313

/-- The running and the staged value of a parameter, as words. -/
def State.paramValues (p : Param) (n i : Nat) (s : State) : Word × Word :=
  if p.staged then
    let k := s.tenants.slots[Fin.ofNat 128 i]
    (BitVec.ofNat 32 (k.run.get (n - 0x700)), BitVec.ofNat 32 (k.stage.get (n - 0x700)))
  else
    let w := BitVec.ofNat 32 (s.param n i)
    (w, w)

/-- The PARAM_GET response. -/
def State.paramInfo (p : Param) (n i : Nat) (s : State) : Bytes :=
  let (v, g) := s.paramValues p n i
  leN 2 n ++ leN 2 i ++ [BitVec.ofNat 8 p.type, BitVec.ofNat 8 (b2n (v != g) + 2 * b2n p.staged + 4 * b2n p.readOnly), 0, 0] ++
    leN 4 v.toNat ++ leN 4 g.toNat

def execParamGet (r : Req) (s : State) : Res :=
  .next <| s.request 0x0201 r (r.body.length = 4) fun s =>
    match paramAt (fld r.body 0 2) (fld r.body 2 2) with
    | .error st => s.respond r 0x0201 st []
    | .ok p => s.respond r 0x0201 0 (s.paramInfo p (fld r.body 0 2) (fld r.body 2 2))

/-- A value that 0 switches off; else the larger is the wider. -/
def wider (old new : Int) : Bool := if new = 0 then old != 0 else old != 0 && decide (old < new)

/-- The change lowers protection (R438). -/
def lowersProtection (n : Nat) (old new : Int) : Bool :=
  if n < 0x830 ∨ (0x860 ≤ n ∧ n < 0x8F0) then old == 1 && new == 0
  else if n < 0x860 then decide (old < new)
  else if n < 0x8FF then
    if (n - 0x8F0) % 3 = 0 then old != 0 && decide (new < old) else wider old new
  else if n < 0x90E then wider old new
  else if n < 0x920 then if n % 2 = 0 then decide (new < old) else decide (old < new)
  else if n < 0x930 then n % 2 == 0 && old == 1 && new == 0
  else if n < 0x93E then decide (old < new)
  else if n < 0x947 then decide (new < old)
  else if n < 0x94F then old != 0 && new == 0
  else decide (old < new)

/-- A tamper parameter. -/
def isTamperParam (n : Nat) : Bool := decide (0x800 ≤ n ∧ n ≤ 0x950)

/-- The new value is in force: staged for a tenant resource; for a tamper parameter in the battery domain's copy too, and
logged where it lowers protection in DEPLOYED (R437, R438). -/
def State.paramPut (p : Param) (n i : Nat) (w : Word) (s : State) : State :=
  if p.staged then s.updSlot (Fin.ofNat 128 i) fun k => { k with stage := k.stage.put (n - 0x700) w.toNat }
  else
    let old : Word := BitVec.ofNat 32 (s.param n i)
    let s := s.updTreor fun t => { t with params := Sys2Proof.Machine.paramPut t.params n i w }
    if isTamperParam n then
      let s := if s.guard.powered then s.updGuard fun g => { g with copy := tamperParams s.treor.params } else s
      if s.lc.state = .deployed ∧ lowersProtection n (p.val old) (p.val w) then
        s.log 0x28 0 (leN 2 n ++ leN 2 i ++ leN 4 old.toNat ++ leN 4 w.toNat)
      else s
    else s

/-- PARAM_SET: the checks in the order of R209, the refusal while the slot is being removed (R232), then the commit. -/
def State.paramSet (r : Req) (s : State) : State :=
  let n := fld r.body 0 2
  let i := fld r.body 2 2
  let w := wordAt r.body 8
  match paramAt n i with
  | .error st => s.respond r 0x0202 st []
  | .ok p =>
    if p.readOnly then s.respond r 0x0202 0x0312 []
    else if !p.allows w then s.respond r 0x0202 0x0311 []
    else if p.scope = 1 ∧ (s.tenants.slots[Fin.ofNat 128 i]).removing then s.respond r 0x0202 0x030A []
    else if !s.commits then s.respond r 0x0202 0x0501 []
    else
      let s := s.paramPut p n i w
      s.respond r 0x0202 0 (s.paramInfo p n i)

def execParamSet (r : Req) (s : State) : Res :=
  .next <| s.request 0x0202 r (r.body.length = 12 ∧ allZero (slice r.body 4 4)) (State.paramSet r)

/-- The descriptor of a parameter (Table 08-10). -/
def Param.descriptor (n : Nat) (p : Param) : Bytes :=
  leN 2 n ++ [BitVec.ofNat 8 p.type, BitVec.ofNat 8 (p.scope + 4 * b2n p.staged + 8 * b2n p.readOnly)] ++ leN 4 (paramWord p.min).toNat ++
    leN 4 (paramWord p.max).toNat ++ leN 4 (paramWord p.reset).toNat

/-- Every parameter from a number on, ascending. -/
def paramsFrom (first : Nat) : List (Nat × Param) :=
  (List.range (0x0D01 - first)).filterMap fun k => (param? (first + k)).map fun p => (first + k, p)

def execParamList (r : Req) (s : State) : Res :=
  .next <| s.request 0x0203 r (r.body.length = 4 ∧ 1 ≤ fld r.body 2 2 ∧ fld r.body 2 2 ≤ 254) fun s =>
    let all := paramsFrom (fld r.body 0 2)
    let now := all.take (fld r.body 2 2)
    let next := match all.drop (fld r.body 2 2) with | [] => 0xFFFF | (n, _) :: _ => n
    s.respond r 0x0203 0 (leN 2 now.length ++ leN 2 next ++ now.flatMap fun (n, p) => p.descriptor n)

/-! ### Ports (R205, R206, R385) -/

def execPortStatus (r : Req) (s : State) : Res :=
  .next <| s.request 0x0901 r (r.body.length = 4 ∧ fld r.body 0 2 < 512 ∧ allZero (r.body.drop 2)) fun s =>
    let n : Fin 512 := Fin.ofNat 512 (fld r.body 0 2)
    let p := s.sprig.ports[n]
    s.respond r 0x0901 0 (leN 2 n.val ++ leN 2 (s.store.portEpoch[n]).toNat ++
      [BitVec.ofNat 8 p.state.code, p.cause.setWidth 8, p.gen.setWidth 8, p.ownerByte, p.delay.setWidth 8, 0, 0, 0])

/-- A PORT_CTRL whose ACTION is `action`: the port epoch, the rule for an ACTIVE port where `guardActive`, the commit
of the settings where `record` changes them, then the write `act`. -/
def State.portCtrl (r : Req) (guardActive : Bool) (record : Option (Port → Port)) (act : Port → Port) (s : State) : State :=
  let n : Fin 512 := Fin.ofNat 512 (fld r.body 0 2)
  let p := s.sprig.ports[n]
  let e := s.store.portEpoch[n]
  if fld r.body 2 2 ≠ e.toNat then s.respond r 0x0902 0x0203 (leN 2 e.toNat ++ [0, 0])
  else if guardActive ∧ p.owner.isSome ∧ p.state = .active ∧ fld r.body 4 1 < 0x80 then s.respond r 0x0902 0x0306 []
  else match record with
    | some f =>
      if s.commits then (s.updPort n fun p => act (f p)).respond r 0x0902 0 (leN 2 e.toNat ++ [BitVec.ofNat 8 p.state.code, 0])
      else s.respond r 0x0902 0x0501 []
    | none => (s.updPort n act).respond r 0x0902 0 (leN 2 e.toNat ++ [BitVec.ofNat 8 p.state.code, 0])

/-- The layout of a PORT_CTRL with one action; FORCE is accepted with each. -/
def ctrlFits (r : Req) (action : Nat) : Bool :=
  r.body.length == 8 && decide (fld r.body 0 2 < 512) && fld r.body 4 1 % 128 == action && allZero (r.body.drop 5)

def execPortCtrlEnable (r : Req) (s : State) : Res :=
  .next <| s.request 0x0902 r (ctrlFits r 1) (State.portCtrl r false (some fun p => { p with recEn := true }) fun p => { p with en := true })
def execPortCtrlDisable (r : Req) (s : State) : Res :=
  .next <| s.request 0x0902 r (ctrlFits r 2) (State.portCtrl r true (some fun p => { p with recEn := false }) fun p => { p with en := false })
def execPortCtrlRetrain (r : Req) (s : State) : Res :=
  .next <| s.request 0x0902 r (ctrlFits r 3) (State.portCtrl r false none fun p => { p with askRetrain := true })
def execPortCtrlGenLimitSet (r : Req) (s : State) : Res :=
  .next <| s.request 0x0902 r (ctrlFits r 4) (State.portCtrl r false (some fun p => { p with recGen := true }) fun p => { p with genLimit := true })
def execPortCtrlGenLimitClear (r : Req) (s : State) : Res :=
  .next <| s.request 0x0902 r (ctrlFits r 5) (State.portCtrl r false (some fun p => { p with recGen := false }) fun p => { p with genLimit := false })
def execPortCtrlAutoRetrainSet (r : Req) (s : State) : Res :=
  .next <| s.request 0x0902 r (ctrlFits r 6) (State.portCtrl r false (some fun p => { p with recAuto := true }) fun p => { p with autoRetrain := true })
def execPortCtrlAutoRetrainClr (r : Req) (s : State) : Res :=
  .next <| s.request 0x0902 r (ctrlFits r 7) (State.portCtrl r false (some fun p => { p with recAuto := false }) fun p => { p with autoRetrain := false })

end Sys2Proof.Machine
end

