-- ==== Sys2Proof/Machine/Dispatch.lean ====
section
/-! DEFINITION. One arm for each command. -/

namespace Sys2Proof.Machine

/-- What a command does to everything but the queue. -/
def exec (i : Instr) (s : State) : Host.Outcome State Fault Refusal :=
  match i with
  | .mainResetRelease pins => Sys2Proof.Machine.execMainResetRelease pins s
  | .supplyLoss lv => Sys2Proof.Machine.execSupplyLoss lv s
  | .resetNAssert => Sys2Proof.Machine.execResetNAssert s
  | .supervisorImageStart => Sys2Proof.Machine.execSupervisorImageStart s
  | .mainRecallDone ms lost => Sys2Proof.Machine.execMainRecallDone ms lost s
  | .slotColdStart slot => Sys2Proof.Machine.execSlotColdStart slot s
  | .tagwRecallDone ok rowsOk ms => Sys2Proof.Machine.execTagwRecallDone ok rowsOk ms s
  | .startSeedRefresh => Sys2Proof.Machine.execStartSeedRefresh s
  | .hourlySave => Sys2Proof.Machine.execHourlySave s
  | .powerFailSave => Sys2Proof.Machine.execPowerFailSave s
  | .backstopSave => Sys2Proof.Machine.execBackstopSave s
  | .saveDone dur => Sys2Proof.Machine.execSaveDone dur s
  | .storeRefresh => Sys2Proof.Machine.execStoreRefresh s
  | .nvWpRise rowsOk tableOk => Sys2Proof.Machine.execNvWpRise rowsOk tableOk s
  | .frameBoundary => Sys2Proof.Machine.execFrameBoundary s
  | .uplinkBlock port w => Sys2Proof.Machine.execUplinkBlock port w s
  | .trainingComplete port => Sys2Proof.Machine.execTrainingComplete port s
  | .trainingTimeout port => Sys2Proof.Machine.execTrainingTimeout port s
  | .dataBlockUndelivered port => Sys2Proof.Machine.execDataBlockUndelivered port s
  | .uplinkLoss port => Sys2Proof.Machine.execUplinkLoss port s
  | .autoRetrainDelay port => Sys2Proof.Machine.execAutoRetrainDelay port s
  | .ping port => Sys2Proof.Machine.execPing port s
  | .portEnable port en => Sys2Proof.Machine.execPortEnable port en s
  | .retrain port => Sys2Proof.Machine.execRetrain port s
  | .wake port => Sys2Proof.Machine.execWake port s
  | .release port => Sys2Proof.Machine.execRelease port s
  | .holdActive port on => Sys2Proof.Machine.execHoldActive port on s
  | .thymeSlice port => Sys2Proof.Machine.execThymeSlice port s
  | .receiveTimeout port => Sys2Proof.Machine.execReceiveTimeout port s
  | .cmdPoll port => Sys2Proof.Machine.execCmdPoll port s
  | .cmdActivate port => Sys2Proof.Machine.execCmdActivate port s
  | .cmdExchange port => Sys2Proof.Machine.execCmdExchange port s
  | .cmdRaw port => Sys2Proof.Machine.execCmdRaw port s
  | .cmdHalt port => Sys2Proof.Machine.execCmdHalt port s
  | .cmdDeselect port => Sys2Proof.Machine.execCmdDeselect port s
  | .cmdAbort port => Sys2Proof.Machine.execCmdAbort port s
  | .fieldGuardEnd port => Sys2Proof.Machine.execFieldGuardEnd port s
  | .techGapEnd port => Sys2Proof.Machine.execTechGapEnd port s
  | .resetOffEnd port => Sys2Proof.Machine.execResetOffEnd port s
  | .profileEnd port => Sys2Proof.Machine.execProfileEnd port s
  | .evqRdWrite port v => Sys2Proof.Machine.execEvqRdWrite port v s
  | .applyBoundary slot => Sys2Proof.Machine.execApplyBoundary slot s
  | .pageMapNewOwner port => Sys2Proof.Machine.execPageMapNewOwner port s
  | .islandStart vst => Sys2Proof.Machine.execIslandStart vst s
  | .islandReset rows => Sys2Proof.Machine.execIslandReset rows s
  | .fieldDetected => Sys2Proof.Machine.execFieldDetected s
  | .fieldLossTimeout => Sys2Proof.Machine.execFieldLossTimeout s
  | .tagReqa => Sys2Proof.Machine.execTagReqa s
  | .tagWupa => Sys2Proof.Machine.execTagWupa s
  | .tagAnticollision level known lastBit => Sys2Proof.Machine.execTagAnticollision level known lastBit s
  | .tagSelect level uid lastBit => Sys2Proof.Machine.execTagSelect level uid lastBit s
  | .tagHlta => Sys2Proof.Machine.execTagHlta s
  | .tagRats fsdi cid lastBit n => Sys2Proof.Machine.execTagRats fsdi cid lastBit n s
  | .tagPps cid dri dsi lastBit n => Sys2Proof.Machine.execTagPps cid dri dsi lastBit n s
  | .tagSDeselect cid lastBit n => Sys2Proof.Machine.execTagSDeselect cid lastBit n s
  | .tagWtxTimer lastBit n => Sys2Proof.Machine.execTagWtxTimer lastBit n s
  | .selectByAid c => Sys2Proof.Machine.execSelectByAid c s
  | .selectFile c => Sys2Proof.Machine.execSelectFile c s
  | .readBinary c => Sys2Proof.Machine.execReadBinary c s
  | .updateBinary c => Sys2Proof.Machine.execUpdateBinary c s
  | .getIdentity c => Sys2Proof.Machine.execGetIdentity c s
  | .getSummary c => Sys2Proof.Machine.execGetSummary c s
  | .readLog c => Sys2Proof.Machine.execReadLog c s
  | .putAck c vst => Sys2Proof.Machine.execPutAck c vst s
  | .inboxStatus c => Sys2Proof.Machine.execInboxStatus c s
  | .granuleEnd fails waited => Sys2Proof.Machine.execGranuleEnd fails waited s
  | .latchIdleExpiry => Sys2Proof.Machine.execLatchIdleExpiry s
  | .latchMaxExpiry => Sys2Proof.Machine.execLatchMaxExpiry s
  | .windowUpdateStart => Sys2Proof.Machine.execWindowUpdateStart s
  | .windowUpdateCommit bad waited => Sys2Proof.Machine.execWindowUpdateCommit bad waited s
  | .tagwDeferTimeout => Sys2Proof.Machine.execTagwDeferTimeout s
  | .inboxAckAnswer => Sys2Proof.Machine.execInboxAckAnswer s
  | .linkTrainingSet side lane set count => Sys2Proof.Machine.execLinkTrainingSet side lane set count s
  | .linkTrainingTimeout side => Sys2Proof.Machine.execLinkTrainingTimeout side s
  | .linkRateTimeout side => Sys2Proof.Machine.execLinkRateTimeout side s
  | .linkBlock side rx => Sys2Proof.Machine.execLinkBlock side rx s
  | .regBlock => Sys2Proof.Machine.execRegBlock s
  | .enumBlock => Sys2Proof.Machine.execEnumBlock s
  | .lcwAck side rx => Sys2Proof.Machine.execLcwAck side rx s
  | .lcwNak side rx => Sys2Proof.Machine.execLcwNak side rx s
  | .resendTimer side => Sys2Proof.Machine.execResendTimer side s
  | .lcwSendTimer side => Sys2Proof.Machine.execLcwSendTimer side s
  | .blockSent side atEnd latency => Sys2Proof.Machine.execBlockSent side atEnd latency s
  | .laneErrorRetrain side lane => Sys2Proof.Machine.execLaneErrorRetrain side lane s
  | .laneFail side lane => Sys2Proof.Machine.execLaneFail side lane s
  | .hostOrderedRetrain side late => Sys2Proof.Machine.execHostOrderedRetrain side late s
  | .w1cClear r v simultaneous => Sys2Proof.Machine.execW1cClear r v simultaneous s
  | .clearingRead r => Sys2Proof.Machine.execClearingRead r s
  | .hrbIenWrite bank v => Sys2Proof.Machine.execHrbIenWrite bank v s
  | .rtcLoRead => Sys2Proof.Machine.execRtcLoRead s
  | .carrierRead core => Sys2Proof.Machine.execCarrierRead core s
  | .registerWrite r v => Sys2Proof.Machine.execRegisterWrite r v s
  | .hello r => Sys2Proof.Machine.execHello r s
  | .echo r => Sys2Proof.Machine.execEcho r s
  | .devInfo r => Sys2Proof.Machine.execDevInfo r s
  | .adminChallenge r => Sys2Proof.Machine.execAdminChallenge r s
  | .adminOpen r => Sys2Proof.Machine.execAdminOpen r s
  | .adminLockout r => Sys2Proof.Machine.execAdminLockout r s
  | .adminLockoutEnd => Sys2Proof.Machine.execAdminLockoutEnd s
  | .adminClose r => Sys2Proof.Machine.execAdminClose r s
  | .adminIdleTimeout => Sys2Proof.Machine.execAdminIdleTimeout s
  | .paramGet r => Sys2Proof.Machine.execParamGet r s
  | .paramSet r => Sys2Proof.Machine.execParamSet r s
  | .paramList r => Sys2Proof.Machine.execParamList r s
  | .slotStatus r => Sys2Proof.Machine.execSlotStatus r s
  | .slotAssign r => Sys2Proof.Machine.execSlotAssign r s
  | .slotApply r => Sys2Proof.Machine.execSlotApply r s
  | .slotDiscardStage r => Sys2Proof.Machine.execSlotDiscardStage r s
  | .slotQuiesce r => Sys2Proof.Machine.execSlotQuiesce r s
  | .quiesceComplete slot us => Sys2Proof.Machine.execQuiesceComplete slot us s
  | .quiesceJobTimeout slot => Sys2Proof.Machine.execQuiesceJobTimeout slot s
  | .slotStart r => Sys2Proof.Machine.execSlotStart r s
  | .slotReset r => Sys2Proof.Machine.execSlotReset r s
  | .slotRemove r => Sys2Proof.Machine.execSlotRemove r s
  | .slotRemoveDone slot => Sys2Proof.Machine.execSlotRemoveDone slot s
  | .imageWrite r => Sys2Proof.Machine.execImageWrite r s
  | .imageCommit r => Sys2Proof.Machine.execImageCommit r s
  | .mbxSend r => Sys2Proof.Machine.execMbxSend r s
  | .mbxInRdWrite slot v => Sys2Proof.Machine.execMbxInRdWrite slot v s
  | .mbxOutWrWrite slot v => Sys2Proof.Machine.execMbxOutWrWrite slot v s
  | .storeStatus r => Sys2Proof.Machine.execStoreStatus r s
  | .logRead r => Sys2Proof.Machine.execLogRead r s
  | .mintStatus r => Sys2Proof.Machine.execMintStatus r s
  | .portStatus r => Sys2Proof.Machine.execPortStatus r s
  | .portCtrlEnable r => Sys2Proof.Machine.execPortCtrlEnable r s
  | .portCtrlDisable r => Sys2Proof.Machine.execPortCtrlDisable r s
  | .portCtrlRetrain r => Sys2Proof.Machine.execPortCtrlRetrain r s
  | .portCtrlGenLimitSet r => Sys2Proof.Machine.execPortCtrlGenLimitSet r s
  | .portCtrlGenLimitClear r => Sys2Proof.Machine.execPortCtrlGenLimitClear r s
  | .portCtrlAutoRetrainSet r => Sys2Proof.Machine.execPortCtrlAutoRetrainSet r s
  | .portCtrlAutoRetrainClr r => Sys2Proof.Machine.execPortCtrlAutoRetrainClr r s
  | .tagwRead r => Sys2Proof.Machine.execTagwRead r s
  | .tagwUpdate r => Sys2Proof.Machine.execTagwUpdate r s
  | .tagwStatus r => Sys2Proof.Machine.execTagwStatus r s
  | .lcStatus r => Sys2Proof.Machine.execLcStatus r s
  | .lcTransitionRequest r stop => Sys2Proof.Machine.execLcTransitionRequest r stop s
  | .adminKeyList r => Sys2Proof.Machine.execAdminKeyList r s
  | .debugToken r => Sys2Proof.Machine.execDebugToken r s
  | .debugSessionExpiry => Sys2Proof.Machine.execDebugSessionExpiry s
  | .rtcSet r => Sys2Proof.Machine.execRtcSet r s
  | .bbkRekey r => Sys2Proof.Machine.execBbkRekey r s
  | .tamperLogRead r => Sys2Proof.Machine.execTamperLogRead r s
  | .bayStatus r => Sys2Proof.Machine.execBayStatus r s
  | .bqtStatus r => Sys2Proof.Machine.execBqtStatus r s
  | .bqtJoin r => Sys2Proof.Machine.execBqtJoin r s
  | .bqtLeave r => Sys2Proof.Machine.execBqtLeave r s
  | .bqtRevoke r => Sys2Proof.Machine.execBqtRevoke r s
  | .envDeliver r => Sys2Proof.Machine.execEnvDeliver r s
  | .envPart r => Sys2Proof.Machine.execEnvPart r s
  | .envConfirm r => Sys2Proof.Machine.execEnvConfirm r s
  | .envRefuse r => Sys2Proof.Machine.execEnvRefuse r s
  | .envCancel r => Sys2Proof.Machine.execEnvCancel r s
  | .migrateExport r => Sys2Proof.Machine.execMigrateExport r s
  | .bayRequest r => Sys2Proof.Machine.execBayRequest r s
  | .baySummary => Sys2Proof.Machine.execBaySummary s
  | .bayIdentity => Sys2Proof.Machine.execBayIdentity s
  | .bayRead => Sys2Proof.Machine.execBayRead s
  | .bayConfirm => Sys2Proof.Machine.execBayConfirm s
  | .bayNonce => Sys2Proof.Machine.execBayNonce s
  | .baySeal => Sys2Proof.Machine.execBaySeal s
  | .bayStage => Sys2Proof.Machine.execBayStage s
  | .bayConfigCommit => Sys2Proof.Machine.execBayConfigCommit s
  | .bayFwCommit => Sys2Proof.Machine.execBayFwCommit s
  | .bayApp => Sys2Proof.Machine.execBayApp s
  | .bayAppTimeout => Sys2Proof.Machine.execBayAppTimeout s
  | .bayAck => Sys2Proof.Machine.execBayAck s
  | .bayResetRelease mv sealHigh => Sys2Proof.Machine.execBayResetRelease mv sealHigh s
  | .bayPowerLow mv => Sys2Proof.Machine.execBayPowerLow mv s
  | .bayPeriodicBank => Sys2Proof.Machine.execBayPeriodicBank s
  | .bayBridgeStart ms => Sys2Proof.Machine.execBayBridgeStart ms s
  | .bayRecordArrival => Sys2Proof.Machine.execBayRecordArrival s
  | .baySummaryInterval => Sys2Proof.Machine.execBaySummaryInterval s
  | .bayWait mask us => Sys2Proof.Machine.execBayWait mask us s
  | .measure port addr => Sys2Proof.Machine.execMeasure port addr s
  | .recdone => Sys2Proof.Machine.execRecdone s
  | .bayTotal port => Sys2Proof.Machine.execBayTotal port s
  | .bayTime => Sys2Proof.Machine.execBayTime s
  | .appRecv dst room => Sys2Proof.Machine.execAppRecv dst room s
  | .appReply src len => Sys2Proof.Machine.execAppReply src len s
  | .cfgRead off dst len => Sys2Proof.Machine.execCfgRead off dst len s
  | .bayFwStop cause access pc mtval => Sys2Proof.Machine.execBayFwStop cause access pc mtval s
  | .bayFwRestart => Sys2Proof.Machine.execBayFwRestart s
  | .meterPulse n a b => Sys2Proof.Machine.execMeterPulse n a b s
  | .meterUartByte n byte ok => Sys2Proof.Machine.execMeterUartByte n byte ok s
  | .freqGateEnd n => Sys2Proof.Machine.execFreqGateEnd n s
  | .mpTxWrite n byte => Sys2Proof.Machine.execMpTxWrite n byte s
  | .totalInterval => Sys2Proof.Machine.execTotalInterval s
  | .baySignDone => Sys2Proof.Machine.execBaySignDone s
  | .bayTimeCheck expected => Sys2Proof.Machine.execBayTimeCheck expected s
  | .sealPinChange high => Sys2Proof.Machine.execSealPinChange high s
  | .bayStoreRefresh => Sys2Proof.Machine.execBayStoreRefresh s
  | .wait slot mask us => Sys2Proof.Machine.execWait slot mask us s
  | .tenantWake slot cause => Sys2Proof.Machine.execTenantWake slot cause s
  | .waitTimeout slot => Sys2Proof.Machine.execWaitTimeout slot s
  | .yield slot => Sys2Proof.Machine.execYield slot s
  | .regionSet slot a0 a1 a2 a3 => Sys2Proof.Machine.execRegionSet slot a0 a1 a2 a3 s
  | .quantumEnd core us n => Sys2Proof.Machine.execQuantumEnd core us n s
  | .tenantTrap slot pc t => Sys2Proof.Machine.execTenantTrap slot pc t s
  | .tenantWatchdog slot pc => Sys2Proof.Machine.execTenantWatchdog slot pc s
  | .mpuRegionWrite core n lim v => Sys2Proof.Machine.execMpuRegionWrite core n lim v s
  | .recPut slot a0 a1 a2 => Sys2Proof.Machine.execRecPut slot a0 a1 a2 s
  | .recGet slot a0 a1 a2 => Sys2Proof.Machine.execRecGet slot a0 a1 a2 s
  | .recDel slot a0 => Sys2Proof.Machine.execRecDel slot a0 s
  | .storeUse slot => Sys2Proof.Machine.execStoreUse slot s
  | .valAdd slot a0 a1 => Sys2Proof.Machine.execValAdd slot a0 a1 s
  | .valGet slot a0 => Sys2Proof.Machine.execValGet slot a0 s
  | .generate slot => Sys2Proof.Machine.execGenerate slot s
  | .unwrap slot => Sys2Proof.Machine.execUnwrap slot s
  | .wrap slot => Sys2Proof.Machine.execWrap slot s
  | .derive slot => Sys2Proof.Machine.execDerive slot s
  | .delete slot => Sys2Proof.Machine.execDelete slot s
  | .restrict slot => Sys2Proof.Machine.execRestrict slot s
  | .info slot => Sys2Proof.Machine.execInfo slot s
  | .ctrCreate slot => Sys2Proof.Machine.execCtrCreate slot s
  | .ctrIncr slot => Sys2Proof.Machine.execCtrIncr slot s
  | .ctrRead slot => Sys2Proof.Machine.execCtrRead slot s
  | .dukptLoad slot => Sys2Proof.Machine.execDukptLoad slot s
  | .dukptNext slot => Sys2Proof.Machine.execDukptNext slot s
  | .kctOpDone slot => Sys2Proof.Machine.execKctOpDone slot s
  | .loadKey slot page => Sys2Proof.Machine.execLoadKey slot page s
  | .cipherRun slot page => Sys2Proof.Machine.execCipherRun slot page s
  | .cipherClear slot page => Sys2Proof.Machine.execCipherClear slot page s
  | .cipherAbort slot page => Sys2Proof.Machine.execCipherAbort slot page s
  | .cipherSegmentEnd kind core => Sys2Proof.Machine.execCipherSegmentEnd kind core s
  | .cipherRunDone slot page => Sys2Proof.Machine.execCipherRunDone slot page s
  | .cmGeneratorReseed => Sys2Proof.Machine.execCmGeneratorReseed s
  | .ecSign slot cls => Sys2Proof.Machine.execEcSign slot cls s
  | .ecVerify slot cls => Sys2Proof.Machine.execEcVerify slot cls s
  | .ecAgree slot cls => Sys2Proof.Machine.execEcAgree slot cls s
  | .edSign slot cls => Sys2Proof.Machine.execEdSign slot cls s
  | .edVerify slot cls => Sys2Proof.Machine.execEdVerify slot cls s
  | .rsaPublic slot cls => Sys2Proof.Machine.execRsaPublic slot cls s
  | .rsaPrivate slot cls => Sys2Proof.Machine.execRsaPrivate slot cls s
  | .extGenerate slot cls => Sys2Proof.Machine.execExtGenerate slot cls s
  | .extImport slot cls => Sys2Proof.Machine.execExtImport slot cls s
  | .publicKey slot cls => Sys2Proof.Machine.execPublicKey slot cls s
  | .pkeAbort slot => Sys2Proof.Machine.execPkeAbort slot s
  | .pkeSliceEnd finished ok => Sys2Proof.Machine.execPkeSliceEnd finished ok s
  | .hashInit slot halg => Sys2Proof.Machine.execHashInit slot halg s
  | .hmacInit slot vfy => Sys2Proof.Machine.execHmacInit slot vfy s
  | .hashUpdate slot => Sys2Proof.Machine.execHashUpdate slot s
  | .hashFinal slot tlen => Sys2Proof.Machine.execHashFinal slot tlen s
  | .hashAbort slot => Sys2Proof.Machine.execHashAbort slot s
  | .hashOpDone slot => Sys2Proof.Machine.execHashOpDone slot s
  | .mintBlockReady words => Sys2Proof.Machine.execMintBlockReady words s
  | .mintStartupTestEnd fail dur => Sys2Proof.Machine.execMintStartupTestEnd fail dur s
  | .healthFailure f => Sys2Proof.Machine.execHealthFailure f s
  | .mintRestartTimer => Sys2Proof.Machine.execMintRestartTimer s
  | .drbgGenerate slot page wait pr outreg => Sys2Proof.Machine.execDrbgGenerate slot page wait pr outreg s
  | .drbgReseed slot page wait => Sys2Proof.Machine.execDrbgReseed slot page wait s
  | .drbgAbort slot page => Sys2Proof.Machine.execDrbgAbort slot page s
  | .drbgWaitServed => Sys2Proof.Machine.execDrbgWaitServed s
  | .drbgWaitTimeout => Sys2Proof.Machine.execDrbgWaitTimeout s
  | .testSrcEnable v => Sys2Proof.Machine.execTestSrcEnable v s
  | .testSrcDisable v => Sys2Proof.Machine.execTestSrcDisable v s
  | .mintRawRead raw => Sys2Proof.Machine.execMintRawRead raw s
  | .tamperAlarm m raw => Sys2Proof.Machine.execTamperAlarm m raw s
  | .batteryModeAlarm m raw => Sys2Proof.Machine.execBatteryModeAlarm m raw s
  | .builtinTest m out => Sys2Proof.Machine.execBuiltinTest m out s
  | .batterySourceSwitch main => Sys2Proof.Machine.execBatterySourceSwitch main s
  | .batteryDomainLoss => Sys2Proof.Machine.execBatteryDomainLoss s
  | .carrierLockLoss => Sys2Proof.Machine.execCarrierLockLoss s
  | .carrierRelock => Sys2Proof.Machine.execCarrierRelock s
  | .coreLockLoss => Sys2Proof.Machine.execCoreLockLoss s
  | .coreRelock => Sys2Proof.Machine.execCoreRelock s
  | .tapReset => Sys2Proof.Machine.execTapReset s
  | .extest drive => Sys2Proof.Machine.execExtest drive s
  | .idcode => Sys2Proof.Machine.execIdcode s
  | .samplePreload capture load => Sys2Proof.Machine.execSamplePreload capture load s
  | .clamp => Sys2Proof.Machine.execClamp s
  | .highz => Sys2Proof.Machine.execHighz s
  | .bypass ir => Sys2Proof.Machine.execBypass ir s
  | .lcmb func payload stop now => Sys2Proof.Machine.execLcmb func payload stop now s
  | .imageLoad payload now => Sys2Proof.Machine.execImageLoad payload now s
  | .dbg access => Sys2Proof.Machine.execDbg access s
  | .scan => Sys2Proof.Machine.execScan s
  | .enrol => Sys2Proof.Machine.execEnrol s
  | .otpw unitId uid mfg img => Sys2Proof.Machine.execOtpw unitId uid mfg img s
  | .lcprog stop => Sys2Proof.Machine.execLcprog stop s
  | .tamperFilterRelease m raw => Sys2Proof.Machine.execTamperFilterRelease m raw s
  | .batteryDomainPowerOn main => Sys2Proof.Machine.execBatteryDomainPowerOn main s
  | .baySupplyLoss mv => Sys2Proof.Machine.execBaySupplyLoss mv s
  | .drbgRequestDone => Sys2Proof.Machine.execDrbgRequestDone s
  | .storeCommitDone ok => Sys2Proof.Machine.execStoreCommitDone ok s
  | .tagRBlock nak bn cid lastBit n => Sys2Proof.Machine.execTagRBlock nak bn cid lastBit n s

end Sys2Proof.Machine
end

