-- ==== Sys2Proof/Safety.lean ====
section
/-! DEFINITION. The terms that statements use: which parts of the state a command touches, how a request is answered, and
the invariants that every step keeps. -/

namespace Sys2Proof.Machine

/-! ### What a command leaves alone -/

/-- The parts of the state, the queue of waiting commands apart. -/
inductive Part where
  | power | sprig | link | hrb | treor | tenants | kct | cipher | pke | mint | store | guard | lc | tag | bay | bqt | free
  deriving DecidableEq, Repr

/-- `t` differs from `s` in the named parts only, and the same commands wait. -/
def State.onlyIn (ps : List Part) (s t : State) : Prop :=
  t.pending = s.pending ∧
  (.power ∈ ps ∨ t.power = s.power) ∧ (.sprig ∈ ps ∨ t.sprig = s.sprig) ∧ (.link ∈ ps ∨ t.link = s.link) ∧
  (.hrb ∈ ps ∨ t.hrb = s.hrb) ∧ (.treor ∈ ps ∨ t.treor = s.treor) ∧ (.tenants ∈ ps ∨ t.tenants = s.tenants) ∧
  (.kct ∈ ps ∨ t.kct = s.kct) ∧ (.cipher ∈ ps ∨ t.cipher = s.cipher) ∧ (.pke ∈ ps ∨ t.pke = s.pke) ∧
  (.mint ∈ ps ∨ t.mint = s.mint) ∧ (.store ∈ ps ∨ t.store = s.store) ∧ (.guard ∈ ps ∨ t.guard = s.guard) ∧
  (.lc ∈ ps ∨ t.lc = s.lc) ∧ (.tag ∈ ps ∨ t.tag = s.tag) ∧ (.bay ∈ ps ∨ t.bay = s.bay) ∧ (.bqt ∈ ps ∨ t.bqt = s.bqt) ∧
  (.free ∈ ps ∨ t.free = s.free)

/-- Every slot but `i` is as it was. -/
def State.otherSlots (i : Fin 128) (s t : State) : Prop := ∀ j : Fin 128, j ≠ i → t.tenants.slots[j] = s.tenants.slots[j]

/-- Every port but `p` is as it was, and the frame count too. -/
def State.otherPorts (p : Fin 512) (s t : State) : Prop :=
  t.sprig.frame = s.sprig.frame ∧ t.sprig.phase = s.sprig.phase ∧ ∀ q : Fin 512, q ≠ p → t.sprig.ports[q] = s.sprig.ports[q]

/-! ### Entering main-side reset (R8, R217, R378) -/

/-- What a main-side reset leaves and what it takes, from `s` to `t`: the records of the main store, OTP, the battery
domain and the tag memory stay; the link, the registers of the HRB, the supervisor's protocol state, SRAM, key registers,
contexts and volatile keys go; a slot that ran is QUIESCED. -/
def State.reenters (s t : State) : Prop :=
  t.pending = s.pending ∧ t.free = s.free ∧
  t.link = {} ∧ t.hrb = {} ∧ t.cipher = {} ∧ t.pke = {} ∧ t.treor = { params := s.treor.params } ∧
  (∀ p : Fin 512, t.sprig.ports[p] =
    { owner := s.sprig.ports[p].owner, recEn := s.sprig.ports[p].recEn, recGen := s.sprig.ports[p].recGen, recAuto := s.sprig.ports[p].recAuto }) ∧
  t.sprig.frame = 0 ∧
  (∀ i : Fin 128, t.tenants.slots[i].sram = [] ∧ t.tenants.slots[i].waiting = none ∧ t.tenants.slots[i].mbox = {} ∧
    t.tenants.slots[i].image = s.tenants.slots[i].image ∧ t.tenants.slots[i].run = s.tenants.slots[i].run ∧
    t.tenants.slots[i].stage = s.tenants.slots[i].stage ∧ t.tenants.slots[i].tenantId = s.tenants.slots[i].tenantId ∧
    t.tenants.slots[i].state = (match s.tenants.slots[i].state with
      | .running | .quiescing => .quiesced
      | st => st)) ∧
  (∀ k : Fin 32768, s.kct.entries[k].vol = false → t.kct.entries[k] = s.kct.entries[k]) ∧
  (t.mint.state = .startup ∧ t.mint.testing = true ∧ t.mint.pool = [] ∧ t.mint.s = 0) ∧
  t.store = { s.store with
    nctr := 0, vals := Vector.replicate 4096 0, queue := [], refreshPage := 0, readsLost := 0, parityRejects := 0
    lostLogged := [], parityLogged := [], ptableAwait := false, saveBankSeq := none } ∧
  t.guard = { s.guard with tampered := false, active := t.guard.active } ∧
  t.lc = { s.lc with nonce := none, dbgSession := none, halted := [] } ∧
  (t.tag.mem = s.tag.mem ∧ t.tag.running = s.tag.running ∧ t.tag.session = s.tag.session ∧ t.tag.update = none) ∧
  (t.bay = { s.bay with
    bridge := 0, reqs := [], offered := [], seenSeal := 3, seenPend := none, seenRec := 0, seenConfirmed := 0, seenEvt := 0
    seenFw := 0, seenCfg := 0, queuedHost := [], firstBridge := true }) ∧
  (t.bqt.member = s.bqt.member ∧ t.bqt.exports = s.bqt.exports ∧ t.bqt.imported = s.bqt.imported ∧ t.bqt.cache = [] ∧
    t.bqt.replay = [] ∧ t.bqt.seq = s.bqt.seqRes)

/-! ### Ports and Thyme -/

/-- Only port `p` changes, and of the store its count of cards found (R366). -/
def State.onlyPort (p : Fin 512) (s t : State) : Prop :=
  s.onlyIn [.sprig, .store] t ∧ s.otherPorts p t ∧
  t.store = { s.store with vals := t.store.vals } ∧ ∀ k : Fin 4096, k.val ≠ 2 * p.val + 1 → t.store.vals[k] = s.store.vals[k]

/-- Thyme works on an ACTIVE port whose context is the present owner's, under the present epoch, in an active period. -/
def State.working (p : Fin 512) (s : State) : Prop :=
  s.portsRun = true ∧ s.sprig.ports[p].state = .active ∧ s.sprig.ports[p].ctx.owner = s.sprig.ports[p].ownerByte ∧
  s.sprig.ports[p].ctx.epoch = s.store.portEpoch[p] ∧ s.sprig.ports[p].ctx.phase ≠ .idle

/-- The owner's core may issue a command: no other is in progress, and the LEN of CMD_ARG is at most 1,600. -/
def State.mayCommand (p : Fin 512) (s : State) : Prop :=
  s.ownerCalls p = true ∧ s.portsRun = true ∧ s.sprig.ports[p].page.busy = false ∧
  (s.sprig.ports[p].page.cmdArg.extractLsb' 0 16).toNat ≤ 1600

/-! ### The tag -/

/-- The tag takes a command APDU that came in one I-block, with nothing in progress and a latch that has not run out (R144, R149). -/
def State.takesApdu (c : Apdu) (s : State) : Prop :=
  s.tag.running = true ∧ s.tag.session = true ∧ s.tag.iso4 = true ∧ (c.cid = none ∧ s.tag.cid = 0 ∨ c.cid = some s.tag.cid) ∧
  c.ins = none ∧ c.long = false ∧ c.nad = false ∧ c.blocks = 1 ∧ s.tag.job = none ∧ s.tag.changed = false ∧ s.tag.releasedGen = none ∧ s.tag.fsd = 256

/-- The tag answers such a command with data and status word in one I-block of the other block number (R127), on the grid of the
frame delay (R126). -/
def Tag.answering (c : Apdu) (body : Bytes) (t : Tag) : Tag :=
  let b := withCrcA (pcb (if t.bn then 0x02 else 0x03) c.cid ++ body)
  { t with ppsDue := false, bn := !t.bn, acks := [], reply := some b, replySkip := 0, replyDelay := gridDelay c.n c.lastBit, lastBlock := b, txRest := [] }

/-- The answer waits for a granule of the tag memory, which the field has (R143, R146). -/
def Tag.awaiting (c : Apdu) (j : FieldJob) (t : Tag) : Tag :=
  { t with ppsDue := false, bn := !t.bn, acks := [], lastBlock := [], replyDelay := gridDelay c.n c.lastBit, job := some j, jobCid := c.cid
           jobLast := c.lastBit, jobN := c.n, jobQuiet := false, reply := none, holder := .field }

/-! ### Requests (Table 08-3) -/

/-- The supervisor takes a request: the main side is out of reset and in no save, the request's turn has come (R196, R197), and every
check of Table 08-3 passes, with `fits` for the layout of its body. -/
def State.takes (op : BitVec 16) (r : Req) (fits : Bool) (s : State) : Prop :=
  s.live = true ∧ s.turn op r = true ∧ s.verdict op r fits = .take

/-- The response to a request, as the state `s` after its effects makes it (Table 08-1, R190). -/
def State.response (op : BitVec 16) (r : Req) (status : BitVec 16) (payload : Bytes) (s : State) : OutMsg :=
  { src := .response, cls := r.cls
    bytes := message (s.major r) r.cls true false r.kind r.index (s.unitEpoch r.kind r.index) r.tag op status payload }

/-- The request has left the messages delivered, and its response is the last one in the queue of its class on port U.
`w` is what the state would be but for both; the count of class-0 requests (R198) may have moved on. -/
def State.answered (op : BitVec 16) (r : Req) (status : BitVec 16) (payload : Bytes) (w t : State) : Prop :=
  t = { w with
    link := { w.link with
      delivered := dropDelivered op r w.link.delivered
      u := { w.link.u with own := w.link.u.own.set r.cls.toNat (w.link.u.own[r.cls.toNat] ++ [w.response op r status payload]) } }
    hrb := { w.hrb with cl0Over := t.hrb.cl0Over } }

/-- The response stands in its queue right behind what was there before the request, before every event that the request's
effects queued (R196). -/
def State.answeredFirst (op : BitVec 16) (r : Req) (status : BitVec 16) (payload : Bytes) (s t : State) : Prop :=
  (t.link.u.own[r.cls.toNat])[(s.link.u.own[r.cls.toNat]).length]? =
    some { src := .response, cls := r.cls
           bytes := message (s.major r) r.cls true false r.kind r.index (t.unitEpoch r.kind r.index) r.tag op status payload } ∧
  t.link.delivered = dropDelivered op r s.link.delivered

/-- Bay has one request, of the host, to serve: the one that `r` made on the bridge, taken under the version `m` (R432). -/
def State.serves (q : BayReq) (r : Req) (m : Byte) (s : State) : Prop :=
  s.live = true ∧ s.bayOn = true ∧ s.bay.bridge = 1 ∧ s.bay.reqs = [q] ∧ q.taken = false ∧ q.host = true ∧
  s.treor.waiting = [⟨.bay q.chan, r, 0x0801, m⟩]

/-- The one request that waited is answered, under the version `m` that it was taken under. `w` is what the state would be but
for that. -/
def State.answeredLate (op : BitVec 16) (r : Req) (m : Byte) (status : BitVec 16) (payload : Bytes) (w t : State) : Prop :=
  t = { w with
    link := { w.link with u := { w.link.u with own := w.link.u.own.set r.cls.toNat (w.link.u.own[r.cls.toNat] ++ [{
      src := .response, cls := r.cls
      bytes := message m r.cls true false r.kind r.index (w.unitEpoch r.kind r.index) r.tag op status payload }]) } }
    treor := { w.treor with waiting := [] } }

/-- The firmware's call returns: status in a0, results in a1 and a2 (R247, R407). -/
def BayFw.returns (f : BayFw) (status : Word) (out : List Word) : BayFw :=
  { f with regs := match out with
      | [] => f.regs.set 9 status
      | [a] => (f.regs.set 9 status).set 10 a
      | a :: b :: _ => ((f.regs.set 9 status).set 10 a).set 11 b }

/-- The request that a command is: its opcode and its message. Commands that are no Treor request give none. -/
def asRequest : Instr → Option (BitVec 16 × Req)
  | .hello r => some (0x0001, r)
  | .echo r => some (0x0002, r)
  | .devInfo r => some (0x0003, r)
  | .adminChallenge r => some (0x0101, r)
  | .adminOpen r => some (0x0102, r)
  | .adminLockout r => some (0x0102, r)
  | .adminClose r => some (0x0103, r)
  | .paramGet r => some (0x0201, r)
  | .paramSet r => some (0x0202, r)
  | .paramList r => some (0x0203, r)
  | .slotStatus r => some (0x0301, r)
  | .slotAssign r => some (0x0302, r)
  | .slotApply r => some (0x0303, r)
  | .slotDiscardStage r => some (0x0304, r)
  | .slotQuiesce r => some (0x0305, r)
  | .slotStart r => some (0x0306, r)
  | .slotReset r => some (0x0307, r)
  | .slotRemove r => some (0x0308, r)
  | .imageWrite r => some (0x0309, r)
  | .imageCommit r => some (0x030A, r)
  | .mbxSend r => some (0x0401, r)
  | .storeStatus r => some (0x0501, r)
  | .logRead r => some (0x0502, r)
  | .mintStatus r => some (0x0601, r)
  | .lcStatus r => some (0x0701, r)
  | .lcTransitionRequest r _ => some (0x0702, r)
  | .adminKeyList r => some (0x0702, r)
  | .debugToken r => some (0x0703, r)
  | .rtcSet r => some (0x0704, r)
  | .bbkRekey r => some (0x0705, r)
  | .tamperLogRead r => some (0x0706, r)
  | .bayRequest r => some (0x0801, r)
  | .bayStatus r => some (0x0803, r)
  | .portStatus r => some (0x0901, r)
  | .portCtrlEnable r => some (0x0902, r)
  | .portCtrlDisable r => some (0x0902, r)
  | .portCtrlRetrain r => some (0x0902, r)
  | .portCtrlGenLimitSet r => some (0x0902, r)
  | .portCtrlGenLimitClear r => some (0x0902, r)
  | .portCtrlAutoRetrainSet r => some (0x0902, r)
  | .portCtrlAutoRetrainClr r => some (0x0902, r)
  | .tagwRead r => some (0x0A01, r)
  | .tagwUpdate r => some (0x0A02, r)
  | .tagwStatus r => some (0x0A03, r)
  | .bqtStatus r => some (0x0B01, r)
  | .bqtJoin r => some (0x0B02, r)
  | .bqtLeave r => some (0x0B02, r)
  | .bqtRevoke r => some (0x0B03, r)
  | .envDeliver r => some (0x0B04, r)
  | .envPart r => some (0x0B04, r)
  | .envConfirm r => some (0x0B04, r)
  | .envRefuse r => some (0x0B04, r)
  | .envCancel r => some (0x0B04, r)
  | .migrateExport r => some (0x0B06, r)
  | _ => none

/-! ### The key and counter table -/

/-- The slot's core may start an operation on its access page: none is in progress, KCT keys can be used (R277, R286), and
the slot's entries in the cache fit its lines. -/
def State.mayKct (i : Fin 128) (s : State) : Prop :=
  s.calls i = true ∧ (s.kct.pages[i]).busy = false ∧ s.guard.tampered = false ∧ s.guard.bbk = .valid ∧ (s.kct.lru[i]).length ≤ s.lines i

/-- The handle names entry `k`, which is `e`, cached, whole and fit for use (Table 11-5). -/
def State.holdsKey (i : Fin 128) (h : Word) (k : KIdx) (e : Entry) (s : State) : Prop :=
  handleIndex h = k ∧ s.kct.entries[k] = e ∧ s.handleOk (slotOwner i) h = true ∧ k.val ∈ s.kct.lru[i] ∧ e.lost = false ∧ s.useCheck e 3 = none

/-- There is room for one more entry, which is never to be VOLATILE: the quota, a free index, a line of the cache, a store that
commits (R278, R280). -/
def State.kctFree (i : Fin 128) (k : KIdx) (s : State) : Prop :=
  s.kctUsed i < (s.tenants.slots[i]).run.kct ∧ s.kct.fresh = k.val ∧ k.val < tenantEntries ∧ (s.kct.lru[i]).length < s.lines i ∧ s.commits = true

/-- The state with what a slot's SRAM holds in `t`: a submission cut short may have written some of its output (R308, log 21). -/
def State.withSram (i : Fin 128) (t s : State) : State := s.updSlot i fun k => { k with sram := (t.tenants.slots[i]).sram }

/-- The operation has ended: its results, its status, DONE, and a cause for WAIT (R286, R248). -/
def State.kctDone (i : Fin 128) (status : BitVec 16) (out : List Word) (buf : Bytes) (s t : State) : Prop :=
  (t.kct.pages[i]).busy = false ∧ (t.kct.pages[i]).cur = none ∧ (t.kct.pages[i]).status = status ∧ (t.kct.pages[i]).evt.set = true ∧
  (t.kct.pages[i]).out0 = out.getD 0 0 ∧ (t.kct.pages[i]).out1 = out.getD 1 0 ∧ (t.kct.pages[i]).out2 = out.getD 2 0 ∧ (t.kct.pages[i]).buf = buf ∧
  (∀ j : Fin 128, j ≠ i → t.kct.pages[j] = s.kct.pages[j]) ∧ t.tenants.slots[i] = { s.tenants.slots[i] with jobDone := true } ∧ s.otherSlots i t

/-! ### The engines -/

/-- The slot's core may issue an operation on its cipher page `p`, which is in its grant and in no operation (R293, R295); the
slot's entries in the cache fit its lines. -/
def State.mayCipher (i : Fin 128) (p : Fin 32) (s : State) : Prop :=
  s.calls i = true ∧ p.val < (s.tenants.slots[i]).run.cipher ∧ ((s.cipher.pages[i])[p]).busy = false ∧ (s.kct.lru[i]).length ≤ s.lines i

/-- Every other cipher page is as it was. -/
def State.otherPages (i : Fin 128) (p : Fin 32) (s t : State) : Prop :=
  ∀ (j : Fin 128) (q : Fin 32), j ≠ i ∨ q ≠ p → (t.cipher.pages[j])[q] = (s.cipher.pages[j])[q]

/-- The rows of the public-key engine by their OP (Table 13-9), 1 to 10. -/
def pkeRow (i : Fin 128) (cls : BitVec 2) (op : Nat) : Instr :=
  match op with
  | 1 => .ecSign i cls | 2 => .ecVerify i cls | 3 => .ecAgree i cls | 4 => .edSign i cls | 5 => .edVerify i cls
  | 6 => .rsaPublic i cls | 7 => .rsaPrivate i cls | 8 => .extGenerate i cls | 9 => .extImport i cls | _ => .publicKey i cls

/-- The slot's core may start a job: its PKE half is in none, and its entries in the cache fit its lines. -/
def State.mayPke (i : Fin 128) (s : State) : Prop :=
  s.calls i = true ∧ (s.pke.pages[i]).busy = false ∧ (s.kct.lru[i]).length ≤ s.lines i

/-- The operands of a job pass steps 3 and 4 of Table 13-10: they fit, the result has room and shares no byte with the
source, and both ranges may be used. -/
def State.pkeOperands (i : Fin 128) (op : Nat) (e : Entry) (secret : Bytes) (s : State) : Prop :=
  ∃ res, pkeFits op (s.pke.pages[i]).arg e secret (if pkeReads op then (s.pke.pages[i]).srclen.toNat else 0)
      (some (s.dmaRead i (s.pke.pages[i]).src.toNat (if pkeReads op then (s.pke.pages[i]).srclen.toNat else 0))) = some res ∧
    res ≤ (s.pke.pages[i]).dstlen.toNat ∧
    (res = 0 ∨ overlap (s.pke.pages[i]).src.toNat (if pkeReads op then (s.pke.pages[i]).srclen.toNat else 0) (s.pke.pages[i]).dst.toNat (s.pke.pages[i]).dstlen.toNat = false) ∧
    s.badByte i (s.pke.pages[i]).src.toNat (if pkeReads op then (s.pke.pages[i]).srclen.toNat else 0) false = none ∧
    (res = 0 ∨ s.badByte i (s.pke.pages[i]).dst.toNat (s.pke.pages[i]).dstlen.toNat true = none)

/-- A slot charged for `m` microseconds of core time in which it retired `ins` instructions (R241, R243, R262). -/
def Slot.ranFor (m ins : Nat) (k : Slot) : Slot :=
  { k with vtime := k.vtime + (if k.run.weight = 0 then 0 else m * (vUnit / k.run.weight)), sinceCall := k.sinceCall + m
           cycle := k.cycle + BitVec.ofNat 64 (500 * m), instret := k.instret + BitVec.ofNat 64 ins }

/-- A slot that had run `m` microseconds, and `ins` instructions, since it was last charged has made a call that changes it by `f`. -/
def State.afterCall (i : Fin 128) (m ins : Nat) (f : Slot → Slot) (s : State) : State :=
  { s.updSlot i (fun k => f { k.ranFor m ins with sinceCall := 0 }) with free := s.free + 1 }

/-- An engine has ended an operation of the slot: a cause for WAIT (R248). -/
def State.woken (i : Fin 128) (s t : State) : Prop := t.tenants.slots[i] = { s.tenants.slots[i] with jobDone := true } ∧ s.otherSlots i t

/-! ### Invariants -/

/-- The battery event log holds at most 16 entries, and the mark of those imported lies in it (R447). -/
def State.logOk (s : State) : Prop := s.guard.log.length ≤ 16 ∧ s.guard.mark.toNat ≤ s.guard.log.length

/-- No epoch is 0x0000 (R18). -/
def State.epochsOk (s : State) : Prop :=
  (∀ i : Fin 128, s.store.slotEpoch[i] ≠ 0) ∧ (∀ p : Fin 512, s.store.portEpoch[p] ≠ 0) ∧ (∀ c : Fin 4, s.store.chanEpoch[c] ≠ 0)

/-- The tag memory is in its one canonical form. -/
def State.tagOk (s : State) : Prop := Memory.wf s.tag.mem = true

end Sys2Proof.Machine
end

