-- ==== Sys2Proof/Certificates/Slice0/Obligations.lean ====
section
/-! DEFINITION. The statements about the model, each formalising rules of the spec; a docstring names the rules, the commands and
the log entries that a statement rests on. -/

open Sys2Proof Sys2Proof.Machine

/-- R8, R18, R365, R369, R376 to R378, R381 (SUPPLY_LOSS, RESET_N_ASSERT, MAIN_RESET_RELEASE): a supply below its hold threshold, or RESET_N low, holds the main side in
reset: what its registers held is gone, what the main store, OTP and the battery domain hold stays. With every supply clear and both pins high it leaves reset: recall
phases 1 and 2 count the boot, renew every epoch of slots and ports and resume the nonce counter at its reservation. -/
def Obligations.MainSideIsHeldAndReleased : Prop :=
  (∀ (lv : Levels) (s : State), lv.core < 720 ∨ lv.phy < 900 ∨ lv.io < 1600 →
    ∃ t, exec (.supplyLoss lv) s = .next t ∧ t.power.run = .held ∧ t.power.fell = true ∧ t.power.levels = lv ∧ s.reenters t) ∧
  (∀ (lv : Levels) (s : State), 720 ≤ lv.core → 900 ≤ lv.phy → 1600 ≤ lv.io →
    exec (.supplyLoss lv) s = .next { s with power := { s.power with levels := lv } }) ∧
  (∀ s : State, s.live = true →
    ∃ t, exec .resetNAssert s = .next t ∧ t.power.run = .held ∧ t.power.resetN = false ∧ t.power.fell = s.power.fell ∧ s.reenters t) ∧
  (∀ s : State, s.power.run = .saving ∨ s.power.run = .held →
    exec .resetNAssert s = .next { s with power := { s.power with resetN := false } }) ∧
  (∀ (pins : PowerUp) (b : BitVec 48) (s : State),
    765 ≤ pins.levels.core → 950 ≤ pins.levels.phy → 1680 ≤ pins.levels.io → pins.pwrFailN = true → pins.resetN = true →
    pins.cellOk = true → s.power.run = .held → s.store.bootRec = some b →
    ∃ t, exec (.mainResetRelease pins) s = .next t ∧
      t.power.run = .bootRom ∧ t.power.phase = 2 ∧ t.power.levels = pins.levels ∧ t.power.fell = false ∧ t.power.savedRun = false ∧
      t.hrb.rstCause = (if s.power.fell then 1 else if s.power.savedRun then 3 else 2) ∧
      t.hrb.rclMain = 1 ∧ t.hrb.rclTagw = 1 ∧ t.hrb.rclBay = (if s.bay.running = true ∧ s.bay.recalled = false then 1 else 0) ∧
      t.bay.bridge = (if s.bay.running = true then 0 else 3) ∧
      t.store.bootRec = some (b + 1) ∧ t.store.nctr = s.store.nctrRes ∧ t.store.nctrRes = s.store.nctrRes + 65536 ∧
      (∀ i : Fin 128, t.store.slotEpoch[i] = if s.store.slotEpoch[i] = 0xFFFF then 1 else s.store.slotEpoch[i] + 1) ∧
      (∀ p : Fin 512, t.store.portEpoch[p] = if s.store.portEpoch[p] = 0xFFFF then 1 else s.store.portEpoch[p] + 1) ∧
      (∀ c : Fin 4, t.store.chanEpoch[c] = if s.store.chanEpoch[c] = 0xFFFF then 1 else s.store.chanEpoch[c] + 1) ∧
      t.store.journal = s.store.journal ∧ t.store.dual = s.store.dual ∧
      t.store.granules = s.store.granules ∧ t.store.bankA = s.store.bankA ∧ t.store.bankB = s.store.bankB ∧
      t.store.pdc = s.store.pdc ∧ t.store.carry = s.store.carry ∧
      t.guard.rtc = s.guard.rtc ∧ t.guard.log = s.guard.log ∧ t.tag.mem = s.tag.mem ∧ t.treor.params = s.treor.params ∧
      (s.lc.openSlot = none → t.lc.words = s.lc.words) ∧ t.lc.unitId = s.lc.unitId ∧ t.lc.admins = s.lc.admins ∧ t.pending = s.pending)

/-- R369, R379, R385, R386, R396 (SUPERVISOR_IMAGE_START, MAIN_RECALL_DONE, SLOT_COLD_START): the newer valid image starts, or the other where it fails; with none the boot ROM serves alone.
The end of main-store recall shows in HRB_RECALL, every port takes its stored settings, the newest save bank gives the SAVE_ON_FAIL values, and the battery domain is armed in DEPLOYED.
The next slot of the list then starts cold: its SRAM holds the image's initial data, its pc is the entry point. -/
def Obligations.SupervisorStartsAndRecalls : Prop :=
  (∀ s : State, s.power.run = .bootRom → s.lc.state ≠ .blank → s.power.imgA.header = true → s.power.imgA.body = true →
    (s.power.imgB.header = false ∨ s.power.imgB.version ≤ s.power.imgA.version) →
    exec .supervisorImageStart s =
      .next { s with power := { s.power with run := .running }, hrb := { s.hrb with fwver := fwverOf s.power.imgA false } }) ∧
  (∀ s : State, s.power.run = .bootRom → s.lc.state ≠ .blank → s.power.imgB.header = true → s.power.imgB.body = true →
    (s.power.imgA.header = false ∨ s.power.imgA.version < s.power.imgB.version) →
    exec .supervisorImageStart s =
      .next { s with power := { s.power with run := .running }, hrb := { s.hrb with fwver := fwverOf s.power.imgB true } }) ∧
  (∀ s : State, s.power.run = .bootRom → s.lc.state ≠ .blank → s.power.imgA.header = true → s.power.imgA.body = false →
    s.power.imgB.header = true → s.power.imgB.body = true → s.power.imgB.version ≤ s.power.imgA.version →
    ∃ t, exec .supervisorImageStart s = .next t ∧ t.power = { s.power with run := .running } ∧
      t.hrb = { s.hrb with fwver := fwverOf s.power.imgB true } ∧ s.onlyIn [.power, .hrb, .store] t ∧
      t.store = { s.store with log := t.store.log, logSeq := t.store.logSeq } ∧
      (s.commits = true → t.store.log.getLast?.map (fun e => (e.code, e.sub, e.data)) =
        some (0x23, 0, padTo 40 (leN 4 s.power.imgA.version.toNat ++ leN 4 s.power.imgB.version.toNat)))) ∧
  (∀ s : State, s.power.run = .bootRom → s.lc.state ≠ .blank → s.power.imgB.header = true → s.power.imgB.body = false →
    s.power.imgA.header = true → s.power.imgA.body = true → s.power.imgA.version < s.power.imgB.version →
    ∃ t, exec .supervisorImageStart s = .next t ∧ t.power = { s.power with run := .running } ∧
      t.hrb = { s.hrb with fwver := fwverOf s.power.imgA false } ∧ s.onlyIn [.power, .hrb, .store] t ∧
      t.store = { s.store with log := t.store.log, logSeq := t.store.logSeq } ∧
      (s.commits = true → t.store.log.getLast?.map (fun e => (e.code, e.sub, e.data)) =
        some (0x23, 1, padTo 40 (leN 4 s.power.imgB.version.toNat ++ leN 4 s.power.imgA.version.toNat)))) ∧
  (∀ s : State, s.power.run = .bootRom → s.lc.state ≠ .blank →
    (s.power.imgA.header = false ∨ s.power.imgA.body = false) → (s.power.imgB.header = false ∨ s.power.imgB.body = false) →
    exec .supervisorImageStart s =
      .next { s with power := { s.power with run := .serviceOnly }, hrb := { s.hrb with rclMain := 3 } }) ∧
  (∀ s : State, s.power.run ≠ .bootRom ∨ s.lc.state = .blank → exec .supervisorImageStart s = .next s) ∧
  (∀ (ms : Nat) (lost : List Nat) (s : State), s.supervisor = true → s.hrb.rclMain = 1 →
    ∃ t, exec (.mainRecallDone ms lost) s = .next t ∧ t.hrb.rclMain = 2 ∧ t.hrb.pagesMain = 65536 ∧ t.power.phase = 7 ∧ t.power.run = .running ∧
      t.hrb.elapsed = BitVec.ofNat 16 (min 0xFFFF ms)) ∧
  (∀ (ms : Nat) (lost : List Nat) (s : State), s.supervisor = true → s.hrb.rclMain = 1 → s.store.zeroDue = false → s.lc.state = .deployed →
    s.guard.bbk = .valid →
    ∃ t, exec (.mainRecallDone ms lost) s = .next t ∧ t.guard.arm = true ∧ t.guard.bbk = .valid ∧
      (∀ p : Fin 512, t.sprig.ports[p].en = t.sprig.ports[p].recEn ∧ t.sprig.ports[p].genLimit = t.sprig.ports[p].recGen ∧
        t.sprig.ports[p].autoRetrain = t.sprig.ports[p].recAuto)) ∧
  (∀ (b : SaveBank) (ms : Nat) (lost : List Nat) (s : State), s.supervisor = true → s.hrb.rclMain = 1 → s.store.zeroDue = false →
    s.store.newestBank = some b → (∀ i : Fin 128, s.tenants.slots[i].removing = false) →
    ∃ t, exec (.mainRecallDone ms lost) s = .next t ∧ ∀ k : Fin 4096, t.store.vals[k] = b.vals.getD k.val 0) ∧
  (∀ (ms : Nat) (lost : List Nat) (s : State), s.supervisor = true → s.hrb.rclMain = 1 → s.store.zeroDue = false → s.lc.state = .deployed →
    s.guard.bbk ≠ .valid → s.guard.rekey = none →
    ∃ t, exec (.mainRecallDone ms lost) s = .next t ∧ t.guard.tampered = true ∧ t.hrb.evtB[1].set = true) ∧
  (∀ (ms : Nat) (lost : List Nat) (s : State), s.supervisor = false ∨ s.hrb.rclMain ≠ 1 → exec (.mainRecallDone ms lost) s = .next s) ∧
  (∀ (i : Fin 128) (r : List (Fin 128)) (m : Bytes) (s : State), s.power.coldStarts = i :: r → s.supervisor = true → s.hrb.rclMain = 2 →
    s.tenants.slots[i].restart = true → s.tenants.slots[i].removing = false → s.tenants.slots[i].state = .quiesced → s.tenants.slots[i].image = some m →
    s.tenants.slots[i].imageOk = true → s.lc.state = .deployed → s.guard.tampered = false → s.mint.state ≠ .failed →
    ∃ t, exec (.slotColdStart i) s = .next t ∧ t.power = { s.power with coldStarts := r } ∧
      t.tenants.slots[i].state = .running ∧ t.tenants.slots[i].restart = false ∧ t.tenants.slots[i].cold = false ∧
      t.tenants.slots[i].sram = Memory.ofBytes 0 (imageData m) ∧ t.tenants.slots[i].pc = BitVec.ofNat 32 (fld m 28 4) ∧
      t.tenants.slots[i].regs = Vector.replicate 31 0 ∧ t.tenants.slots[i].regions = Vector.replicate 4 none ∧
      t.tenants.slots[i].run = s.tenants.slots[i].run ∧ s.otherSlots i t ∧
      (∀ p : Fin 512, t.sprig.ports[p] = { s.sprig.ports[p] with page := t.sprig.ports[p].page }) ∧ (s.requests i = 0 → t.sprig = s.sprig) ∧
      s.onlyIn [.power, .tenants, .kct, .cipher, .pke, .mint, .hrb, .link, .treor, .sprig, .free] t)

/-- R367, R387, R388, R392 to R396 (START_SEED_REFRESH, HOURLY_SAVE, POWER_FAIL_SAVE, BACKSTOP_SAVE, SAVE_DONE): the carry-over seed is written with its reason and the save bank takes the values
in use; a save stops every port and drops what the store has queued; its end commits the bank, the seed and the power-down record. -/
def Obligations.SavesAreWritten : Prop :=
  (∀ s : State, s.supervisor = true → s.hrb.rclMain = 2 → s.mint.state = .ready → s.power.seedDone = false → s.commits = true →
    ∃ t c, exec .startSeedRefresh s = .next t ∧ t.store = { s.store with carry := some c } ∧
      c.reason = 2 ∧ c.seed.length = 32 ∧ c.boot = BitVec.ofNat 64 s.boots ∧ c.rtc = s.guard.rtc ∧
      t.power = { s.power with seedDone := true } ∧ s.onlyIn [.power, .store, .mint, .free] t) ∧
  (∀ s : State, s.power.seedDone = true → exec .startSeedRefresh s = .next s) ∧
  (∀ s : State, s.supervisor = true → s.hrb.rclMain = 2 → s.hrb.uptime ≠ 0 → s.hrb.uptime.toNat % 3600 = 0 → s.commits = true →
    (∀ b, s.store.newestBank = some b → b.seq ≠ 0xFFFFFFFFFFFF) →
    ∃ t b c, exec .hourlySave s = .next t ∧ t.store.newestBank = some b ∧ b.vals = s.store.vals.toList ∧
      t.store.carry = some c ∧ c.reason = 1 ∧ c.rtc = s.guard.rtc ∧ t.store.vals = s.store.vals ∧
      t.store.journal = s.store.journal ∧ t.store.dual = s.store.dual ∧ t.store.log = s.store.log ∧
      s.onlyIn [.store, .mint, .free] t) ∧
  (∀ s : State, s.live = true →
    ∃ t, exec .powerFailSave s = .next t ∧ t.power = { s.power with pwrFailN := false, run := .saving, backstop := false, limited := decide (s.power.phase < 4) } ∧
      t.store.queue = [] ∧ t.treor = { s.treor with waiting := [] } ∧ (∀ p : Fin 512, t.sprig.ports[p].state = .off) ∧
      t.pending = s.pending ∧ t.lc = { s.lc with dbgSession := none, halted := [] } ∧
      (∀ i : Fin 128, t.tenants.slots[i] = { s.tenants.slots[i] with jobDone := t.tenants.slots[i].jobDone, sram := t.tenants.slots[i].sram } ∧
        (s.requests i = 0 → t.tenants.slots[i].sram = s.tenants.slots[i].sram)) ∧ t.bqt = s.bqt) ∧
  (∀ s : State, s.live = false → exec .powerFailSave s = .next { s with power := { s.power with pwrFailN := false } }) ∧
  (∀ s : State, s.live = true → s.power.pwrFailN = true →
    ∃ t, exec .backstopSave s = .next t ∧ t.power = { s.power with run := .saving, backstop := true, limited := decide (s.power.phase < 4) } ∧
      t.store.queue = [] ∧ t.treor = { s.treor with waiting := [] } ∧ (∀ p : Fin 512, t.sprig.ports[p].state = .off) ∧
      t.pending = s.pending ∧ t.lc = { s.lc with dbgSession := none, halted := [] } ∧
      (∀ i : Fin 128, t.tenants.slots[i] = { s.tenants.slots[i] with jobDone := t.tenants.slots[i].jobDone, sram := t.tenants.slots[i].sram } ∧
        (s.requests i = 0 → t.tenants.slots[i].sram = s.tenants.slots[i].sram)) ∧ t.bqt = s.bqt) ∧
  (∀ (dur : BitVec 16) (s : State), s.power.run = .saving → s.power.limited = false → s.power.resetN = true → s.commits = true →
    (∀ b, s.store.newestBank = some b → b.seq ≠ 0xFFFFFFFFFFFF) →
    ∃ t b p c, exec (.saveDone dur) s = .next t ∧ t.store.newestBank = some b ∧ b.vals = s.store.vals.toList ∧
      t.store.pdc = some p ∧ p.bank = b.seq ∧ p.dur = dur ∧ p.backstop = s.power.backstop ∧ p.boot = BitVec.ofNat 64 s.boots ∧
      t.store.carry = some c ∧ c.reason = 0 ∧ t.power = { s.power with run := .saveDone, savedRun := true } ∧
      s.onlyIn [.power, .store, .mint, .free] t) ∧
  (∀ (dur : BitVec 16) (s : State), s.power.run = .saving → s.power.limited = true → s.power.resetN = true →
    exec (.saveDone dur) s = .next { s with power := { s.power with run := .saveDone, savedRun := true } })

/-- R372, R349, R134, R500, R501 (STORE_REFRESH, NV_WP_RISE, CARRIER_LOCK_LOSS, CARRIER_RELOCK, CORE_LOCK_LOSS, CORE_RELOCK): a refresh moves on by a page; NV_WP_N
high lets the partition table that waited be written, and asks the arbiter of the tag window for the identity rows; a lost carrier lock notes the ports that were on, and the relock leaves each a retraining. -/
def Obligations.RefreshPinsAndLocks : Prop :=
  (∀ s : State, s.live = true → exec .storeRefresh s = .next { s with store := { s.store with refreshPage := s.store.refreshPage + 1 } }) ∧
  (∀ (rows table : Bool) (s : State), s.supervisor = false ∨ (s.tag.rowsAwait = false ∧ s.store.ptableAwait = false) →
    exec (.nvWpRise rows table) s = .next { s with power := { s.power with nvWpN := true } }) ∧
  (∀ (rows : Bool) (s : State), s.supervisor = true → s.tag.rowsAwait = false → s.store.ptableAwait = true →
    ∃ t, exec (.nvWpRise rows true) s = .next t ∧
      t.store = { s.store with ptable := .good, ptableAwait := false, log := t.store.log, logSeq := t.store.logSeq } ∧
      (s.commits = true → t.store.log.getLast?.map (fun e => (e.code, e.sub)) = some (0x07, 2)) ∧
      t.power = { s.power with nvWpN := true } ∧ s.onlyIn [.power, .store] t) ∧
  (∀ (rows : Bool) (s : State), s.supervisor = true → s.tag.rowsAwait = false → s.store.ptableAwait = true →
    ∃ t, exec (.nvWpRise rows false) s = .next t ∧ t.store = { s.store with log := t.store.log, logSeq := t.store.logSeq } ∧
      t.power = { s.power with nvWpN := true } ∧ s.onlyIn [.power, .store] t) ∧
  (∀ (rows table : Bool) (s : State), s.supervisor = true → s.tag.rowsAwait = true → s.tag.job = none →
    ∃ t, exec (.nvWpRise rows table) s = .next t ∧ t.tag = { s.tag with
        mainJobs := s.tag.mainJobs ++ [.identity rows], holder := if s.tag.holder = .none then .main else s.tag.holder } ∧
      t.power = { s.power with nvWpN := true } ∧ s.onlyIn [.power, .tag, .store] t) ∧
  (∀ s : State, s.live = true → s.power.carLock = true →
    ∃ t, exec .carrierLockLoss s = .next t ∧ t.power.carLock = false ∧
      (∀ p : Fin 512, p.val ∈ t.power.lostPorts ↔ s.sprig.ports[p].state ≠ .off) ∧
      (∀ p : Fin 512, t.sprig.ports[p] = { s.sprig.ports[p] with sent := none }) ∧ t.sprig.frame = s.sprig.frame ∧
      t.power = { s.power with carLock := false, lostPorts := t.power.lostPorts } ∧ s.onlyIn [.power, .sprig] t) ∧
  (∀ s : State, s.live = true → s.power.carLock = false →
    ∃ t, exec .carrierRelock s = .next t ∧ t.power = { s.power with carLock := true, lostPorts := [] } ∧
      (∀ p : Fin 512, p.val ∈ s.power.lostPorts → t.sprig.ports[p] = s.sprig.ports[p].pend 2) ∧
      (∀ p : Fin 512, p.val ∉ s.power.lostPorts → t.sprig.ports[p] = s.sprig.ports[p]) ∧ t.sprig.frame = s.sprig.frame ∧
      s.onlyIn [.power, .sprig] t) ∧
  (∀ s : State, s.live = true → exec .coreLockLoss s = .next { s with power := { s.power with coreLock := false } }) ∧
  (∀ s : State, s.live = true → exec .coreRelock s = .next { s with power := { s.power with coreLock := true } })

/-- R30, R32, R54, R56, R57, R87, R18, Table 02-14 (FRAME_BOUNDARY): the device-wide frame count goes on by one; every port makes the transition that is due,
and the epoch of a port that leaves FAULT moves on, as does that of one whose owner or epoch was to change. What each pair carries is the window coded in 8b/10b. -/
def Obligations.FrameBoundaryMovesPorts : Prop :=
  (∀ s : State, s.live = true → s.power.carLock = true →
    ∃ t, exec .frameBoundary s = .next t ∧ t.sprig.frame = s.sprig.frame + 1 ∧ t.sprig.phase = 0 ∧
      (∀ p : Fin 512, s.sprig.ports[p].en = false → t.sprig.ports[p].state = .off ∧ t.sprig.ports[p].sent = none) ∧
      (∀ p : Fin 512, s.sprig.ports[p].due = none → s.sprig.ports[p].en = true → s.sprig.ports[p].state = .off → t.sprig.ports[p].state = .training) ∧
      (∀ p : Fin 512, s.sprig.ports[p].due = none → s.sprig.ports[p].en = true → s.sprig.ports[p].state = .idleSense ∨ s.sprig.ports[p].state = .active →
        s.sprig.ports[p].gotUp = true → s.sprig.ports[p].out = none → s.sprig.ports[p].pendCause = 0 → 16 ≤ s.sprig.ports[p].fails →
        t.sprig.ports[p].state = .fault ∧ t.sprig.ports[p].cause = 2 ∧ t.sprig.ports[p].evFault.set = true) ∧
      (∀ p : Fin 512, s.sprig.ports[p].due = none → s.sprig.ports[p].en = true → s.sprig.ports[p].state = .idleSense → s.sprig.ports[p].gotUp = true →
        s.sprig.ports[p].out = none → s.sprig.ports[p].pendCause = 0 → s.sprig.ports[p].fails < 16 → s.sprig.ports[p].askRetrain = false →
        s.sprig.ports[p].askWake = true → s.sprig.ports[p].delayOver = false →
        t.sprig.ports[p].state = .active ∧ t.sprig.ports[p].askWake = false) ∧
      (∀ p : Fin 512, s.sprig.ports[p].due = none → s.sprig.ports[p].state = .fault → s.sprig.ports[p].en = false →
        t.store.portEpoch[p] = if s.store.portEpoch[p] = 0xFFFF then 1 else s.store.portEpoch[p] + 1) ∧
      (∀ p : Fin 512, s.sprig.ports[p].due = none → s.sprig.ports[p].state ≠ .fault → t.store.portEpoch[p] = s.store.portEpoch[p]) ∧
      (∀ p : Fin 512, s.sprig.ports[p].due ≠ none → s.sprig.ports[p].state ≠ .fault → t.sprig.ports[p].due = none ∧
        t.store.portEpoch[p] = if s.store.portEpoch[p] = 0xFFFF then 1 else s.store.portEpoch[p] + 1) ∧
      (∀ p : Fin 512, s.sprig.ports[p].due = some .free → t.sprig.ports[p].owner = none) ∧
      (∀ p : Fin 512, s.sprig.ports[p].due ≠ some .free → t.sprig.ports[p].owner = s.sprig.ports[p].owner) ∧
      (∀ p : Fin 512, s.sprig.ports[p].due = none → t.sprig.ports[p].page = s.sprig.ports[p].page) ∧
      (∀ p : Fin 512, t.sprig.ports[p].en = s.sprig.ports[p].en ∧ t.sprig.ports[p].recEn = s.sprig.ports[p].recEn ∧
        t.sprig.ports[p].hold = s.sprig.ports[p].holdActive ∧ t.sprig.ports[p].wakeOn = s.sprig.ports[p].wakeEn) ∧
      (∀ p : Fin 512, t.sprig.ports[p].line = match t.sprig.ports[p].sent with
        | none => []
        | some w => encodeSyms false (windowCodes w.header w.payload)) ∧
      t.store = { s.store with portEpoch := t.store.portEpoch } ∧ (s.cipher.held = [] → t.cipher = s.cipher) ∧
      s.onlyIn [.sprig, .store, .hrb, .link, .treor, .cipher] t) ∧
  (∀ s : State, s.live = false ∨ s.power.carLock = false → exec .frameBoundary s = .next s)

/-- R30, R31, R35, R37, R39, R46 (UPLINK_BLOCK): a window whose 90 symbols are no good block is answered with NAK and counted; a good one with the wrong frame tag is a
fault of the link; an unexpected SEQ is one of the protocol. No other port changes. -/
def Obligations.UplinkBlockIsJudged : Prop :=
  (∀ (p : Fin 512) (w : UpWindow) (s : State), s.live = true → s.power.carLock = true →
    s.sprig.ports[p].state = .idleSense ∨ s.sprig.ports[p].state = .active → s.sprig.ports[p].gotUp = false → s.sprig.ports[p].askPing = false →
    w.coded = false ∨ w.crc ≠ windowCrc w.hdr w.payload → s.sprig.ports[p].dropped = 0 →
    exec (.uplinkBlock p w) s = .next (s.updPort p fun x =>
      { x with gotUp := true, ack := { av := true, nak := true, aseq := x.expect }, fails := x.fails + 1, good := 0 })) ∧
  (∀ (p : Fin 512) (hdr : Word) (pay : Bytes) (d : Int) (s : State), s.live = true → s.power.carLock = true →
    s.sprig.ports[p].state = .idleSense ∨ s.sprig.ports[p].state = .active → s.sprig.ports[p].gotUp = false → s.sprig.ports[p].pendCause = 0 →
    pay.length = 80 → s.sprig.ports[p].dropped = 0 →
    hdr.extractLsb' 26 6 ≠ s.sprig.frame.extractLsb' 0 6 →
    exec (.uplinkBlock p ⟨encodeSyms false (windowCodes hdr pay), d⟩) s = .next (s.updPort p fun x => { x with gotUp := true, fails := 0, pendCause := 2 })) ∧
  (∀ (p : Fin 512) (hdr : Word) (pay : Bytes) (d : Int) (s : State), s.live = true → s.power.carLock = true →
    s.sprig.ports[p].state = .idleSense ∨ s.sprig.ports[p].state = .active → s.sprig.ports[p].gotUp = false → s.sprig.ports[p].pendCause = 0 →
    s.sprig.ports[p].out = none → pay.length = 80 → s.sprig.ports[p].dropped = 0 →
    hdr.extractLsb' 26 6 = s.sprig.frame.extractLsb' 0 6 → hdr.extractLsb' 21 3 = 0 → (hdr.extractLsb' 14 7).toNat ≤ 80 →
    d = s.sprig.ports[p].delay0 →
    exec (.uplinkBlock p ⟨encodeSyms false (windowCodes hdr pay), d⟩) s = .next (s.updPort p fun x => { x with gotUp := true, fails := 0, ack := {}, delay := BitVec.ofInt 7 d })) ∧
  (∀ (p : Fin 512) (hdr : Word) (pay : Bytes) (d : Int) (s : State), s.live = true → s.power.carLock = true →
    s.sprig.ports[p].state = .idleSense ∨ s.sprig.ports[p].state = .active → s.sprig.ports[p].gotUp = false → s.sprig.ports[p].pendCause = 0 →
    s.sprig.ports[p].out = none → pay.length = 80 → s.sprig.ports[p].dropped = 0 →
    hdr.extractLsb' 26 6 = s.sprig.frame.extractLsb' 0 6 → hdr.extractLsb' 21 3 = 1 → (hdr.extractLsb' 14 7).toNat ≤ 80 →
    hdr.extractLsb' 24 2 = 0 → hdr.extractLsb' 4 4 ≠ s.sprig.ports[p].expect → hdr.extractLsb' 4 4 + 1 ≠ s.sprig.ports[p].expect →
    d = s.sprig.ports[p].delay0 →
    exec (.uplinkBlock p ⟨encodeSyms false (windowCodes hdr pay), d⟩) s = .next (s.updPort p fun x => { x with gotUp := true, fails := 0, delay := BitVec.ofInt 7 d, pendCause := 7 })) ∧
  (∀ (p : Fin 512) (w : UpWindow) (s : State), s.sprig.ports[p].gotUp = true → exec (.uplinkBlock p w) s = .next s)

/-- R38, R39, R49, R51, R57 (TRAINING_COMPLETE, TRAINING_TIMEOUT, DATA_BLOCK_UNDELIVERED, UPLINK_LOSS, AUTO_RETRAIN_DELAY, PING): what each event leaves
for the next boundary, and the ping that an idle port sends.
R55, R58, Table 02-15 (PORT_ENABLE, RETRAIN, WAKE, RELEASE, HOLD_ACTIVE): each write changes its own bit or leaves its request for the next boundary. -/
def Obligations.PortsFollowEventsAndOrders : Prop :=
  (∀ (p : Fin 512) (s : State), s.live = true → s.power.carLock = true → s.sprig.ports[p].state = .training → s.sprig.ports[p].trainStep = 1 →
    8 ≤ s.sprig.ports[p].good → exec (.trainingComplete p) s = .next (s.updPort p fun x => { x with trained := true })) ∧
  (∀ (p : Fin 512) (s : State), s.live = true → s.power.carLock = true → s.sprig.ports[p].state = .training → s.sprig.ports[p].pendCause = 0 →
    s.sprig.ports[p].trainStart + 4096 ≤ s.sprig.frame.toNat → s.sprig.ports[p].trained = false →
    s.sprig.ports[p].trainStep ≠ 1 ∨ s.sprig.ports[p].good < 8 →
    exec (.trainingTimeout p) s = .next (s.updPort p fun x => { x with pendCause := 5 })) ∧
  (∀ (p : Fin 512) (d : DownData) (s : State), s.live = true → s.power.carLock = true →
    s.sprig.ports[p].state = .idleSense ∨ s.sprig.ports[p].state = .active → s.sprig.ports[p].gotUp = true → s.sprig.ports[p].out = some d → d.tries = 3 →
    s.sprig.ports[p].pendCause = 0 → exec (.dataBlockUndelivered p) s = .next (s.updPort p fun x => { x with pendCause := 1 })) ∧
  (∀ (p : Fin 512) (s : State), s.live = true → s.power.carLock = true →
    s.sprig.ports[p].state = .idleSense ∨ s.sprig.ports[p].state = .active → 16 ≤ s.sprig.ports[p].fails → s.sprig.ports[p].pendCause = 0 →
    exec (.uplinkLoss p) s = .next (s.updPort p fun x => { x with pendCause := 2 })) ∧
  (∀ (p : Fin 512) (s : State), s.live = true → s.power.carLock = true → s.sprig.ports[p].state = .fault → s.sprig.ports[p].autoRetrain = true →
    s.sprig.ports[p].faultFrame + (if s.sprig.ports[p].badTrain < 8 then 1024 else 65536) ≤ s.sprig.frame.toNat →
    exec (.autoRetrainDelay p) s = .next (s.updPort p fun x => { x with delayOver := true })) ∧
  (∀ (p : Fin 512) (f : Nat) (s : State), s.live = true → s.power.carLock = true → s.sprig.ports[p].state = .idleSense → s.sprig.ports[p].wakeOn = true →
    0 < s.sprig.ports[p].seeding → s.sprig.ports[p].lastPing < f → s.sprig.frame.toNat + 5 ≤ f → f ≤ s.sprig.frame.toNat + 16 →
    f % 32 = p.val / 16 % 32 →
    exec (.ping p) s = .next (s.updPort p fun x => { x with
      downq := x.downq ++ [.png (BitVec.ofNat 32 (256 * f)) (BitVec.ofNat 16 (s.param 0x0101 p.val)) (if x.gen = 2 ∧ x.head.nant = 2 then 2 else 0)]
      lastPing := f })) ∧
  (∀ (p : Fin 512) (f n : Nat) (s : State), s.live = true → s.power.carLock = true → s.sprig.ports[p].state = .idleSense → s.sprig.ports[p].wakeOn = true →
    s.sprig.ports[p].seeding = 0 → n = pingInterval s.sprig.ports[p].ping.interval → s.sprig.ports[p].lastPing < f → s.sprig.frame.toNat + 5 ≤ f →
    f ≤ s.sprig.frame.toNat + 16 → f % n = p.val / 16 % n →
    exec (.ping p) s = .next (s.updPort p fun x => { x with
      downq := x.downq ++ [.png (BitVec.ofNat 32 (256 * f)) (BitVec.ofNat 16 (s.param 0x0101 p.val)) (if x.gen = 2 ∧ x.head.nant = 2 then 2 else 0)]
      lastPing := f })) ∧
  (∀ (p : Fin 512) (b : Bool) (s : State), s.live = true →
    exec (.portEnable p b) s = .next (s.updPort p fun x => { x with en := b }) ∧
    exec (.retrain p) s = .next (s.updPort p fun x => { x with askRetrain := true }) ∧
    exec (.wake p) s = .next (s.updPort p fun x => { x with askWake := true }) ∧
    exec (.release p) s = .next (s.updPort p fun x => { x with askRelease := x.askRelease || !x.holdActive }) ∧
    exec (.holdActive p b) s = .next (s.updPort p fun x => { x with holdActive := b }))

/-- R81, R82, R93, R106, R110, R97, R105, R113, R117 (CMD_POLL to CMD_ABORT): a command that its port's phase allows is taken: BUSY is set with its operation,
and Thyme goes to its phase. -/
def Obligations.TenantCommandsAreTaken : Prop :=
  (∀ (p : Fin 512) (s : State), s.mayCommand p → s.sprig.ports[p].state = .idleSense → s.sprig.ports[p].ctx.phase = .idle →
    s.sprig.ports[p].ctx.owner = s.sprig.ports[p].ownerByte → s.sprig.ports[p].ctx.epoch = s.store.portEpoch[p] →
    (s.sprig.ports[p].page.cmdArg.extractLsb' 16 16).toNat ≤ 3 →
    ∃ t, exec (.cmdPoll p) s = .next t ∧ t.sprig.ports[p].page.busy = true ∧ t.sprig.ports[p].page.op = 1 ∧ t.sprig.ports[p].askPoll = true ∧
      t.sprig.ports[p].ctx.named = some (s.sprig.ports[p].page.cmdArg.extractLsb' 16 16).toNat ∧
      t.sprig.ports[p].page.mem = s.sprig.ports[p].page.mem ∧ s.onlyPort p t) ∧
  (∀ (p : Fin 512) (s : State), s.mayCommand p → s.working p → s.sprig.ports[p].ctx.phase = .found →
    s.sprig.ports[p].ctx.tech = .a → s.sprig.ports[p].ctx.sak.getLsbD 5 = true → (s.sprig.ports[p].page.cmdArg.extractLsb' 16 16).toNat % 16 ≤ 10 →
    ∃ t, exec (.cmdActivate p) s = .next t ∧ t.sprig.ports[p].page.busy = true ∧ t.sprig.ports[p].page.op = 2 ∧
      t.sprig.ports[p].ctx.phase = .activating ∧ t.sprig.ports[p].ctx.step = .rats ∧
      t.sprig.ports[p].page.mem = s.sprig.ports[p].page.mem ∧ s.onlyPort p t) ∧
  (∀ (p : Fin 512) (s : State), s.mayCommand p → s.working p → s.sprig.ports[p].ctx.phase = .ready →
    ∃ t, exec (.cmdExchange p) s = .next t ∧ t.sprig.ports[p].page.busy = true ∧ t.sprig.ports[p].page.op = 3 ∧
      t.sprig.ports[p].page.rxLen = 0 ∧ t.sprig.ports[p].ctx.phase = .exchange ∧ t.sprig.ports[p].ctx.step = .iblk ∧
      t.sprig.ports[p].page.mem = s.sprig.ports[p].page.mem ∧ s.onlyPort p t) ∧
  (∀ (p : Fin 512) (s : State), s.mayCommand p → s.working p → s.sprig.ports[p].ctx.phase = .found ∨ s.sprig.ports[p].ctx.phase = .ready →
    ∃ t, exec (.cmdRaw p) s = .next t ∧ t.sprig.ports[p].page.busy = true ∧ t.sprig.ports[p].page.op = 4 ∧
      t.sprig.ports[p].page.rxLen = 0 ∧ t.sprig.ports[p].ctx.phase = .raw ∧ t.sprig.ports[p].ctx.step = .raw ∧
      t.sprig.ports[p].page.mem = s.sprig.ports[p].page.mem ∧ s.onlyPort p t) ∧
  (∀ (p : Fin 512) (s : State), s.mayCommand p → s.working p → s.sprig.ports[p].ctx.phase = .found →
    ∃ t, exec (.cmdHalt p) s = .next t ∧ t.sprig.ports[p].page.busy = true ∧ t.sprig.ports[p].page.op = 5 ∧
      t.sprig.ports[p].ctx.phase = .closing ∧
      t.sprig.ports[p].ctx.step = (match s.sprig.ports[p].ctx.tech with | .b => .hltB | .v => .stayQuiet | _ => .hltA false) ∧
      t.sprig.ports[p].page.mem = s.sprig.ports[p].page.mem ∧ s.onlyPort p t) ∧
  (∀ (p : Fin 512) (s : State), s.mayCommand p → s.working p → s.sprig.ports[p].ctx.phase = .ready →
    ∃ t, exec (.cmdDeselect p) s = .next t ∧ t.sprig.ports[p].page.busy = true ∧ t.sprig.ports[p].page.op = 6 ∧
      t.sprig.ports[p].ctx.phase = .closing ∧ t.sprig.ports[p].ctx.step = .desel ∧
      t.sprig.ports[p].page.mem = s.sprig.ports[p].page.mem ∧ s.onlyPort p t) ∧
  (∀ (p : Fin 512) (s : State), s.ownerCalls p = true → s.working p → s.sprig.ports[p].page.busy = true → s.sprig.ports[p].page.op ≠ 1 →
    (s.sprig.ports[p].page.cmdArg.extractLsb' 0 16).toNat ≤ 1600 →
    ∃ t, exec (.cmdAbort p) s = .next t ∧ t.sprig.ports[p].page.busy = false ∧
      t.sprig.ports[p].page.cmdRes = s.store.portEpoch[p] ++ (0x0909 : BitVec 16) ∧
      t.sprig.ports[p].ctx.phase = .polling ∧ t.sprig.ports[p].ctx.step = .resetOff ∧
      t.sprig.ports[p].page.mem = s.sprig.ports[p].page.mem ∧ s.onlyPort p t) ∧
  (∀ (p : Fin 512) (s : State), s.mayCommand p → s.working p → s.sprig.ports[p].ctx.phase ≠ .ready →
    ∃ t, exec (.cmdExchange p) s = .next t ∧ t.sprig.ports[p].page.busy = false ∧
      t.sprig.ports[p].page.cmdRes = s.store.portEpoch[p] ++ (0x0908 : BitVec 16) ∧
      t.sprig.ports[p].ctx.phase = s.sprig.ports[p].ctx.phase ∧ s.onlyPort p t)

/-- R61, R74, R89, R90, R92, R117 (THYME_SLICE, RECEIVE_TIMEOUT, FIELD_GUARD_END, TECH_GAP_END, RESET_OFF_END, PROFILE_END): where Thyme goes when its slice runs or a
time ends.
R85 (EVQ_RD_WRITE): a store that leaves at most 16 entries unread moves EVQ_RD; another is discarded, counted in FENCE, and empties the ring. -/
def Obligations.ThymeMovesOn : Prop :=
  (∀ (p : Fin 512) (s : State), s.working p → s.sprig.ports[p].sliceDone ≠ some s.sprig.frame.toNat → s.sprig.ports[p].upq = [] →
    s.sprig.ports[p].downq = [] → s.sprig.ports[p].canDue = false → s.sprig.ports[p].page.cmd.getLsbD 15 = false → s.sprig.ports[p].ctx.step = .fieldOn →
    ∃ t at_, exec (.thymeSlice p) s = .next t ∧ t.sprig.ports[p].downq = [.fld at_ true s.sprig.ports[p].ant] ∧
      t.sprig.ports[p].ctx.step = .guard ∧ t.sprig.ports[p].ctx.sent = true ∧ t.sprig.ports[p].sliceDone = some s.sprig.frame.toNat ∧
      t.sprig.ports[p].page = s.sprig.ports[p].page ∧ s.onlyPort p t) ∧
  (∀ (p : Fin 512) (s : State), s.portsRun = true → s.sprig.ports[p].sliceDone = some s.sprig.frame.toNat → s.sprig.ports[p].ctx.tick = 0 →
    exec (.thymeSlice p) s = .next s) ∧
  (∀ (p : Fin 512) (s : State), s.working p → s.sprig.ports[p].ctx.step = .hltA false → s.sprig.ports[p].ctx.tech = .a →
    s.sprig.ports[p].ctx.sent = true → s.sprig.ports[p].ctx.tsof = none → s.sprig.ports[p].page.busy = true →
    notEarlier (BitVec.ofNat 32 (256 * s.sprig.frame.toNat)) s.sprig.ports[p].ctx.giveUp = true →
    ∃ t, exec (.receiveTimeout p) s = .next t ∧ t.sprig.ports[p].page.busy = false ∧
      t.sprig.ports[p].page.cmdRes = s.store.portEpoch[p] ++ (0 : BitVec 16) ∧ t.sprig.ports[p].ctx.phase = .polling ∧
      t.sprig.ports[p].ctx.step = .gap ∧ t.sprig.ports[p].ctx.haltedA = true ∧ s.onlyPort p t) ∧
  (∀ (p : Fin 512) (s : State), s.working p → s.sprig.ports[p].ctx.step = .guard → s.sprig.ports[p].ctx.named = some 2 →
    s.sprig.ports[p].ctx.repoll = false →
    ∃ t, exec (.fieldGuardEnd p) s = .next t ∧ t.sprig.ports[p].ctx.tech = .a ∧ t.sprig.ports[p].ctx.step = .reqA ∧
      t.sprig.ports[p].ctx.passes = [.b] ∧ t.sprig.ports[p].page = s.sprig.ports[p].page ∧ s.onlyPort p t) ∧
  (∀ (p : Fin 512) (r : List Tech) (s : State), s.working p → s.sprig.ports[p].ctx.step = .gap → s.sprig.ports[p].ctx.passes = .b :: r →
    ∃ t, exec (.techGapEnd p) s = .next t ∧ t.sprig.ports[p].ctx.tech = .b ∧ t.sprig.ports[p].ctx.step = .reqB ∧
      t.sprig.ports[p].ctx.passes = r ∧ t.sprig.ports[p].page = s.sprig.ports[p].page ∧ s.onlyPort p t) ∧
  (∀ (p : Fin 512) (s : State), s.working p → s.sprig.ports[p].ctx.step = .resetOff → s.sprig.ports[p].ctx.sent = true → s.sprig.ports[p].downq = [] →
    s.sprig.ports[p].canDue = false →
    ∃ t at_, exec (.resetOffEnd p) s = .next t ∧ t.sprig.ports[p].downq = [.fld at_ true s.sprig.ports[p].ant] ∧
      t.sprig.ports[p].ctx.step = .guard ∧ t.sprig.ports[p].page = s.sprig.ports[p].page ∧ s.onlyPort p t) ∧
  (∀ (p : Fin 512) (s : State), s.working p → s.sprig.ports[p].ctx.step = .endDue →
    ∃ t, exec (.profileEnd p) s = .next t ∧ t.sprig.ports[p].askEnd = true ∧ t.sprig.ports[p].ctx.phase = .idle ∧
      t.sprig.ports[p].ctx.step = .none ∧ t.sprig.ports[p].page.busy = false ∧ s.onlyPort p t) ∧
  (∀ (p : Fin 512) (v : BitVec 16) (s : State), s.ownerCalls p = true → (s.sprig.ports[p].page.evqWr - v).toNat ≤ 16 →
    exec (.evqRdWrite p v) s = .next (s.updPort p fun x => { x with page := { x.page with evqRd := v } })) ∧
  (∀ (p : Fin 512) (v : BitVec 16) (s : State), s.ownerCalls p = true → 16 < (s.sprig.ports[p].page.evqWr - v).toNat →
    exec (.evqRdWrite p v) s = .next (s.updPort p fun x => { x with page := { x.page with
      evqRd := x.page.evqWr, fence := if x.page.fence = 0xFFFF then 0xFFFF else x.page.fence + 1 } }))

/-- R225, R226, Table 09-7, Table 03-16 (APPLY_BOUNDARY): at its boundary an apply takes effect whole: the slot runs with the staged resources, the ports gained are
its own, those lost have no owner and a new epoch, and SRAM above the grant is gone. One that may not move a port in use is given up.
R88, Table 03-16 (PAGE_MAP_NEW_OWNER): at B + 1 the page of a port that moved maps again. -/
def Obligations.AppliesTakeEffect : Prop :=
  (∀ (i : Fin 128) (a : Apply) (s : State), s.live = true → s.tenants.slots[i].apply = some a → s.portBusy i a.target = false ∨ a.force = true →
    ∃ t, exec (.applyBoundary i) s = .next t ∧ t.tenants.slots[i].run = a.target ∧ t.tenants.slots[i].apply = none ∧
      (s.requests i = 0 → (∀ q, s.mint.running = some q → q.client.slot? ≠ some i) →
        t.tenants.slots[i].sram = s.tenants.slots[i].sram.filter (fun c => decide (c.1 < 0x10000 * a.target.sram))) ∧
      (∀ p : Fin 512, a.target.hasPort p = true → t.sprig.ports[p].owner = some i) ∧
      (∀ p : Fin 512, s.sprig.ports[p].owner = some i → a.target.hasPort p = false →
        t.sprig.ports[p].owner = none ∧
        t.store.portEpoch[p] = if s.store.portEpoch[p] = 0xFFFF then 1 else s.store.portEpoch[p] + 1) ∧
      (∀ p : Fin 512, s.sprig.ports[p].owner ≠ some i → a.target.hasPort p = false →
        t.sprig.ports[p] = s.sprig.ports[p] ∧ t.store.portEpoch[p] = s.store.portEpoch[p]) ∧
      s.otherSlots i t ∧ t.store = { s.store with portEpoch := t.store.portEpoch } ∧
      s.onlyIn [.sprig, .link, .hrb, .treor, .tenants, .kct, .cipher, .pke, .mint, .store, .free] t) ∧
  (∀ (i : Fin 128) (a : Apply) (s : State), s.live = true → s.tenants.slots[i].apply = some a → s.portBusy i a.target = true → a.force = false →
    ∃ t, exec (.applyBoundary i) s = .next t ∧ t.tenants.slots[i] = { s.tenants.slots[i] with apply := none } ∧ s.otherSlots i t ∧
      s.onlyIn [.link, .hrb, .treor, .tenants] t) ∧
  (∀ (i : Fin 128) (s : State), s.tenants.slots[i].apply = none → exec (.applyBoundary i) s = .next s) ∧
  (∀ (p : Fin 512) (m : PortMove) (s : State), s.live = true → s.sprig.ports[p].moved = some m →
    ∃ t, exec (.pageMapNewOwner p) s = .next t ∧ t.sprig.ports[p] = { s.sprig.ports[p] with moved := none } ∧ s.otherPorts p t ∧
      s.onlyIn [.sprig, .link, .treor, .tenants] t) ∧
  (∀ (p : Fin 512) (m : PortMove) (s : State), s.live = true → s.sprig.ports[p].moved = some m → m.old = none → s.sprig.ports[p].owner = none →
    s.accepts 0x0C = true → s.devEvents < 256 →
    exec (.pageMapNewOwner p) s = .next (((s.updPort p fun x => { x with moved := none })).send
      (s.devEventMsg 1 0x07 0xFF p.val (m.discarded + s.store.portEpoch[p].toNat * 0x100000000)))) ∧
  (∀ (p : Fin 512) (s : State), s.sprig.ports[p].moved = none → exec (.pageMapNewOwner p) s = .next s)

/-- R121, R122, R124 (ISLAND_START, ISLAND_RESET, FIELD_DETECTED, FIELD_LOSS_TIMEOUT): the island starts above 2.05 V in IDLE, a reset or the loss of the field ends its
session, and a field opens one. The tag memory stays, but for the rows of a PUT ACK in progress.
R123, R124, R126, Table 05-1 (TAG_REQA, TAG_WUPA, TAG_ANTICOLLISION, TAG_SELECT, TAG_HLTA): the answers of layer 3, on the grid of the frame delay
(n = 9: 1,236 fc after a last bit 1, 1,172 fc after a last bit 0), and its states. -/
def Obligations.TagSessionsAndLayer3 : Prop :=
  (∀ (v : Nat) (s : State), s.tag.running = false → 205 < v →
    ∃ t, exec (.islandStart v) s = .next t ∧ t.tag.running = true ∧ t.tag.session = false ∧ t.tag.l3 = .idle ∧ t.tag.app = .none ∧
      t.tag.latch = none ∧ t.tag.reply = none ∧ t.tag.job = none ∧ t.tag.mem = s.tag.mem ∧ s.onlyIn [.tag] t) ∧
  (∀ (rows : Nat) (s : State), s.tag.running = true → s.tag.job = none ∨ s.tag.holder ≠ .field →
    ∃ t, exec (.islandReset rows) s = .next t ∧ t.tag.running = false ∧ t.tag.session = false ∧ t.tag.field = false ∧ t.tag.l3 = .idle ∧
      t.tag.app = .none ∧ t.tag.latch = none ∧ t.tag.mem = s.tag.mem ∧ (s.tag.field = false → t.hrb = s.hrb) ∧
      (s.tag.field = true → t.hrb.evtA[5].set = true ∧ t.hrb = { s.hrb with evtA := t.hrb.evtA }) ∧ s.onlyIn [.tag, .hrb] t) ∧
  (∀ s : State, s.tag.running = true → s.tag.session = false →
    ∃ t, exec .fieldDetected s = .next t ∧ t.tag.session = true ∧ t.tag.field = true ∧ t.tag.l3 = .idle ∧ t.tag.iso4 = false ∧
      t.tag.random = (s.tag.cfgByte 0 == 1 || !s.tag.uidValid || s.tag.rowsAwait) ∧ t.tag.mem = s.tag.mem ∧ t.hrb.evtA[5].set = true ∧
      t.hrb = { s.hrb with evtA := t.hrb.evtA } ∧ s.onlyIn [.tag, .hrb, .free] t) ∧
  (∀ s : State, s.tag.session = true →
    ∃ t, exec .fieldLossTimeout s = .next t ∧ t.tag.session = false ∧ t.tag.field = false ∧ t.tag.l3 = .idle ∧ t.tag.iso4 = false ∧
      t.tag.mem = s.tag.mem ∧ t.hrb.evtA[5].set = true ∧ t.hrb = { s.hrb with evtA := t.hrb.evtA } ∧ s.onlyIn [.tag, .hrb] t) ∧
  (∀ s : State, s.tagL3 = true → s.tag.l3 = .idle →
    exec .tagReqa s = .next { s with tag := { s.tag with
      reply := some [if s.tag.random then 0x04 else 0x44, 0x00], replySkip := 0, replyDelay := 1172, l3 := .ready, star := false, level := 1 } }) ∧
  (∀ s : State, s.tagL3 = true → s.tag.l3 = .halt → exec .tagReqa s = .next { s with tag := { s.tag with reply := none } }) ∧
  (∀ s : State, s.tagL3 = true → s.tag.l3 = .idle ∨ s.tag.l3 = .halt →
    exec .tagWupa s = .next { s with tag := { s.tag with
      reply := some [if s.tag.random then 0x04 else 0x44, 0x00], replySkip := 0, replyDelay := 1236, l3 := .ready, star := (s.tag.l3 == .halt), level := 1 } }) ∧
  (∀ (known : List Bool) (one : Bool) (u : Bytes) (s : State), s.tagL3 = true → s.tag.l3 = .ready → s.tag.uidCl s.tag.level = some u →
    known = (airBits u).take known.length → known.length < 40 →
    exec (.tagAnticollision s.tag.level known one) s = .next { s with tag := { s.tag with
      reply := some u, replySkip := known.length, replyDelay := if one then 1236 else 1172 } }) ∧
  (∀ (one : Bool) (u : Bytes) (s : State), s.tagL3 = true → s.tag.l3 = .ready → s.tag.level = 1 → s.tag.uidCl 1 = some u → s.tag.random = false →
    exec (.tagSelect 1 u one) s = .next { s with tag := { s.tag with
      reply := some ([0x04] ++ crcA [0x04]), replySkip := 0, replyDelay := (if one then 1236 else 1172), level := 2 } }) ∧
  (∀ (one : Bool) (u : Bytes) (s : State), s.tagL3 = true → s.tag.l3 = .ready → s.tag.uidCl s.tag.level = some u →
    s.tag.random = true ∨ s.tag.level = 2 →
    exec (.tagSelect s.tag.level u one) s = .next { s with tag := { s.tag with
      reply := some ([0x20] ++ crcA [0x20]), replySkip := 0, replyDelay := (if one then 1236 else 1172), l3 := .active } }) ∧
  (∀ (n : Nat) (u v : Bytes) (one : Bool) (s : State), s.tagL3 = true → s.tag.l3 = .ready → s.tag.uidCl s.tag.level = some v → u ≠ v →
    exec (.tagSelect n u one) s = .next { s with tag := { s.tag with reply := none, l3 := if s.tag.star then .halt else .idle } }) ∧
  (∀ s : State, s.tagL3 = true → s.tag.l3 = .ready ∨ s.tag.l3 = .active →
    exec .tagHlta s = .next { s with tag := { s.tag with reply := none, l3 := .halt } }) ∧
  (∀ s : State, s.tagL3 = true → s.tag.l3 = .ready ∨ s.tag.l3 = .active →
    exec .tagReqa s = .next { s with tag := { s.tag with reply := none, l3 := if s.tag.star then .halt else .idle } } ∧
    exec .tagWupa s = .next { s with tag := { s.tag with reply := none, l3 := if s.tag.star then .halt else .idle } })

/-- R125, R127, Table 05-2 (TAG_RATS, TAG_PPS, TAG_S_DESELECT, TAG_WTX_TIMER, TAG_R_BLOCK): layer 4 opens with the ATS, takes one PPS, repeats its last block on request,
asks for more time with S(WTX), and closes into HALT. -/
def Obligations.TagLayer4 : Prop :=
  (∀ (fsdi cid : BitVec 4) (one : Bool) (n : Nat) (s : State), s.tagL3 = true → s.tag.l3 = .active →
    ∃ t, exec (.tagRats fsdi cid one n) s = .next t ∧
      t.tag = { s.tag with
        reply := some (withCrcA [0x05, 0x78, if s.tag.cfgByte 1 = 0 then 0x80 else if s.tag.cfgByte 1 = 1 then 0x91 else 0xB3, 0x40, 0x02])
        replySkip := 0, replyDelay := t.tag.replyDelay, iso4 := true, ppsDue := true, ppsMax := min 2 (s.tag.cfgByte 1).toNat, rate := 0
        fsd := fsdOf fsdi, cid, bn := true, lastBlock := [], txRest := [], acks := [] } ∧
      (9 ≤ n → t.tag.replyDelay = 128 * n + if one then 84 else 20) ∧ s.onlyIn [.tag] t) ∧
  (∀ (d : BitVec 4) (one : Bool) (n : Nat) (s : State), s.tagL4 = true → s.tag.ppsDue = true → d.toNat ≤ s.tag.ppsMax → 9 ≤ n →
    exec (.tagPps s.tag.cid d d one n) s = .next { s with tag := { s.tag with
      reply := some (withCrcA [0xD0 ||| s.tag.cid.setWidth 8]), replySkip := 0, replyDelay := (128 * n + if one then 84 else 20)
      rate := d.toNat, ppsDue := false } }) ∧
  (∀ (one : Bool) (n : Nat) (s : State), s.tagL4 = true → s.tag.holder ≠ .field →
    ∃ t, exec (.tagSDeselect (some s.tag.cid) one n) s = .next t ∧ t.tag.reply = some (withCrcA [0xCA, s.tag.cid.setWidth 8]) ∧
      t.tag.iso4 = false ∧ t.tag.l3 = .halt ∧ t.tag.app = .none ∧ t.tag.latch = none ∧ t.tag.job = none ∧ t.tag.mem = s.tag.mem ∧
      s.onlyIn [.tag] t) ∧
  (∀ (j : FieldJob) (one : Bool) (n : Nat) (s : State), s.tagL4 = true → s.tag.job = some j → s.tag.jobCid = none →
    exec (.tagWtxTimer one n) s = .next { s with tag := { s.tag with
      reply := some (withCrcA [0xF2, 0x01]), replySkip := 0, replyDelay := 32768 + if s.tag.jobLast then 84 else 20
      lastBlock := withCrcA [0xF2, 0x01], jobLast := one, jobN := n } }) ∧
  (∀ (nak one : Bool) (n : Nat) (s : State), s.tagL4 = true → s.tag.cid = 0 → s.tag.lastBlock ≠ [] → 9 ≤ n →
    exec (.tagRBlock nak s.tag.bn none one n) s = .next { s with tag := { s.tag with
      reply := some s.tag.lastBlock, ppsDue := false, replyDelay := 128 * n + if one then 84 else 20 } }) ∧
  (∀ (one : Bool) (n : Nat) (s : State), s.tagL4 = true → s.tag.cid = 0 → 9 ≤ n →
    exec (.tagRBlock true (!s.tag.bn) none one n) s = .next { s with tag := { s.tag with
      reply := some (withCrcA [if s.tag.bn then 0xA3 else 0xA2]), ppsDue := false, replyDelay := 128 * n + if one then 84 else 20 } }) ∧
  (∀ (j : FieldJob) (one : Bool) (n : Nat) (s : State), s.tagL4 = true → s.tag.holder = .field → s.tag.job = some j →
    ∃ t, exec (.tagSDeselect (some s.tag.cid) one n) s = .next t ∧ t.tag.reply = some (withCrcA [0xCA, s.tag.cid.setWidth 8]) ∧
      t.tag.iso4 = false ∧ t.tag.l3 = .halt ∧ t.tag.job = some j ∧ t.tag.jobQuiet = true ∧ t.tag.holder = .field ∧ s.onlyIn [.tag] t)

/-- R147 to R149, Tables 05-11 and 05-12 (SELECT_BY_AID, SELECT_FILE, READ_BINARY, UPDATE_BINARY, INBOX_STATUS): what each answers and selects. -/
def Obligations.TagFiles : Prop :=
  (∀ (c : Apdu) (s : State), s.takesApdu c → c.cla = 0x00 → c.p1 = 0x04 → c.p2 = 0x00 →
    c.data = [0xF0, 0x41, 0x45, 0x4C, 0x4B, 0x49, 0x4E, 0x31] → s.tag.app ≠ .inspector →
    exec (.selectByAid c) s = .next { s with tag :=
      { s.tag.answering c ([0x01, 0x01] ++ leN 4 s.tag.gen.toNat ++ [0x90, 0x00]) with
        app := .inspector, file := .none, latch := some s.tag.committed } }) ∧
  (∀ (c : Apdu) (s : State), s.takesApdu c → c.cla = 0x00 → c.p1 ≠ 0x04 ∨ c.p2 ≠ 0x00 →
    exec (.selectByAid c) s = .next { s with tag := s.tag.answering c [0x6A, 0x86] }) ∧
  (∀ (c : Apdu) (s : State), s.takesApdu c → c.cla = 0x00 → s.tag.app = .ndef → c.p1 = 0x00 → c.p2 = 0x0C → c.data = [0xE1, 0x03] →
    exec (.selectFile c) s = .next { s with tag := { s.tag.answering c [0x90, 0x00] with file := .cc } }) ∧
  (∀ (c : Apdu) (s : State), s.takesApdu c → c.cla = 0x00 → s.tag.app = .ndef → c.p1 = 0x00 → c.p2 = 0x0C → c.data = [0xE1, 0x04] →
    exec (.selectFile c) s = .next { s with tag := { s.tag.answering c [0x90, 0x00] with file := .ndef } }) ∧
  (∀ (c : Apdu) (s : State), s.takesApdu c → c.cla = 0x00 → s.tag.app = .ndef → s.tag.file = .cc → c.data = [] → c.p1 = 0 → c.p2 = 0 →
    c.le = some 15 →
    exec (.readBinary c) s = .next { s with
      tag := s.tag.answering c [0x00, 0x0F, 0x20, 0x00, 0xF0, 0x00, 0xF0, 0x04, 0x06, 0xE1, 0x04, 0x01, 0x00, 0x00, 0xFF, 0x90, 0x00] }) ∧
  (∀ (c : Apdu) (s : State), s.takesApdu c → c.cla = 0x00 → s.tag.app = .ndef → s.tag.file = .ndef → c.data = [] → 256 ≤ c.p1.toNat * 256 + c.p2.toNat →
    exec (.readBinary c) s = .next { s with tag := s.tag.answering c [0x6B, 0x00] }) ∧
  (∀ (c : Apdu) (b : Bool) (s : State), s.takesApdu c → c.cla = 0x00 → s.tag.app = .ndef → s.tag.file = .ndef → c.data = [] → c.p1 = 0 → c.le = some 1 →
    s.tag.latch = some (some b) → s.tag.holder = .none → s.tag.mainJobs = [] →
    exec (.readBinary c) s = .next { s with tag := s.tag.awaiting c (.read [] ((if b then 0x7100 else 0x100) + c.p2.toNat) 1) }) ∧
  (∀ (c : Apdu) (s : State), s.takesApdu c → c.cla = 0x00 →
    exec (.updateBinary c) s = .next { s with tag := s.tag.answering c [0x69, 0x86] }) ∧
  (∀ (c : Apdu) (s : State), s.takesApdu c → c.cla = 0x80 → s.tag.app = .inspector → c.p1 = 0 → c.p2 = 0 → c.data = [] →
    exec (.inboxStatus c) s = .next { s with
      tag := s.tag.answering c
        ([BitVec.ofNat 8 s.tag.freeSlots] ++ leN 6 ((s.tag.newest.map Prod.snd).getD 0) ++ leN 6 s.tag.pseq ++ [0x90, 0x00]) }) ∧
  (∀ (c : Apdu) (s : State), s.takesApdu c → c.cla = 0x00 → s.tag.app = .ndef → c.data ≠ [] →
    exec (.readBinary c) s = .next { s with tag := s.tag.answering c [0x67, 0x00] })

/-- R148, R149, R137 to R139 (GET_IDENTITY, GET_SUMMARY, READ_LOG, PUT_ACK): what they need, and the granule of memory that each asks for. -/
def Obligations.TagInspection : Prop :=
  (∀ (c : Apdu) (b : Bool) (s : State), s.takesApdu c → c.cla = 0x80 → s.tag.app = .inspector → c.p1 = 0 → c.p2 = 0 → c.data = [] → s.tag.uidValid = true → s.tag.rowsAwait = false →
    s.tag.latch = some (some b) → s.tag.holder = .none → s.tag.mainJobs = [] →
    exec (.getIdentity c) s = .next { s with tag := s.tag.awaiting c (.read (Memory.readN s.tag.mem 0xF000 16 ++ [if s.tag.random then 1 else 0, BitVec.ofNat 8 s.tag.rate, 0, 0] ++ leN 4 (s.tag.bankGen b % 2 ^ 32))
      (if b then 0x7020 else 0x20) 64) }) ∧
  (∀ (c : Apdu) (s : State), s.takesApdu c → c.cla = 0x80 → s.tag.app = .inspector → c.p1 = 0 → c.p2 = 0 → c.data = [] →
    s.tag.uidValid = false ∨ s.tag.rowsAwait = true →
    exec (.getIdentity c) s = .next { s with tag := s.tag.answering c [0x69, 0x85] }) ∧
  (∀ (c : Apdu) (b : Bool) (s : State), s.takesApdu c → c.cla = 0x80 → s.tag.app = .inspector → c.p1 = 1 → c.p2 = 0 → c.data = [] →
    s.tag.latch = some (some b) → s.tag.holder = .none → s.tag.mainJobs = [] →
    exec (.getSummary c) s = .next { s with tag := s.tag.awaiting c (.read [] (if b then 0x7300 else 0x300) 256) }) ∧
  (∀ (c : Apdu) (b : Bool) (s : State), s.takesApdu c → c.cla = 0x80 → s.tag.app = .inspector → c.p2 = 2 → c.p1.toNat ≤ 62 → c.data = [] →
    s.tag.latch = some (some b) → s.tag.holder = .none → s.tag.mainJobs = [] →
    exec (.readLog c) s = .next { s with tag := s.tag.awaiting c (.read [] ((if b then 0x7400 else 0x400) + 128 * c.p1.toNat) 256) }) ∧
  (∀ (c : Apdu) (s : State), s.takesApdu c → c.cla = 0x80 → s.tag.app = .inspector → c.p1.toNat + c.p2.toNat > 64 →
    exec (.readLog c) s = .next { s with tag := s.tag.answering c [0x6A, 0x86] }) ∧
  (∀ (c : Apdu) (v : Nat) (s : State), s.takesApdu c → c.cla = 0x80 → s.tag.app = .inspector → c.p1 = 0 → c.p2 = 0 →
    104 ≤ c.data.length → c.data.length ≤ 224 → (s.tag.sessionCfg 2).getLsbD 1 = false → s.tag.ackOk c.data = true →
    s.tag.newest = none → s.tag.slotFree 0 = true → s.tag.holder = .none → s.tag.mainJobs = [] → 280 ≤ v →
    exec (.putAck c v) s = .next { s with tag := { s.tag.awaiting c (.putAck 0 1 c.data) with vst := s.vst v } }) ∧
  (∀ (c : Apdu) (v : Nat) (s : State), s.takesApdu c → c.cla = 0x80 → s.tag.app = .inspector → c.p1 = 0 → c.p2 = 0 →
    c.data.length < 104 ∨ 224 < c.data.length →
    exec (.putAck c v) s = .next { s with tag := s.tag.answering c [0x67, 0x00] }) ∧
  (∀ (c : Apdu) (v : Nat) (s : State), s.takesApdu c → c.cla = 0x80 → s.tag.app = .inspector → c.p1 = 0 → c.p2 = 0 →
    104 ≤ c.data.length → c.data.length ≤ 224 → (s.tag.sessionCfg 2).getLsbD 1 = false → s.tag.ackOk c.data = true →
    s.tag.newest = none → s.tag.slotFree 0 = true → s.tag.holder = .none → s.tag.mainJobs = [] → s.tagVio = false → v ≤ 205 →
    exec (.putAck c v) s = .next { s with tag := { s.tag.answering c [0x6F, 0x01] with
      vst := v, jobCid := c.cid, jobLast := c.lastBit, jobN := c.n, jobQuiet := false } })

/-- R143 to R146, R134, R135, R137, R139, R140 (GRANULE_END, LATCH_IDLE_EXPIRY, LATCH_MAX_EXPIRY, INBOX_ACK_ANSWER): a granule of the field's answers its command, and
writes the record of a PUT ACK row by row; one of the main side's reads, writes the marker or the identity rows, or moves an update on by 16 rows. The latch ends for
time; Bay's answer has the processed marker asked for. -/
def Obligations.TagGranules : Prop :=
  (∀ (pre : Bytes) (off len waited : Nat) (s : State), s.tag.holder = .field → s.tag.job = some (.read pre off len) → s.tag.jobCid = none → s.tag.jobQuiet = false →
    s.tag.mainJobs = [] → s.tag.fsd = 256 → pre.length + len ≤ 251 → 9 ≤ s.tag.jobN →
    exec (.granuleEnd [] waited) s = .next { s with tag := { s.tag with
      reply := some (withCrcA ((if s.tag.bn then 0x03 else 0x02) :: (pre ++ Memory.readN s.tag.mem off len ++ [0x90, 0x00])))
      replySkip := 0, replyDelay := 128 * s.tag.jobN + (if s.tag.jobLast then 84 else 20)
      lastBlock := withCrcA ((if s.tag.bn then 0x03 else 0x02) :: (pre ++ Memory.readN s.tag.mem off len ++ [0x90, 0x00]))
      txRest := [], job := none, holder := .none, fieldCount := min 4 (s.tag.fieldCount + 1) } }) ∧
  (∀ (i : Nat) (q : BitVec 48) (a : Bytes) (waited : Nat) (s : State), i < 16 → a.length ≤ 224 → s.tagOk → s.tag.holder = .field →
    s.tag.job = some (.putAck i q a) →
    ∃ t, exec (.granuleEnd [] waited) s = .next t ∧ t.tag.job = none ∧ t.tag.holder ≠ .field ∧
      Memory.readN t.tag.mem (0xE000 + 256 * i) 8 = leN 6 q.toNat ++ leN 2 a.length ∧
      Memory.readN t.tag.mem (0xE010 + 256 * i) a.length = a ∧
      Memory.readN t.tag.mem (0xE0F0 + 256 * i) 4 = [0x3C, 0x5A, 0xA5, 0xC3] ∧
      (∀ x, x < 0xE000 + 256 * i ∨ 0xE100 + 256 * i ≤ x → Memory.read t.tag.mem x = Memory.read s.tag.mem x) ∧ s.onlyIn [.tag, .bay] t) ∧
  (∀ (b : Option Bool) (s : State), s.tag.latch = some b →
    exec .latchIdleExpiry s = .next { s with tag := { s.tag with latch := none, releasedGen := some (s.tag.genOf b) } } ∧
    exec .latchMaxExpiry s = .next { s with tag := { s.tag with latch := none, releasedGen := some (s.tag.genOf b) } }) ∧
  (∀ s : State, s.tag.latch = none → exec .latchIdleExpiry s = .next s ∧ exec .latchMaxExpiry s = .next s) ∧
  (∀ (q : BitVec 48) (o : Byte) (s : State), s.supervisor = true → s.tag.inboxBusy = some q → s.tag.inboxAnswer = some o →
    ∃ t, exec .inboxAckAnswer s = .next t ∧ t.tag.inboxBusy = some q ∧ t.tag.inboxAnswer = none ∧
      t.tag.mainJobs = s.tag.mainJobs ++ [.marker q] ∧ t.tag.mem = s.tag.mem ∧ s.onlyIn [.tag, .link, .treor] t) ∧
  (∀ (q : BitVec 48) (l : List MainJob) (fails : List RowFail) (waited : Nat) (s : State), s.tagOk → s.tag.holder = .main → s.tag.mainJobs = .marker q :: l →
    s.bay.bridge = 0 →
    ∃ t, exec (.granuleEnd fails waited) s = .next t ∧ t.tag.inboxBusy = none ∧ t.tag.mainJobs = l ∧ t.tag.marker (q.getLsbD 0) = some q.toNat ∧
      (∀ x, x < 0xF020 ∨ 0xF040 ≤ x → Memory.read t.tag.mem x = Memory.read s.tag.mem x) ∧ s.onlyIn [.tag] t) ∧
  (∀ (l : List MainJob) (fails : List RowFail) (waited : Nat) (s : State), s.tagOk → s.tag.holder = .main → s.tag.mainJobs = .identity true :: l →
    s.tag.rowsAwait = true → s.power.nvWpN = true →
    ∃ t, exec (.granuleEnd fails waited) s = .next t ∧ t.tag.rowsAwait = false ∧ t.tag.mainJobs = l ∧ Memory.readN t.tag.mem 0xF000 32 = s.identityRows ∧
      (∀ x, x < 0xF000 ∨ 0xF020 ≤ x → Memory.read t.tag.mem x = Memory.read s.tag.mem x) ∧ s.onlyIn [.tag] t) ∧
  (∀ (r : Req) (m : Byte) (off len : Nat) (l : List MainJob) (fails : List RowFail) (waited : Nat) (s : State), s.live = true → s.tag.holder = .main →
    s.tag.mainJobs = .read off len [] :: l →
    len ≤ 256 - off % 16 → s.treor.waiting = [⟨.tagRead, r, 0x0A01, m⟩] →
    ∃ t, exec (.granuleEnd fails waited) s = .next t ∧
      State.answeredLate 0x0A01 r m 0 (Memory.readN s.tag.mem off len) { s with tag := t.tag } t ∧
      t.tag.mainJobs = l ∧ t.tag.mem = s.tag.mem) ∧
  (∀ (u : TagUpdate) (l : List MainJob) (fails : List RowFail) (waited : Nat) (s : State), s.tagOk → s.tag.holder = .main → s.tag.mainJobs = .update :: l →
    s.tag.update = some u → 1 ≤ u.step → u.step ≤ 44 →
    ∃ t, exec (.granuleEnd fails waited) s = .next t ∧ t.tag.update = some { u with step := u.step + 1 } ∧ t.tag.mainJobs = .update :: l ∧
      Memory.readN t.tag.mem (bankBase u.bank + 0x10 + 256 * (u.step - 1)) (slice u.image (256 * (u.step - 1)) 256).length = slice u.image (256 * (u.step - 1)) 256 ∧
      (∀ x, x < bankBase u.bank + 0x10 + 256 * (u.step - 1) ∨ bankBase u.bank + 0x110 + 256 * (u.step - 1) ≤ x →
        Memory.read t.tag.mem x = Memory.read s.tag.mem x) ∧ s.onlyIn [.tag] t) ∧
  (∀ (u : TagUpdate) (l : List MainJob) (fails : List RowFail) (waited : Nat) (s : State), s.tagOk → s.tag.holder = .main → s.tag.mainJobs = .update :: l →
    s.tag.update = some u → u.step = 0 →
    ∃ t, exec (.granuleEnd fails waited) s = .next t ∧ t.tag.update = some { u with step := 1 } ∧
      Memory.readN t.tag.mem (bankBase u.bank + 12) 4 = [0, 0, 0, 0] ∧ t.tag.bankValid u.bank = false ∧
      (∀ x, x < bankBase u.bank + 12 ∨ bankBase u.bank + 16 ≤ x → Memory.read t.tag.mem x = Memory.read s.tag.mem x) ∧ s.onlyIn [.tag] t)

/-- R140 to R142, R132, R133, R369 (WINDOW_UPDATE_START, WINDOW_UPDATE_COMMIT, TAGW_DEFER_TIMEOUT, TAGW_RECALL_DONE, TAGW_READ, TAGW_UPDATE, TAGW_STATUS): an update asks the arbiter for the granules that
write the standby bank, and commits its row; rows that differ are written once more, then the update is abandoned; the recall of the window shows in HRB_RECALL. -/
def Obligations.TagWindowUpdates : Prop :=
  (∀ (gen : Word) (s : State), s.supervisor = true → 2 ≤ s.hrb.rclTagw → s.tag.update = none → s.tag.due = true → s.tag.latch = none →
    gen = (if s.tag.committed = none then 1 else s.tag.gen + 1) →
    ∃ t u, exec .windowUpdateStart s = .next t ∧ t.tag.update = some u ∧ u.gen = gen ∧ u.bank = gen.getLsbD 0 ∧ u.step = 0 ∧
      t.tag.due = false ∧ t.tag.hostDue = none ∧ t.tag.mainJobs = s.tag.mainJobs ++ [.update] ∧ t.tag.mem = s.tag.mem ∧
      t.treor = { s.treor with waiting := t.treor.waiting } ∧ s.onlyIn [.tag, .treor] t) ∧
  (∀ (u : TagUpdate) (l : List MainJob) (waited : Nat) (s : State), s.tagOk → s.tag.update = some u → u.gen.getLsbD 0 = u.bank → s.tag.holder = .main →
    s.tag.mainJobs = .update :: l → 89 ≤ u.step →
    ∃ t, exec (.windowUpdateCommit [] waited) s = .next t ∧ t.tag.update = none ∧ t.tag.mainJobs = l ∧
      t.tag.bankValid u.bank = true ∧ t.tag.bankGen u.bank = u.gen.toNat ∧
      (∀ x, x < bankBase u.bank ∨ bankBase u.bank + 16 ≤ x → Memory.read t.tag.mem x = Memory.read s.tag.mem x) ∧
      t.hrb.evtC[2].set = true ∧ s.onlyIn [.tag, .hrb, .link, .treor] t) ∧
  (∀ (u : TagUpdate) (l : List MainJob) (bad : List Nat) (waited : Nat) (s : State), s.tagOk → s.tag.update = some u → s.tag.mainJobs = .update :: l → 89 ≤ u.step →
    bad ≠ [] → u.again = true →
    ∃ t, exec (.windowUpdateCommit bad waited) s = .next t ∧ t.tag.update = none ∧ t.tag.mainJobs = l ∧
      (∀ x, x < bankBase u.bank + 16 ∨ bankBase u.bank + 0x2C00 ≤ x → Memory.read t.tag.mem x = Memory.read s.tag.mem x) ∧
      t.hrb.evtC[2].set = true ∧ s.onlyIn [.tag, .hrb, .link, .treor, .free] t) ∧
  (∀ (h : HostUpdate) (gen : Word) (s : State), s.tag.hostDue = some h → h.deferred = false → gen = (if s.tag.committed = none then 1 else s.tag.gen + 1) →
    s.tag.latch = some (some (gen.getLsbD 0)) →
    ∃ t, exec .tagwDeferTimeout s = .next t ∧ t.tag = { s.tag with hostDue := some { h with deferred := true } } ∧
      s.onlyIn [.tag, .hrb, .link, .treor] t) ∧
  (∀ (rows : Bool) (ms : Nat) (s : State), s.supervisor = true → s.hrb.rclTagw = 1 →
    ∃ t, exec (.tagwRecallDone true rows ms) s = .next t ∧ t.hrb.rclTagw = 2 ∧ t.hrb.pagesTagw = 256 ∧ t.tag.due = true ∧ t.tag.mem = s.tag.mem ∧
      t.hrb.elapsed = BitVec.ofNat 16 (min 0xFFFF ms) ∧
      t.tag.cfg = [s.tag.cfgByte 0, s.tag.cfgByte 1, s.tag.cfgByte 2] ∧ s.onlyIn [.tag, .hrb, .link, .treor, .bay] t) ∧
  (∀ (rows : Bool) (ms : Nat) (s : State), s.supervisor = true → s.hrb.rclTagw = 1 →
    ∃ t, exec (.tagwRecallDone false rows ms) s = .next t ∧ t.hrb.rclTagw = 3 ∧ t.hrb.elapsed = BitVec.ofNat 16 (min 0xFFFF ms) ∧
      t.tag = { s.tag with askDue := t.tag.askDue } ∧ s.onlyIn [.tag, .hrb, .link, .treor, .bay] t) ∧
  (∀ (r : Req) (off len : BitVec 16) (s : State), s.takes 0x0A01 r true → r.body = leN 2 off.toNat ++ leN 2 len.toNat → len ≠ 0 → len.toNat ≤ 2048 →
    off.toNat + len.toNat ≤ 65536 →
    ∃ t, exec (.tagwRead r) s = .next t ∧ t.tag.mainJobs = s.tag.mainJobs ++ [.read off.toNat len.toNat []] ∧ t.tag.mem = s.tag.mem ∧
      t.treor = { s.treor with waiting := s.treor.waiting ++ [⟨.tagRead, r, 0x0A01, s.major r⟩] } ∧ s.onlyIn [.link, .hrb, .treor, .tag] t) ∧
  (∀ (r : Req) (off len : BitVec 16) (s : State), s.takes 0x0A01 r true → r.body = leN 2 off.toNat ++ leN 2 len.toNat →
    2048 < len.toNat ∨ (len ≠ 0 ∧ 65536 < off.toNat + len.toNat) →
    ∃ t, exec (.tagwRead r) s = .next t ∧ State.answered 0x0A01 r 0x0506 [] s t) ∧
  (∀ (r : Req) (a b c : Byte) (site : Bytes) (s : State), s.takes 0x0A02 r true → r.body = [a, b, c, 0] ++ leN 2 site.length ++ [0, 0] ++ site → site.length ≤ 2048 →
    a.toNat ≤ 1 → b.toNat ≤ 2 → c.toNat ≤ 3 → s.tag.hostDue = none →
    ∃ t, exec (.tagwUpdate r) s = .next t ∧ t.tag = { s.tag with hostDue := some { cfg := [a, b, c], site } } ∧
      t.treor = { s.treor with waiting := s.treor.waiting ++ [⟨.tagUpdate, r, 0x0A02, s.major r⟩] } ∧ s.onlyIn [.link, .hrb, .treor, .tag] t) ∧
  (∀ (r : Req) (a b c : Byte) (site : Bytes) (s : State), s.takes 0x0A02 r true → r.body = [a, b, c, 0] ++ leN 2 site.length ++ [0, 0] ++ site → site.length ≤ 2048 →
    1 < a.toNat ∨ 2 < b.toNat ∨ 3 < c.toNat →
    ∃ t, exec (.tagwUpdate r) s = .next t ∧ State.answered 0x0A02 r 0x0A03 [] s t) ∧
  (∀ (r : Req) (b : Bool) (s : State), s.takes 0x0A03 r true → r.body = [] → s.tag.committed = some b → s.tag.latch = none →
    ∃ t, exec (.tagwStatus r) s = .next t ∧ State.answered 0x0A03 r 0 (leN 4 s.tag.gen.toNat ++ [if b then 1 else 0, 0, BitVec.ofNat 8 s.tag.freeSlots, 0] ++
      leN 6 s.tag.pseq ++ leN 6 ((s.tag.newest.map Prod.snd).getD 0)) s t) ∧
  (∀ (u : TagUpdate) (l : List MainJob) (bad : List Nat) (waited : Nat) (s : State), s.tag.update = some u → s.tag.mainJobs = .update :: l → 89 ≤ u.step →
    bad ≠ [] → u.again = false →
    ∃ t, exec (.windowUpdateCommit bad waited) s = .next t ∧ t.tag.update = some { u with step := 1, again := true } ∧ t.tag.mainJobs = .update :: l ∧
      s.onlyIn [.tag, .free] t) ∧
  (∀ (gen : Word) (s : State), gen = (if s.tag.committed = none then 1 else s.tag.gen + 1) → s.tag.latch = some (some (gen.getLsbD 0)) →
    exec .windowUpdateStart s = .next s) ∧
  (∀ (gen : Word) (s : State), gen = (if s.tag.committed = none then 1 else s.tag.gen + 1) → s.tag.latch ≠ some (some (gen.getLsbD 0)) →
    exec .tagwDeferTimeout s = .next s)

/-- R152, R154, R155, R164, R165, R178, R181 (LINK_TRAINING_SET, LINK_TRAINING_TIMEOUT, LINK_RATE_TIMEOUT, LANE_ERROR_RETRAIN, LANE_FAIL, HOST_ORDERED_RETRAIN): the steps of a
training, which sets of 16 symbols move on, and what restarts one. -/
def Obligations.LinkTrains : Prop :=
  (∀ (ts : TrainSet) (rd : Bool) (count : Nat) (s : State), s.released = true → s.link.u.state = 1 → s.link.u.step = 0 → s.link.u.failed = 0 → ts.step = 0 → ts.lane = 0 →
    ts.ordered = false → 8 ≤ count →
    ∃ t, exec (.linkTrainingSet .u 0 ⟨rd, encodeSyms rd (setLead ++ ts.bytes.map dataCode)⟩ count) s = .next t ∧
      t = s.updLink .u fun l => { l with laneMask := l.laneMask ||| 1, step := 1, rx := t.link.u.rx }) ∧
  (∀ (side : LinkSide) (lane : Fin 4) (ts : TrainSet) (rd : Bool) (count : Nat) (s : State), s.released = true → (s.linkPort side).state = 1 → (s.linkPort side).step = 3 →
    ts.step = 3 → ts.ordered = false → ts.lane.toNat = (s.linkPort side).laneNo lane 3 → 8 ≤ count →
    ((s.linkPort side).hearSets lane ts.bytes count).allAccept 3 = true →
    ∃ t, exec (.linkTrainingSet side lane ⟨rd, encodeSyms rd (setLead ++ ts.bytes.map dataCode)⟩ count) s = .next t ∧
      (t.linkPort side).state = 2 ∧ (t.linkPort side).evUp.set = true ∧ (t.linkPort side).ordered = false ∧ (t.linkPort side).ackDue = true ∧
      (ts.fresh = true → (t.linkPort side).seq = 0 ∧ (t.linkPort side).expect = 0 ∧ (t.linkPort side).unacked = []) ∧
      t.hrb = { s.hrb with evtA := t.hrb.evtA } ∧ t.treor = { s.treor with session := t.treor.session, evLost := t.treor.evLost } ∧ s.onlyIn [.link, .hrb, .treor] t) ∧
  (∀ (side : LinkSide) (s : State), s.released = true → (s.linkPort side).state = 1 →
    exec (.linkTrainingTimeout side) s = .next (s.updLink side fun l =>
      { l with step := 0, rx := Vector.replicate 4 {}, laneMask := 0, width := 0, used := 0, lsel := 0, wire := none, nullified := none, ackDue := false, nakDue := false
               goBack := none, line := [], cnt2 := { l.cnt2 with lo := if l.cnt2.lo = 0xFFFF then 0xFFFF else l.cnt2.lo + 1 } })) ∧
  (∀ (side : LinkSide) (s : State), s.released = true → (s.linkPort side).state = 1 → (s.linkPort side).step = 2 →
    exec (.linkRateTimeout side) s = .next (s.updLink side fun l =>
      { l with step := 0, rx := Vector.replicate 4 {}, laneMask := 0, width := 0, used := 0, lsel := 0, wire := none, nullified := none, ackDue := false, nakDue := false
               goBack := none, line := [], l2bar := true })) ∧
  (∀ (side : LinkSide) (n : Fin 4) (s : State), s.released = true → (s.linkPort side).state = 2 → (s.linkPort side).used.getLsbD n = true →
    ∃ t, exec (.laneErrorRetrain side n) s = .next t ∧ (t.linkPort side).state = 1 ∧ (t.linkPort side).step = 0 ∧ (t.linkPort side).evDown.set = true ∧
      (t.linkPort side).ordered = false ∧ (t.linkPort side).failed = (s.linkPort side).failed ∧
      (t.linkPort side).unacked = (s.linkPort side).unacked ∧ (t.linkPort side).seq = (s.linkPort side).seq ∧
      t.hrb = { s.hrb with evtA := t.hrb.evtA } ∧ s.onlyIn [.link, .hrb] t) ∧
  (∀ (side : LinkSide) (n : Fin 4) (s : State), s.released = true → (s.linkPort side).state = 2 → (s.linkPort side).used.getLsbD n = true →
    ∃ t, exec (.laneFail side n) s = .next t ∧ (t.linkPort side).state = 1 ∧ (t.linkPort side).failed.getLsbD n = true ∧
      (t.linkPort side).evLane.set = true ∧ (t.linkPort side).evDown.set = true ∧
      t.hrb = { s.hrb with evtA := t.hrb.evtA } ∧ s.onlyIn [.link, .hrb] t) ∧
  (∀ (side : LinkSide) (late : Bool) (s : State), s.released = true → (s.linkPort side).state = 2 → (s.linkPort side).orderPend = true →
    late = true ∨ (s.linkPort side).orderAcked = true →
    ∃ t, exec (.hostOrderedRetrain side late) s = .next t ∧ (t.linkPort side).state = 1 ∧ (t.linkPort side).ordered = true ∧
      (t.linkPort side).orderPend = false ∧ (t.linkPort side).failed = 0 ∧ (t.linkPort side).l2bar = false ∧
      t.hrb = { s.hrb with evtA := t.hrb.evtA } ∧ s.onlyIn [.link, .hrb] t) ∧
  (∀ (side : LinkSide) (late : Bool) (s : State), (s.linkPort side).orderPend = false ∨ (late = false ∧ (s.linkPort side).orderAcked = false) →
    exec (.hostOrderedRetrain side late) s = .next s) ∧
  (∀ (side : LinkSide) (n : Fin 4) (s : State), s.released = true → (s.linkPort side).used.getLsbD n = false →
    ∃ t, exec (.laneFail side n) s = .next t ∧ (t.linkPort side).state = (s.linkPort side).state ∧ (t.linkPort side).failed.getLsbD n = true ∧
      (t.linkPort side).evLane.set = true ∧ t.hrb = { s.hrb with evtA := t.hrb.evtA } ∧ s.onlyIn [.link, .hrb] t)

/-- R152, R158 to R163, R166, R167 (LINK_BLOCK): a block is what the symbols of the lanes of the width carry; one that fails its checks is answered with NAK, a nullified
one is ignored, one sent again is acknowledged again, and a good one is delivered or forwarded. -/
def Obligations.LinkBlocksArrive : Prop :=
  (∀ (side : LinkSide) (m : Bytes) (rx : List LaneSyms) (s : State), allCodes rx = some (stripe (s.linkPort side).width.toNat [sobCode] [ebdCode] m) →
    exec (.linkBlock side rx) s = .next s) ∧
  (∀ (side : LinkSide) (m : Bytes) (rx : List LaneSyms) (w : Nat) (s : State), s.released = true → (s.linkPort side).state = 2 →
    w = (s.linkPort side).width.toNat → w = 1 ∨ w = 2 ∨ w = 4 → m.length = 268 →
    allCodes rx = none ∨ (allCodes rx = some (stripe w [sobCode] [eobCode] m) ∧
      (fld m 264 4 ≠ (crc32c (m.take 264)).toNat ∨ fld m 3 2 / 32 % 512 = 0 ∨ 256 < fld m 3 2 / 32 % 512 ∨ fld m 0 4 % 2 ^ 29 ≠ 0)) →
    exec (.linkBlock side rx) s = .next (s.updLink side fun l => { l with nakDue := true })) ∧
  (∀ (side : LinkSide) (b : LinkBlock) (rx : List LaneSyms) (w : Nat) (s : State), s.released = true → (s.linkPort side).state = 2 →
    w = (s.linkPort side).width.toNat → w = 1 ∨ w = 2 ∨ w = 4 → b.payload.length = 256 → allCodes rx = some (stripe w [sobCode] [eobCode] b.bytes) →
    0 < (b.hdr.extractLsb' 29 9).toNat → (b.hdr.extractLsb' 29 9).toNat ≤ 256 → b.hdr.extractLsb' 0 29 = 0 →
    b.hdr.extractLsb' 52 12 ≠ (s.linkPort side).expect → ((s.linkPort side).expect - b.hdr.extractLsb' 52 12).toNat ≤ 32 →
    exec (.linkBlock side rx) s = .next (s.updLink side fun l => { l with ackDue := true })) ∧
  (∀ (b : LinkBlock) (rx : List LaneSyms) (w : Nat) (s : State), s.released = true → s.link.u.state = 2 →
    w = s.link.u.width.toNat → w = 1 ∨ w = 2 ∨ w = 4 → b.payload.length = 256 → allCodes rx = some (stripe w [sobCode] [eobCode] b.bytes) →
    0 < (b.hdr.extractLsb' 29 9).toNat → (b.hdr.extractLsb' 29 9).toNat ≤ 256 → b.hdr.extractLsb' 0 29 = 0 →
    b.hdr.extractLsb' 52 12 = s.link.u.expect → b.hdr.extractLsb' 40 3 = 1 → b.hdr.getLsbD 45 = false → b.hdr.extractLsb' 46 6 = s.link.addr →
    s.link.u.taken[b.cls.toNat] < 8 →
    exec (.linkBlock .u rx) s = .next { s with link := { s.link with
      delivered := s.link.delivered ++ [.reg b]
      u := { s.link.u with
        expect := s.link.u.expect + 1, ackDue := true
        taken := s.link.u.taken.set b.cls.toNat (s.link.u.taken[b.cls.toNat] + 1) } } }) ∧
  (∀ (b : LinkBlock) (rx : List LaneSyms) (w : Nat) (s : State), s.released = true → s.link.d.state = 2 →
    w = s.link.d.width.toNat → w = 1 ∨ w = 2 ∨ w = 4 → b.payload.length = 256 → allCodes rx = some (stripe w [sobCode] [eobCode] b.bytes) →
    0 < (b.hdr.extractLsb' 29 9).toNat → (b.hdr.extractLsb' 29 9).toNat ≤ 256 → b.hdr.extractLsb' 0 29 = 0 →
    b.hdr.extractLsb' 52 12 = s.link.d.expect → (b.hdr.extractLsb' 40 3).toNat ≤ 3 → b.hdr.getLsbD 45 = false → s.link.addr < b.hdr.extractLsb' 46 6 →
    s.link.d.taken[b.cls.toNat] < 8 →
    exec (.linkBlock .d rx) s = .next { s with link := { s.link with
      u := { s.link.u with fwd := s.link.u.fwd.set b.cls.toNat (s.link.u.fwd[b.cls.toNat] ++ [{ blk := b, head := b.data.take 16 }]) }
      d := { s.link.d with
        expect := s.link.d.expect + 1, ackDue := true
        taken := s.link.d.taken.set b.cls.toNat (s.link.d.taken[b.cls.toNat] + 1) } } }) ∧
  (∀ (side : LinkSide) (b : LinkBlock) (rx : List LaneSyms) (w : Nat) (s : State), s.released = true → (s.linkPort side).state = 2 →
    w = (s.linkPort side).width.toNat → w = 1 ∨ w = 2 ∨ w = 4 → b.payload.length = 256 → allCodes rx = some (stripe w [sobCode] [eobCode] b.bytes) →
    b.hdr.extractLsb' 0 29 = 0 →
    0 < (b.hdr.extractLsb' 29 9).toNat → (b.hdr.extractLsb' 29 9).toNat ≤ 256 → b.hdr.extractLsb' 52 12 = (s.linkPort side).expect →
    24 ≤ (s.linkPort side).taken[b.cls.toNat] →
    ∃ t, exec (.linkBlock side rx) s = .next t ∧ (t.linkPort side).state = 1 ∧ (t.linkPort side).expect = (s.linkPort side).expect ∧
      s.onlyIn [.link, .hrb] t)

/-- R158, R160 to R163, R166, R171 (LCW_ACK, LCW_NAK, RESEND_TIMER, LCW_SEND_TIMER, BLOCK_SENT, ENUM_BLOCK): acknowledgement releases the window, NAK and the timer send it again, and a
block boundary sends the control word first, a NAK before an ACK, then the block that is next, with its CRC, over the lanes of the width. -/
def Obligations.LinkAcknowledges : Prop :=
  (∀ (side : LinkSide) (b : SentBlock) (r : List SentBlock) (c : Lcw) (rx : List LaneSyms) (w : Nat) (s : State), s.released = true → (s.linkPort side).state = 2 →
    w = (s.linkPort side).width.toNat → w = 1 ∨ w = 2 ∨ w = 4 → allCodes rx = some (stripe w [lcwCode] [] c.bytes) → c.nak = false → c.aseq = b.blk.hdr.extractLsb' 52 12 →
    (s.linkPort side).unacked = b :: r → b.slot = false → (s.linkPort side).goBack = none →
    exec (.lcwAck side rx) s = .next (s.updLink side fun l => { l with free := c.free, unacked := r })) ∧
  (∀ (side : LinkSide) (c : Lcw) (rx : List LaneSyms) (w : Nat) (s : State), s.released = true → (s.linkPort side).state = 2 →
    w = (s.linkPort side).width.toNat → w = 1 ∨ w = 2 ∨ w = 4 → allCodes rx = some (stripe w [lcwCode] [] c.bytes) → c.nak = false →
    (s.linkPort side).unacked = [] →
    exec (.lcwAck side rx) s = .next (s.updLink side fun l =>
      { l with free := c.free, cnt3 := { l.cnt3 with lo := if l.cnt3.lo = 0xFFFF then 0xFFFF else l.cnt3.lo + 1 } })) ∧
  (∀ (side : LinkSide) (b : SentBlock) (r : List SentBlock) (c : Lcw) (rx : List LaneSyms) (w : Nat) (s : State), s.released = true → (s.linkPort side).state = 2 →
    w = (s.linkPort side).width.toNat → w = 1 ∨ w = 2 ∨ w = 4 → allCodes rx = some (stripe w [lcwCode] [] c.bytes) → c.nak = true → c.aseq = b.blk.hdr.extractLsb' 52 12 →
    (s.linkPort side).unacked = b :: r → b.sends < 8 → (s.linkPort side).goBack = none →
    exec (.lcwNak side rx) s = .next (s.updLink side fun l =>
      { l with free := c.free, goBack := some 0, cnt0 := { l.cnt0 with lo := if l.cnt0.lo = 0xFFFF then 0xFFFF else l.cnt0.lo + 1 } })) ∧
  (∀ (side : LinkSide) (b : SentBlock) (r : List SentBlock) (s : State), s.released = true → (s.linkPort side).state = 2 →
    (s.linkPort side).unacked = b :: r → b.sends < 8 →
    exec (.resendTimer side) s = .next (s.updLink side fun l => { l with goBack := some 0 })) ∧
  (∀ (side : LinkSide) (b : SentBlock) (r : List SentBlock) (s : State), s.released = true → (s.linkPort side).state = 2 →
    (s.linkPort side).unacked = b :: r → 8 ≤ b.sends →
    ∃ t, exec (.resendTimer side) s = .next t ∧ (t.linkPort side).state = 1 ∧ (t.linkPort side).unacked = b :: r ∧ s.onlyIn [.link, .hrb] t) ∧
  (∀ (side : LinkSide) (s : State), s.released = true → (s.linkPort side).state = 2 →
    exec (.lcwSendTimer side) s = .next (s.updLink side fun l => { l with ackDue := true })) ∧
  (∀ (side : LinkSide) (c : Lcw) (n : Nat) (s : State), s.released = true → (s.linkPort side).state = 2 → (s.linkPort side).wire = none →
    (s.linkPort side).nakDue = false → (s.linkPort side).ackDue = true → c = ⟨false, (s.linkPort side).expect - 1, (s.linkPort side).freed⟩ →
    exec (.blockSent side true n) s = .next (s.updLink side fun l =>
      { l with ackDue := false, lastLcw := some c, line := stripe l.width.toNat [lcwCode] [] c.bytes })) ∧
  (∀ (w : WireBlock) (m : OutMsg) (r : List OutMsg) (n : Nat) (s : State), s.released = true → s.link.u.state = 2 →
    s.link.u.wire = some w → w.first = true → w.forwarded = false → s.link.u.nakDue = false → s.link.u.ackDue = true →
    s.link.u.own[w.blk.cls.toNat] = m :: r → m.bytes.length ≤ m.sent + 256 →
    ∃ t, exec (.blockSent .u true n) s = .next t ∧ t.link.u.own = s.link.u.own.set w.blk.cls.toNat r ∧ t.link.u.seq = s.link.u.seq + 1 ∧
      t.link.u.unacked = s.link.u.unacked ++ [{ blk := w.blk, sends := 1, slot := w.slot, counted := true, order := w.order }] ∧ t.link.u.wire = none ∧
      t.link.u.ackDue = false ∧ t.link.d = s.link.d ∧ s.onlyIn [.link] t) ∧
  (∀ (b : LinkBlock) (r : List Delivered) (s : State), s.released = true → s.link.delivered = .enumer b :: r →
    ∃ t m, exec .enumBlock s = .next t ∧ t.link.delivered = r ∧ t.link.etag = some (BitVec.ofNat 32 (fld b.data 0 4)) ∧
      t.link.u.own = s.link.u.own.set b.cls.toNat (s.link.u.own[b.cls.toNat] ++ [m]) ∧ m.kind = 2 ∧ m.src = .enumReply ∧ m.cls = b.cls ∧
      m.bytes.length = 32 ∧ m.bytes.take 5 = leN 4 (fld b.data 0 4) ++ [s.link.addr.setWidth 8] ∧
      slice m.bytes 8 16 = padTo 16 s.lc.unitId ∧ s.onlyIn [.link] t) ∧
  (∀ (side : LinkSide) (c : Lcw) (n : Nat) (s : State), s.released = true → (s.linkPort side).state = 2 → (s.linkPort side).wire = none →
    (s.linkPort side).nakDue = true → c = ⟨true, (s.linkPort side).expect, (s.linkPort side).freed⟩ →
    exec (.blockSent side true n) s = .next (s.updLink side fun l =>
      { l with nakDue := false, lastLcw := some c, line := stripe l.width.toNat [lcwCode] [] c.bytes
               cnt0 := { l.cnt0 with hi := if l.cnt0.hi = 0xFFFF then 0xFFFF else l.cnt0.hi + 1 } })) ∧
  (∀ (m : OutMsg) (r : List OutMsg) (b : LinkBlock) (n : Nat) (s : State), s.released = true → s.link.u.state = 2 → s.link.u.wire = none →
    s.link.u.nakDue = false → s.link.u.ackDue = false → s.link.u.goBack = none → s.link.u.own[0] = m :: r → m.begun = true → s.link.u.fwd[0] = [] →
    s.link.u.nullified = none → s.link.u.free[0] ≠ s.link.u.sent[0] → s.link.u.unacked.length < 32 →
    b = { hdr := blockHdr s.link.u.seq s.link.addr false m.cls m.kind (m.sent == 0) (m.bytes.length ≤ m.sent + 256) (slice m.bytes m.sent 256).length,
          payload := padTo 256 (slice m.bytes m.sent 256) } →
    exec (.blockSent .u true n) s = .next (s.updLink .u fun l =>
      { l with wire := some { blk := b, order := m.order }, line := stripe l.width.toNat [sobCode] [eobCode] (leN 8 b.hdr.toNat ++ b.payload ++
          leN 4 (crc32c (leN 8 b.hdr.toNat ++ b.payload)).toNat) }))

/-- R6, R7, R173 to R187, R251 (W1C_CLEAR, CLEARING_READ, HRB_IEN_WRITE, RTC_LO_READ, CARRIER_READ): a flag clears where 1 is written and no set comes with it; a read of an event register
clears its REPEAT counts; reads of counters clear them.
R5, R80, R83, R170, R174, R260 (REGISTER_WRITE, REG_BLOCK, MPU_REGION_WRITE): a write gives an RW field its value and leaves the rest; a REG block answers each operation with its result. -/
def Obligations.RegistersAreReadAndWritten : Prop :=
  (∀ (v : Word) (s : State), s.released = true →
    exec (.w1cClear (.hrb 0x080) v 0) s = .next { s with hrb := { s.hrb with
      evtA := Vector.ofFn fun i => { s.hrb.evtA[i] with set := s.hrb.evtA[i].set && !v.getLsbD i } } }) ∧
  (∀ (v w : Word) (i : Fin 6) (s : State), s.released = true → w.getLsbD i = true →
    ∃ t, exec (.w1cClear (.hrb 0x088) v w) s = .next t ∧ t.hrb.evtB[i].set = true ∧ t.hrb = { s.hrb with evtB := t.hrb.evtB } ∧ s.onlyIn [.hrb] t) ∧
  (∀ (p : Fin 512) (v : Word) (s : State), s.ownerCalls p = true →
    ∃ t, exec (.w1cClear (.port p 0x08) v 0) s = .next t ∧ t.sprig.ports[p].evWake.set = (s.sprig.ports[p].evWake.set && !v.getLsbD 0) ∧
      t.sprig.ports[p].evHead.set = (s.sprig.ports[p].evHead.set && !v.getLsbD 5) ∧ s.otherPorts p t ∧ s.onlyIn [.sprig] t) ∧
  (∀ s : State, s.released = true →
    exec (.clearingRead (.hrb 0x090)) s = .next { s with hrb := { s.hrb with evtC := s.hrb.evtC.map fun f => { f with rep := 0 } } }) ∧
  (∀ s : State, s.released = true → exec (.clearingRead (.hrb 0x074)) s = .next { s with hrb := { s.hrb with msgErr := { hi := 0, lo := 0 } } }) ∧
  (∀ s : State, s.released = true → exec (.clearingRead (.hrb 0x034)) s = .next { s with link := { s.link with u := { s.link.u with cnt3 := { hi := 0, lo := 0 } } } }) ∧
  (∀ (b : Fin 3) (v : Word) (s : State), s.released = true →
    ∃ t, exec (.hrbIenWrite b v) s = .next t ∧
      t.hrb = { s.hrb with
        ienA := if b = 0 then v.extractLsb' 0 6 else s.hrb.ienA
        ienB := if b = 1 then v.extractLsb' 0 6 else s.hrb.ienB
        ienC := if b = 2 then v.extractLsb' 0 6 else s.hrb.ienC } ∧ s.onlyIn [.hrb] t) ∧
  (∀ s : State, s.released = true →
    exec .rtcLoRead s = .next { s with hrb := { s.hrb with rtcHi := s.guard.rtcSub ++ BitVec.ofBool s.guard.rtcSet ++ s.guard.rtc.extractLsb' 32 16 } }) ∧
  (∀ (c : Fin 8) (i : Fin 128) (s : State), s.tenants.cores[c].slot = some i → s.calls i = true →
    ∃ t, exec (.carrierRead c) s = .next t ∧ t.tenants.cores[c] = { s.tenants.cores[c] with carrierHi := s.carrier.extractLsb' 32 32 } ∧
      t.tenants.slots = s.tenants.slots ∧ (∀ d : Fin 8, d ≠ c → t.tenants.cores[d] = s.tenants.cores[d]) ∧ s.onlyIn [.tenants] t) ∧
  (∀ (v : Word) (s : State), s.released = true → exec (.registerWrite (.hrb 0x01C) v) s = .next { s with hrb := { s.hrb with scratch := v } }) ∧
  (∀ (v : Word) (s : State), s.released = true → exec (.registerWrite (.hrb 0x000) v) s = .next s) ∧
  (∀ (p : Fin 512) (v : Word) (s : State), s.ownerCalls p = true → s.sprig.ports[p].page.busy = false →
    exec (.registerWrite (.port p 0x014) v) s = .next (s.updPort p fun x => { x with page := { x.page with cmdArg := v } })) ∧
  (∀ (p : Fin 512) (v : Word) (s : State), s.ownerCalls p = true → s.sprig.ports[p].page.busy = true →
    exec (.registerWrite (.port p 0x014) v) s = .next (s.updPort p fun x =>
      { x with page := { x.page with fence := if x.page.fence = 0xFFFF then 0xFFFF else x.page.fence + 1 } })) ∧
  (∀ (v : Word) (s : State), s.live = true → s.guard.powered = true →
    exec (.registerWrite (.bat 0x0) v) s = .next { s with guard := { s.guard with arm := v.getLsbD 3 } }) ∧
  (∀ (c : Fin 8) (n : Fin 16) (v : Word) (s : State), s.live = true → s.tenants.cores[c].mpu.en = false →
    exec (.mpuRegionWrite c n false v) s = .next (s.updCore c fun x => { x with mpu := { x.mpu with rbase := x.mpu.rbase.set n v } }) ∧
    exec (.mpuRegionWrite c n true v) s = .next (s.updCore c fun x => { x with mpu := { x.mpu with rlim := x.mpu.rlim.set n (v &&& 0xFFFFFFE1) } })) ∧
  (∀ (c : Fin 8) (n : Fin 16) (lim : Bool) (v : Word) (s : State), s.live = true → s.tenants.cores[c].mpu.en = true →
    exec (.mpuRegionWrite c n lim v) s = .next (s.updCore c fun x =>
      { x with mpu := { x.mpu with ignored := if x.mpu.ignored = 0xFFFF then 0xFFFF else x.mpu.ignored + 1 } })) ∧
  (∀ (b : LinkBlock) (r : List Delivered) (v : Word) (s : State), s.released = true → s.link.delivered = .reg b :: r →
    b.data = [1, 2, 3, 4, 1, 0, 0, 0] ++ ([0x1C, 0, 1, 0] ++ leN 4 v.toNat) →
    exec .regBlock s = .next { s with
      hrb := { s.hrb with scratch := v }
      link := { s.link with
        delivered := r
        u := { s.link.u.release b.cls with own := s.link.u.own.set b.cls.toNat (s.link.u.own[b.cls.toNat] ++
          [{ src := .regAnswer, kind := 1, cls := b.cls
             bytes := [1, 2, 3, 4, 1, 0, 0, 0] ++ ([0x1C, 0, 1, 0] ++ leN 4 v.toNat) }]) } } }) ∧
  (∀ (b : LinkBlock) (r : List Delivered) (s : State), s.released = true → s.link.delivered = .reg b :: r →
    b.data = [1, 2, 3, 4, 1, 0, 0, 0, 0x02, 0, 0, 0, 0, 0, 0, 0] →
    ∃ t, exec .regBlock s = .next t ∧ t.hrb = { s.hrb with regErr := { s.hrb.regErr with
        lo := if s.hrb.regErr.lo = 0xFFFF then 0xFFFF else s.hrb.regErr.lo + 1 } } ∧
      t.link = { s.link with
        delivered := r
        u := { s.link.u.release b.cls with own := s.link.u.own.set b.cls.toNat (s.link.u.own[b.cls.toNat] ++
          [{ src := .regAnswer, kind := 1, cls := b.cls, bytes := [1, 2, 3, 4, 1, 0, 0, 0, 0x02, 0, 0, 4, 0, 0, 0, 0] }]) } } ∧
      s.onlyIn [.link, .hrb] t)

/-- R199 to R202, Table 08-4, Table 08-5, Table 08-7 (HELLO, ECHO, DEV_INFO): the highest version common to both is selected, a failed HELLO clears what was negotiated,
one refused at steps 1 to 10 changes nothing. -/
def Obligations.HelloNegotiates : Prop :=
  (∀ (r : Req) (a b c : Byte) (s : State), s.supervisor = true → s.turn 0x0001 r = true → s.admitHead 0x0001 r = none → s.outAll < 256 → s.treor.waiting = [] →
    a.toNat ≤ 1 → r.body = [a, b, 2, c] ++ zeros 12 →
    ∃ t, exec (.hello r) s = .next t ∧
      State.answered 0x0001 r 0 ([2, 0, 1, 0, 2, 0] ++ leN 2 (s.unitEpoch 0 0).toNat ++ leN 4 0x1FFF ++ leN 2 32 ++ leN 2 4096)
        { s with treor := { s.treor with verMaj := 2, verMin := 0, hostCaps := 0, session := none, helloOk := true } } t) ∧
  (∀ (r : Req) (a b : Byte) (caps : Word) (s : State), s.supervisor = true → s.turn 0x0001 r = true → s.admitHead 0x0001 r = none → s.outAll < 256 → s.treor.waiting = [] →
    a.toNat = 0 ∨ a = 1 ∧ b.toNat ≤ 1 → r.body = [a, b, 1, 1] ++ leN 4 caps.toNat ++ zeros 8 →
    ∃ t, exec (.hello r) s = .next t ∧ t.treor.verMaj = 1 ∧ t.treor.verMin = 1 ∧ t.treor.hostCaps = caps ∧ t.treor.session = none ∧
      t.treor.params = s.treor.params ∧ s.onlyIn [.link, .treor, .tenants, .bay, .bqt] t) ∧
  (∀ (r : Req) (caps : Bytes) (lo hi : Nat) (s : State), s.supervisor = true → s.turn 0x0001 r = true → s.admitHead 0x0001 r = none → s.outAll < 256 → s.treor.waiting = [] →
    caps.length = 4 → hi < lo → lo < 65536 →
    r.body = [BitVec.ofNat 8 (lo / 256), BitVec.ofNat 8 lo, BitVec.ofNat 8 (hi / 256), BitVec.ofNat 8 hi] ++ caps ++ zeros 8 →
    ∃ t, exec (.hello r) s = .next t ∧
      State.answered 0x0001 r 0x0108 [] { s with treor := { s.treor with verMaj := 0, verMin := 0, hostCaps := 0, session := none } } t) ∧
  (∀ (r : Req) (caps : Bytes) (lo hi : Nat) (s : State), s.supervisor = true → s.turn 0x0001 r = true → s.admitHead 0x0001 r = none → s.outAll < 256 → s.treor.waiting = [] →
    caps.length = 4 → lo ≤ hi → hi < 0x100 ∨ (0x101 < lo ∧ hi < 0x200) ∨ 0x200 < lo → hi < 65536 →
    r.body = [BitVec.ofNat 8 (lo / 256), BitVec.ofNat 8 lo, BitVec.ofNat 8 (hi / 256), BitVec.ofNat 8 hi] ++ caps ++ zeros 8 →
    ∃ t, exec (.hello r) s = .next t ∧
      State.answered 0x0001 r 0x0102 [1, 0, 2, 0] { s with treor := { s.treor with verMaj := 0, verMin := 0, hostCaps := 0, session := none } } t) ∧
  (∀ (r : Req) (s : State), s.supervisor = true → s.turn 0x0001 r = true → r.rsp = false → r.evt = false → r.rsvd = 0 → r.status = 0 → r.cls = r.wire → r.kind = 0 →
    r.index = 0 → r.epoch = 0 → r.cls = 0 → ∃ t, exec (.hello r) s = .next t ∧ State.answered 0x0001 r 0x0107 [] s t) ∧
  (∀ (r : Req) (s : State), s.takes 0x0002 r true → r.body.length ≤ 4080 → ∃ t, exec (.echo r) s = .next t ∧ State.answered 0x0002 r 0 r.body s t) ∧
  (∀ (r : Req) (s : State), s.takes 0x0003 r true → r.body = [] → s.bqt.member = none →
    ∃ t, exec (.devInfo r) s = .next t ∧ State.answered 0x0003 r 0 (padTo 16 s.lc.unitId ++ leN 4 (s.hrbRead 0x000).toNat ++ leN 4 s.hrb.fwver.toNat ++
      [BitVec.ofNat 8 s.lc.state.code, BitVec.ofNat 8 (b2n (s.recalled && s.guard.tampered) + 2 * b2n s.lc.pending), s.bay.seenSeal.setWidth 8,
       BitVec.ofNat 8 (s.tenants.slots.toList.countP fun k => k.state != .free)] ++ leN 4 0 ++ leN 2 0xFFFF ++ leN 2 s.bootEpoch.toNat ++ leN 2 s.tcnt ++ [0, 0]) s t) ∧
  (∀ (r : Req) (s : State), s.supervisor = true → s.turn 0x0001 r = true → s.admitHead 0x0001 r = none → s.treor.waiting ≠ [] →
    exec (.hello r) s = .next (s.arrive 0x0001 r))

/-- R203 (ADMIN_CHALLENGE, ADMIN_OPEN, ADMIN_LOCKOUT, ADMIN_LOCKOUT_END, ADMIN_CLOSE, ADMIN_IDLE_TIMEOUT): a fresh nonce serves one ADMIN_OPEN, a listed key whose signature over
it verifies opens the session, and the fourth failure in a row locks out. -/
def Obligations.AdminSession : Prop :=
  (∀ (r : Req) (s : State), s.takes 0x0101 r true → r.body = [] → s.treor.lockout = true →
    ∃ t, exec (.adminChallenge r) s = .next t ∧ State.answered 0x0101 r 0x0206 [] s t) ∧
  (∀ (r : Req) (s : State), s.takes 0x0101 r true → r.body = [] → s.treor.lockout = false →
    (s.mint.insts[(147 : Fin 160)]).inst = true → (s.mint.insts[(147 : Fin 160)]).reseedReq = false → s.reseedDue s.mint.insts[(147 : Fin 160)] = false →
    s.mint.waitq = [] →
    ∃ t, exec (.adminChallenge r) s = .next t ∧ State.answered 0x0101 r 0 (s.drawOut (ownDraw 147 16))
      { s.drawNow (ownDraw 147 16) with treor := { s.treor with nonce := some (s.drawOut (ownDraw 147 16)) } } t ∧
      (t.mint.insts[(147 : Fin 160)]).uses = (s.mint.insts[(147 : Fin 160)]).uses + 1 ∧ t.mint.pool = s.mint.pool) ∧
  (∀ (r : Req) (s : State), s.takes 0x0101 r true → r.body = [] → s.treor.lockout = false → (s.mint.insts[(147 : Fin 160)]).inst = false → s.mint.state = .failed →
    ∃ t, exec (.adminChallenge r) s = .next t ∧ State.answered 0x0101 r 0x0602 [] { s with treor := { s.treor with nonce := none } } t) ∧
  (∀ (r : Req) (s : State), s.takes 0x0101 r true → r.body = [] → s.treor.lockout = false → (s.mint.insts[(147 : Fin 160)]).inst = false → s.mint.state = .startup →
    ∃ t, exec (.adminChallenge r) s = .next t ∧ t.treor = { s.treor with waiting := s.treor.waiting ++ [⟨.nonceDraw, r, 0x0101, s.major r⟩] } ∧
      t.mint = { s.mint with waitq := s.mint.waitq ++ [{ client := .challenge, inst := 147, len := 16 }] } ∧ s.onlyIn [.link, .hrb, .treor, .mint] t) ∧
  (∀ (r : Req) (pub sig n : Bytes) (i : Fin 4) (s : State), s.takes 0x0102 r true → r.body = pub ++ sig → pub.length = 64 → sig.length = 64 →
    s.treor.lockout = false → s.treor.nonce = some n → s.lc.admins[i] = sha pub → (∀ j : Fin 4, j < i → s.lc.admins[j] ≠ sha pub) →
    ecdsaVerify pub (ascii "TREOR-ADMIN" ++ padTo 16 s.lc.unitId ++ leN 2 s.bootEpoch.toNat ++ n) sig = true →
    ∃ t, exec (.adminOpen r) s = .next t ∧ State.answered 0x0102 r 0 [BitVec.ofNat 8 i.val, 0, 0, 0]
      { s with treor := { s.treor with nonce := none, session := some (BitVec.ofNat 2 i.val), fails := 0 } } t) ∧
  (∀ (r : Req) (s : State), s.takes 0x0102 r true → r.body.length = 128 → s.treor.lockout = false → s.treor.nonce = none → s.treor.fails < 3 →
    ∃ t, exec (.adminOpen r) s = .next t ∧ State.answered 0x0102 r 0x0206 [] { s with treor := { s.treor with fails := s.treor.fails + 1 } } t) ∧
  (∀ (r : Req) (n : Bytes) (s : State), s.takes 0x0102 r true → r.body.length = 128 → s.treor.lockout = true → s.treor.nonce = some n →
    ∃ t, exec (.adminOpen r) s = .next t ∧ State.answered 0x0102 r 0x0206 [] { s with treor := { s.treor with nonce := none } } t) ∧
  (∀ (r : Req) (s : State), s.takes 0x0102 r true → r.body.length = 128 → s.treor.lockout = false → s.treor.nonce = none → s.treor.fails = 3 →
    ∃ t, exec (.adminLockout r) s = .next t ∧ State.answered 0x0102 r 0x0206 [] { s with treor := { s.treor with fails := 4, lockout := true } } t) ∧
  (∀ s : State, s.live = true → s.treor.lockout = true →
    exec .adminLockoutEnd s = .next { s with treor := { s.treor with lockout := false, fails := 0 } }) ∧
  (∀ (r : Req) (s : State), s.takes 0x0103 r true → r.body = [] →
    ∃ t, exec (.adminClose r) s = .next t ∧ State.answered 0x0103 r 0 [] { s with treor := { s.treor with session := none } } t) ∧
  (∀ s : State, s.live = true → exec .adminIdleTimeout s = .next { s with treor := { s.treor with session := none } })

/-- R209 to R211, R222, R438, Table 08-12 (PARAM_GET, PARAM_SET, PARAM_LIST): a parameter set reads back and leaves the others; the checks come in order; a tenant resource
is staged; a lowered protection is logged in DEPLOYED. -/
def Obligations.ParametersAreKept : Prop :=
  (∀ (r : Req) (n i : BitVec 16) (s : State), s.takes 0x0201 r true → r.body = leN 2 n.toNat ++ leN 2 i.toNat → param? n.toNat = none →
    ∃ t, exec (.paramGet r) s = .next t ∧ State.answered 0x0201 r 0x0310 [] s t) ∧
  (∀ (r : Req) (n i : BitVec 16) (p : Param) (s : State), s.takes 0x0201 r true → r.body = leN 2 n.toNat ++ leN 2 i.toNat → param? n.toNat = some p →
    p.inScope i.toNat = false → ∃ t, exec (.paramGet r) s = .next t ∧ State.answered 0x0201 r 0x0313 [] s t) ∧
  (∀ (r : Req) (n i : BitVec 16) (p : Param) (s : State), s.takes 0x0201 r true → r.body = leN 2 n.toNat ++ leN 2 i.toNat → param? n.toNat = some p →
    p.inScope i.toNat = true → p.staged = false →
    ∃ t, exec (.paramGet r) s = .next t ∧ State.answered 0x0201 r 0 (leN 2 n.toNat ++ leN 2 i.toNat ++ [BitVec.ofNat 8 p.type, if p.readOnly then 4 else 0, 0, 0] ++
      leN 4 (BitVec.ofNat 32 (s.param n.toNat i.toNat)).toNat ++ leN 4 (BitVec.ofNat 32 (s.param n.toNat i.toNat)).toNat) s t) ∧
  (∀ (r : Req) (n i : BitVec 16) (v : Word) (p : Param) (s : State), s.takes 0x0202 r true → r.body = leN 2 n.toNat ++ leN 2 i.toNat ++ zeros 4 ++ leN 4 v.toNat →
    param? n.toNat = some p → p.inScope i.toNat = true → p.staged = false → p.readOnly = false → p.allows v = true → p.scope ≠ 1 → isTamperParam n.toNat = false →
    s.commits = true →
    ∃ t, exec (.paramSet r) s = .next t ∧ t.param n.toNat i.toNat = v.toNat ∧
      (∀ m j, m ≠ n.toNat ∨ j ≠ i.toNat → t.param m j = s.param m j) ∧
      State.answered 0x0202 r 0 (leN 2 n.toNat ++ leN 2 i.toNat ++ [BitVec.ofNat 8 p.type, 0, 0, 0] ++ leN 4 v.toNat ++ leN 4 v.toNat)
        { s with treor := { s.treor with params := t.treor.params } } t) ∧
  (∀ (r : Req) (n i : BitVec 16) (v : Word) (p : Param) (st : BitVec 16) (s : State), s.takes 0x0202 r true →
    r.body = leN 2 n.toNat ++ leN 2 i.toNat ++ zeros 4 ++ leN 4 v.toNat → param? n.toNat = some p → p.inScope i.toNat = true →
    (p.readOnly = true ∧ st = 0x0312) ∨ (p.readOnly = false ∧ p.allows v = false ∧ st = 0x0311) ∨
      (p.readOnly = false ∧ p.allows v = true ∧ p.scope ≠ 1 ∧ s.commits = false ∧ st = 0x0501) →
    ∃ t, exec (.paramSet r) s = .next t ∧ State.answered 0x0202 r st [] s t) ∧
  (∀ (r : Req) (i : Fin 128) (v : Byte) (s : State), s.takes 0x0202 r true → r.body = [0x00, 0x07] ++ leN 2 i.val ++ zeros 4 ++ [v, 0, 0, 0] → v.toNat ≤ 64 →
    (s.tenants.slots[i]).removing = false → s.commits = true →
    ∃ t b, exec (.paramSet r) s = .next t ∧ State.answered 0x0202 r 0 b (s.updSlot i fun k => { k with stage := { k.stage with weight := v.toNat } }) t) ∧
  (∀ (r : Req) (s : State), s.takes 0x0202 r true → r.body = [0x00, 0x08] ++ zeros 10 → s.param 0x0800 0 = 1 → s.commits = true → s.lc.state = .deployed →
    s.guard.powered = true →
    ∃ t e, exec (.paramSet r) s = .next t ∧ t.param 0x0800 0 = 0 ∧ t.store.log.getLast? = some e ∧ e.code = 0x28 ∧ t.guard.copy = tamperParams t.treor.params ∧
      t.guard = { s.guard with copy := t.guard.copy } ∧ t.store = { s.store with log := t.store.log, logSeq := s.store.logSeq + 1 } ∧
      s.onlyIn [.link, .hrb, .treor, .store, .guard] t) ∧
  (∀ (r : Req) (s : State), s.takes 0x0203 r true → r.body = [0x00, 0x0D, 5, 0] →
    ∃ t, exec (.paramList r) s = .next t ∧
      State.answered 0x0203 r 0 ([1, 0, 0xFF, 0xFF] ++ ([0x00, 0x0D, 3, 0] ++ leN 4 60 ++ leN 4 86400 ++ leN 4 3600)) s t) ∧
  (∀ (r : Req) (s : State), s.takes 0x0203 r true → r.body = [0x03, 0x0C, 1, 0] →
    ∃ t, exec (.paramList r) s = .next t ∧
      State.answered 0x0203 r 0 ([1, 0, 0x00, 0x0D] ++ ([0x03, 0x0C, 6, 0] ++ leN 4 1 ++ leN 4 3 ++ leN 4 2)) s t) ∧
  (∀ (r : Req) (n : BitVec 16) (s : State), s.takes 0x0203 r true → r.body = leN 2 n.toNat ++ [1, 0] → 0x0D00 < n.toNat →
    ∃ t, exec (.paramList r) s = .next t ∧ State.answered 0x0203 r 0 [0, 0, 0xFF, 0xFF] s t)

/-- R192, R193, Table 08-3: a request that fails a check is answered with its status and changes nothing but the count of stale epochs. -/
def Obligations.RefusedRequestsChangeNothing : Prop :=
  ∀ (c : Instr) (op : BitVec 16) (r : Req) (st : BitVec 16) (p : Bytes) (s : State), asRequest c = some (op, r) → s.supervisor = true → s.turn op r = true →
    s.admitHead op r = some (st, p) →
    ∃ t, exec c s = .next t ∧
      State.answered op r st p (if st = 0x0203 then { s with hrb := { s.hrb with msgErr := s.hrb.msgErr.incLo } } else s) t

/-- R192 to R195, R203, Table 08-3: the steps whose order matters. A bad header comes before everything; a stale epoch before the opcode, class, session and
life-cycle checks; outside the supervisor's run the boot ROM's own status answers; a request in a save or in reset gets no answer.
One that has to wait for another (R196, R197, R200) stays among the messages delivered. -/
def Obligations.RequestsAreCheckedInOrder : Prop :=
  (∀ (c : Instr) (op : BitVec 16) (r : Req) (s : State), asRequest c = some (op, r) → s.supervisor = true → s.turn op r = true →
    r.rsp = true ∨ r.evt = true ∨ r.rsvd ≠ 0 ∨ r.status ≠ 0 ∨ r.cls ≠ r.wire →
    ∃ t, exec c s = .next t ∧ State.answered op r 0x0103 [] s t) ∧
  (∀ (c : Instr) (op : BitVec 16) (r : Req) (s : State), asRequest c = some (op, r) → s.supervisor = true → s.turn op r = true → op ≠ 0x0001 → r.rsp = false → r.evt = false →
    r.rsvd = 0 → r.status = 0 → r.cls = r.wire → s.treor.verMaj = 0 ∨ r.major.toNat ≠ s.treor.verMaj →
    ∃ t, exec c s = .next t ∧ State.answered op r 0x0102 [1, 0, 2, 0] s t) ∧
  (∀ (c : Instr) (op : BitVec 16) (r : Req) (s : State), asRequest c = some (op, r) → s.supervisor = true → s.turn op r = true → op ≠ 0x0001 → r.rsp = false → r.evt = false →
    r.rsvd = 0 → r.status = 0 → r.cls = r.wire → s.treor.verMaj ≠ 0 → r.major.toNat = s.treor.verMaj → r.kind = 0 → r.index = 0 →
    r.epoch ≠ s.unitEpoch 0 0 →
    ∃ t, exec c s = .next t ∧ State.answered op r 0x0203 [] { s with hrb := { s.hrb with msgErr := { s.hrb.msgErr with
      lo := if s.hrb.msgErr.lo = 0xFFFF then 0xFFFF else s.hrb.msgErr.lo + 1 } } } t) ∧
  (∀ (r : Req) (s : State), s.supervisor = true → s.turn 0x0202 r = true → r.rsp = false → r.evt = false → r.rsvd = 0 → r.status = 0 → r.cls = r.wire →
    s.treor.verMaj ≠ 0 → r.major.toNat = s.treor.verMaj → r.kind = 0 → r.index = 0 → r.epoch = s.unitEpoch 0 0 → r.cls ≠ 0 → s.treor.session = none →
    ∃ t, exec (.paramSet r) s = .next t ∧ State.answered 0x0202 r 0x0205 [] s t) ∧
  (∀ (c : Instr) (op : BitVec 16) (r : Req) (s : State), asRequest c = some (op, r) → s.supervisor = true → s.turn op r = true → s.lc.state = .invalid → servedInvalid op = false →
    r.rsp = false → r.evt = false → r.rsvd = 0 → r.status = 0 → r.cls = r.wire → s.treor.verMaj = 2 → r.major = 2 → r.kind = 0 → r.index = 0 →
    r.epoch = s.unitEpoch 0 0 → r.cls ≠ 0 → s.treor.session ≠ none → (opTarget op).map Prod.fst = some 0 →
    ∃ t, exec c s = .next t ∧ State.answered op r 0x0702 [] s t) ∧
  (∀ (c : Instr) (op : BitVec 16) (r : Req) (s : State), asRequest c = some (op, r) → s.power.run = .serviceOnly → s.turn op r = true →
    ∃ t, exec c s = .next t ∧ State.answered op r 0x0501 [] s t) ∧
  (∀ (c : Instr) (op : BitVec 16) (r : Req) (s : State), asRequest c = some (op, r) → s.power.run = .bootRom → s.turn op r = true →
    ∃ t, exec c s = .next t ∧ State.answered op r 0x0510 [] s t) ∧
  (∀ (c : Instr) (op : BitVec 16) (r : Req) (s : State), asRequest c = some (op, r) → s.live = false →
    exec c s = .next { s with link := { s.link with delivered := dropDelivered op r s.link.delivered } }) ∧
  (∀ (c : Instr) (op : BitVec 16) (r : Req) (s : State), asRequest c = some (op, r) → s.live = true → s.turn op r = false →
    exec c s = .next (s.arrive op r)) ∧
  (∀ (op q : BitVec 16) (r m : Req) (s : State), s.link.delivered = [.message q m, .message op r] → q ≠ 0x0001 → r.wire = 0 → m.wire ≠ 0 →
    s.turn op r = (op != 0x0001))

/-- R205, R213, R222 to R225, R227, R228, R230 to R232, R240, Table 09-6, Table 09-8 (SLOT_STATUS, SLOT_ASSIGN, SLOT_APPLY, SLOT_DISCARD_STAGE, SLOT_QUIESCE, QUIESCE_COMPLETE, QUIESCE_JOB_TIMEOUT,
SLOT_START, SLOT_RESET, SLOT_REMOVE, SLOT_REMOVE_DONE): the life of a tenant slot. -/
def Obligations.SlotsLive : Prop :=
  (∀ (r : Req) (i : Fin 128) (s : State), s.takes 0x0301 r true → r.body = [BitVec.ofNat 8 i.val, 0, 0, 0] → (s.tenants.slots[i]).retired = none →
    ∃ t, exec (.slotStatus r) s = .next t ∧ State.answered 0x0301 r 0 ([BitVec.ofNat 8 i.val, BitVec.ofNat 8 (s.tenants.slots[i]).state.code] ++
      leN 2 (s.store.slotEpoch[i]).toNat ++ [(s.tenants.slots[i]).role, 0, 0, 0] ++ leN 8 (s.tenants.slots[i]).tenantId.toNat) s t) ∧
  (∀ (r : Req) (i : Fin 128) (role : Fin 4) (id : BitVec 64) (hash : Bytes) (s : State), s.takes 0x0302 r true →
    r.body = [BitVec.ofNat 8 i.val, BitVec.ofNat 8 role.val, 0, 0] ++ leN 8 id.toNat ++ hash → hash.length = 32 → id ≠ 0 →
    (∀ j : Fin 128, j ≠ i → (s.tenants.slots[j]).state = .free ∨ (s.tenants.slots[j]).state = .retired ∨ (s.tenants.slots[j]).tenantId ≠ id) →
    (s.tenants.slots[i]).state = .free ∨ (s.tenants.slots[i]).state = .retired → s.commits = true →
    ∃ t, exec (.slotAssign r) s = .next t ∧ State.answeredFirst 0x0302 r 0 ([BitVec.ofNat 8 i.val, 1] ++ leN 2 (nextEpoch s.store.slotEpoch[i]).toNat) s t ∧
      t.tenants.slots[i] = { state := .assigned, tenantId := id, authHash := hash, role := BitVec.ofNat 8 role.val } ∧ s.otherSlots i t ∧
      t.store = { s.store with slotEpoch := s.store.slotEpoch.set i (nextEpoch s.store.slotEpoch[i]) } ∧ t.hrb.evtC[(4 : Fin 6)].set = true ∧
      t.bqt.exports[i] = none ∧ s.onlyIn [.link, .hrb, .treor, .tenants, .store, .bqt] t) ∧
  (∀ (r : Req) (s : State), s.takes 0x0302 r true → r.body.length = 44 → fld r.body 0 1 < 128 → fld r.body 1 1 ≤ 3 → fld r.body 2 1 ≤ 1 → byteAt r.body 3 = 0 →
    BitVec.ofNat 64 (fld r.body 4 8) ≠ 0 →
    (∀ j : Fin 128, j.val ≠ fld r.body 0 1 → (s.tenants.slots[j]).tenantId ≠ BitVec.ofNat 64 (fld r.body 4 8)) →
    (s.tenants.slots[(Fin.ofNat 128 (fld r.body 0 1))]).state = .running →
    ∃ t, exec (.slotAssign r) s = .next t ∧ State.answered 0x0302 r 0x030A [] s t) ∧
  (∀ (r : Req) (force : Bool) (s : State), s.takes 0x0303 r true → r.body = [if force then 1 else 0, 0, 0, 0] → (s.tenants.slots[r.slot]).removing = false →
    s.applyCheck r.slot force = none → s.commits = true →
    ∃ t, exec (.slotApply r) s = .next t ∧
      t.tenants.slots[r.slot] = { s.tenants.slots[r.slot] with apply := some { force, target := (s.tenants.slots[r.slot]).stage } } ∧ s.otherSlots r.slot t ∧
      t.treor = { s.treor with waiting := s.treor.waiting ++ [⟨.apply r.slot, r, 0x0303, s.major r⟩] } ∧ t.sprig = s.sprig ∧ s.onlyIn [.link, .hrb, .treor, .tenants] t) ∧
  (∀ (r : Req) (st : BitVec 16) (s : State), s.takes 0x0303 r true → r.body = [0, 0, 0, 0] → (s.tenants.slots[r.slot]).removing = false →
    (s.tenants.slots[r.slot].state = .free ∨ s.tenants.slots[r.slot].state = .quiescing ∨ s.tenants.slots[r.slot].state = .retired) ∧ st = 0x030A ∨
      (s.tenants.slots[r.slot].state = .assigned ∧ s.tenants.slots[r.slot].apply = none ∧ s.exported r.slot = false ∧
        s.tenants.slots[r.slot].stage = s.tenants.slots[r.slot].run ∧ st = 0x030B) ∨
      (s.tenants.slots[r.slot].state = .running ∧ s.tenants.slots[r.slot].apply = none ∧ s.exported r.slot = false ∧
        s.tenants.slots[r.slot].stage ≠ s.tenants.slots[r.slot].run ∧ 64 < s.tenants.slots[r.slot].stage.weight ∧ st = 0x0301) →
    ∃ t, exec (.slotApply r) s = .next t ∧ State.answered 0x0303 r st [] s t) ∧
  (∀ (r : Req) (s : State), s.takes 0x0304 r true → r.body = [] → (s.tenants.slots[r.slot]).removing = false → s.commits = true →
    (s.tenants.slots[r.slot]).state = .assigned ∨ (s.tenants.slots[r.slot]).state = .running ∨ (s.tenants.slots[r.slot]).state = .quiesced →
    ∃ t, exec (.slotDiscardStage r) s = .next t ∧ State.answered 0x0304 r 0 [] (s.updSlot r.slot fun k => { k with stage := k.run }) t) ∧
  (∀ (r : Req) (s : State), s.takes 0x0305 r true → r.body = [] → (s.tenants.slots[r.slot]).removing = false → (s.tenants.slots[r.slot]).state = .running →
    ∃ t, exec (.slotQuiesce r) s = .next t ∧ (t.tenants.slots[r.slot]).state = .quiescing ∧
      (∀ j : Fin 128, j ≠ r.slot → (t.tenants.slots[j]).state = (s.tenants.slots[j]).state) ∧ t.onCore r.slot = false ∧
      (∀ p : Fin 512, (s.sprig.ports[p]).owner = some r.slot → (s.sprig.ports[p]).state = .active → (t.sprig.ports[p]).askEnd = true) ∧
      (∀ p : Fin 512, (s.sprig.ports[p]).owner ≠ some r.slot → t.sprig.ports[p] = s.sprig.ports[p]) ∧ t.hrb.evtC[(4 : Fin 6)].set = true ∧
      t.treor = { s.treor with waiting := s.treor.waiting ++ [⟨.quiesce r.slot, r, 0x0305, s.major r⟩] } ∧
      s.onlyIn [.link, .hrb, .treor, .tenants, .sprig, .kct, .pke, .mint, .free] t) ∧
  (∀ (r : Req) (s : State), s.takes 0x0305 r true → r.body = [] → (s.tenants.slots[r.slot]).removing = false → (s.tenants.slots[r.slot]).state ≠ .running →
    ∃ t, exec (.slotQuiesce r) s = .next t ∧ State.answered 0x0305 r 0x030A [] s t) ∧
  (∀ (i : Fin 128) (us : Word) (q : Quiesce) (r : Req) (m : Byte) (s : State), s.live = true → (s.tenants.slots[i]).state = .quiescing → s.slotBusy i = false →
    s.activePorts i = 0 → (s.tenants.slots[i]).quiesce = some q → (s.tenants.slots[i]).cold = false → s.treor.waiting = [⟨.quiesce i, r, 0x0305, m⟩] →
    ∃ t, exec (.quiesceComplete i us) s = .next t ∧ t.tenants.slots[i] = { s.tenants.slots[i] with state := .quiesced, quiesce := none } ∧ s.otherSlots i t ∧
      t.treor.waiting = [] ∧ (t.link.u.own[r.cls.toNat])[(s.link.u.own[r.cls.toNat]).length]? = some (OutMsg.mk .response 0 r.cls
        (message m r.cls true false r.kind r.index (s.unitEpoch r.kind r.index) r.tag 0x0305 0 (leN 2 q.jobs ++ leN 2 q.ports ++ leN 4 us.toNat)) 0 false false) ∧
      s.onlyIn [.link, .hrb, .treor, .tenants, .kct] t) ∧
  (∀ (i : Fin 128) (s : State), s.live = true → (s.tenants.slots[i]).state = .quiescing → (s.pke.pages[i]).job.all (·.ending.isNone) = true →
    ∃ t, exec (.quiesceJobTimeout i) s = .next t ∧
      (∀ p : Fin 32, ((s.cipher.pages[i])[p]).busy = true → ((t.cipher.pages[i])[p]).busy = false ∧ ((t.cipher.pages[i])[p]).status = 0x0409) ∧
      ((s.pke.pages[i]).busy = true → s.pke.running = none → (t.pke.pages[i]).busy = false ∧ (t.pke.pages[i]).status = 0x0409) ∧
      (s.pke.running ≠ none → (t.pke.pages[i]).job = (s.pke.pages[i]).job.map fun j => { j with ending := some 0x0409 }) ∧
      (∀ j : Fin 128, j ≠ i → t.cipher.pages[j] = s.cipher.pages[j] ∧ t.pke.pages[j] = s.pke.pages[j]) ∧
      (t.tenants.slots[i]).quiesce = (s.tenants.slots[i]).quiesce.map (fun q => { q with jobs := q.jobs + s.engineJobs i }) ∧
      t.tenants.slots[i] = { s.tenants.slots[i] with
        quiesce := (t.tenants.slots[i]).quiesce, jobDone := (t.tenants.slots[i]).jobDone, sram := (t.tenants.slots[i]).sram } ∧
      (∀ p : Fin 512, t.sprig.ports[p] = { s.sprig.ports[p] with page := (t.sprig.ports[p]).page }) ∧ (s.requests i = 0 → t.sprig = s.sprig) ∧
      s.otherSlots i t ∧ s.onlyIn [.tenants, .cipher, .pke, .mint, .sprig, .free] t) ∧
  (∀ (r : Req) (b : Bytes) (s : State), s.takes 0x0306 r true → r.body = [] → (s.tenants.slots[r.slot]).removing = false → (s.tenants.slots[r.slot]).state = .assigned →
    (s.tenants.slots[r.slot]).importing = false → s.exported r.slot = false → s.bqt.imported[r.slot] = none → s.guard.tampered = false →
    (s.tenants.slots[r.slot]).image = some b → (s.tenants.slots[r.slot]).imageOk = true → 0 < (s.tenants.slots[r.slot]).run.weight →
    (byteAt b 32).toNat ≤ (s.tenants.slots[r.slot]).run.sram →
    ∃ t, exec (.slotStart r) s = .next t ∧ State.answeredFirst 0x0306 r 0 [0, 0, 0, 0] s t ∧ (t.tenants.slots[r.slot]).state = .running ∧
      (t.tenants.slots[r.slot]).sram = Memory.ofBytes 0 (imageData b) ∧ (t.tenants.slots[r.slot]).pc = BitVec.ofNat 32 (fld b 28 4) ∧
      (t.tenants.slots[r.slot]).regs = Vector.replicate 31 0 ∧ (t.tenants.slots[r.slot]).mbox.inRd = (s.tenants.slots[r.slot]).mbox.inWr ∧
      (t.tenants.slots[r.slot]).cold = false ∧ (t.tenants.slots[r.slot]).run = (s.tenants.slots[r.slot]).run ∧
      t.hrb.evtC[(4 : Fin 6)].set = true ∧ (∀ j : Fin 128, j ≠ r.slot → (t.tenants.slots[j]).state = (s.tenants.slots[j]).state) ∧
      (∀ p : Fin 512, t.sprig.ports[p] = { s.sprig.ports[p] with page := (t.sprig.ports[p]).page }) ∧ (s.requests r.slot = 0 → t.sprig = s.sprig) ∧
      s.onlyIn [.link, .hrb, .treor, .tenants, .cipher, .pke, .kct, .mint, .sprig, .free] t) ∧
  (∀ (r : Req) (b : Bytes) (s : State), s.takes 0x0306 r true → r.body = [] → (s.tenants.slots[r.slot]).removing = false → (s.tenants.slots[r.slot]).state = .quiesced →
    (s.tenants.slots[r.slot]).cold = false →
    (s.tenants.slots[r.slot]).importing = false → s.exported r.slot = false → s.bqt.imported[r.slot] = none → s.guard.tampered = false →
    (s.tenants.slots[r.slot]).image = some b → (s.tenants.slots[r.slot]).imageOk = true → 0 < (s.tenants.slots[r.slot]).run.weight →
    (byteAt b 32).toNat ≤ (s.tenants.slots[r.slot]).run.sram →
    ∃ t, exec (.slotStart r) s = .next t ∧ State.answeredFirst 0x0306 r 0 [1, 0, 0, 0] s t ∧ (t.tenants.slots[r.slot]).state = .running ∧
      (t.tenants.slots[r.slot]).sram = (s.tenants.slots[r.slot]).sram ∧ (t.tenants.slots[r.slot]).pc = (s.tenants.slots[r.slot]).pc ∧
      (t.tenants.slots[r.slot]).regs = (s.tenants.slots[r.slot]).regs ∧ s.onlyIn [.link, .hrb, .treor, .tenants] t) ∧
  (∀ (r : Req) (s : State), s.takes 0x0306 r true → r.body = [] → (s.tenants.slots[r.slot]).removing = false → (s.tenants.slots[r.slot]).state = .assigned →
    (s.tenants.slots[r.slot]).importing = false → s.exported r.slot = false → s.bqt.imported[r.slot] = none → s.guard.tampered = true →
    ∃ t, exec (.slotStart r) s = .next t ∧ State.answered 0x0306 r 0x0703 [] s t) ∧
  (∀ (r : Req) (s : State), s.takes 0x0307 r true → r.body = [] → (s.tenants.slots[r.slot]).removing = false →
    (s.tenants.slots[r.slot]).state = .assigned ∨ (s.tenants.slots[r.slot]).state = .quiesced → s.exported r.slot = false → s.commits = true →
    ∃ t, exec (.slotReset r) s = .next t ∧ State.answeredFirst 0x0307 r 0 [] s t ∧
      t.tenants.slots[r.slot] = { s.tenants.slots[r.slot] with
        state := .assigned, restart := false, sram := [], mbox := {}, class0 := [], cold := true, waiting := none, inCall := false, jobDone := (t.tenants.slots[r.slot]).jobDone } ∧ s.otherSlots r.slot t ∧
      t.store.slotEpoch = s.store.slotEpoch.set r.slot (nextEpoch s.store.slotEpoch[r.slot]) ∧
      (∀ p : Fin 512, (s.sprig.ports[p]).owner = some r.slot → (t.sprig.ports[p]).due = some .renew ∧ (t.sprig.ports[p]).owner = some r.slot) ∧
      (∀ p : Fin 512, (s.sprig.ports[p]).owner ≠ some r.slot → t.sprig.ports[p] = { s.sprig.ports[p] with page := (t.sprig.ports[p]).page }) ∧
      (s.requests r.slot = 0 → ∀ p : Fin 512, (t.sprig.ports[p]).page = (s.sprig.ports[p]).page) ∧ t.store.portEpoch = s.store.portEpoch ∧
      t.hrb.evtC[(4 : Fin 6)].set = true ∧ s.onlyIn [.link, .hrb, .treor, .tenants, .sprig, .cipher, .pke, .kct, .mint, .store, .free] t) ∧
  (∀ (r : Req) (s : State), s.takes 0x0307 r true → r.body = [] → (s.tenants.slots[r.slot]).removing = false → (s.tenants.slots[r.slot]).state = .running →
    ∃ t, exec (.slotReset r) s = .next t ∧ State.answered 0x0307 r 0x0305 [] s t) ∧
  (∀ (r : Req) (s : State), s.takes 0x0308 r true → r.body = [] → (s.tenants.slots[r.slot]).removing = false → (s.tenants.slots[r.slot]).state = .assigned ∨
    (s.tenants.slots[r.slot]).state = .quiesced → (s.tenants.slots[r.slot]).importing = false → s.commits = true →
    ∃ t, exec (.slotRemove r) s = .next t ∧ t.tenants.slots[r.slot] = { s.tenants.slots[r.slot] with removing := true } ∧ s.otherSlots r.slot t ∧
      t.treor = { s.treor with waiting := s.treor.waiting ++ [⟨.remove r.slot, r, 0x0308, s.major r⟩] } ∧
      t.bqt = { s.bqt with exports := s.bqt.exports.set r.slot none } ∧ s.onlyIn [.link, .hrb, .treor, .tenants, .bqt] t) ∧
  (∀ (i : Fin 128) (r : Req) (m : Byte) (s : State), s.live = true → (s.tenants.slots[i]).removing = true → s.treor.waiting = [⟨.remove i, r, 0x0308, m⟩] →
    ∃ t, exec (.slotRemoveDone i) s = .next t ∧ t.tenants.slots[i] = {} ∧ t.store.slotEpoch = s.store.slotEpoch.set i (nextEpoch s.store.slotEpoch[i]) ∧
      (∀ e ∈ t.store.journal, e.id.owner ≠ BitVec.ofNat 8 i.val) ∧ (∀ e ∈ t.store.dual, e.id.owner ≠ BitVec.ofNat 8 i.val) ∧
      (∀ g ∈ t.store.granules, g.owner ≠ BitVec.ofNat 8 i.val) ∧
      (∀ p : Fin 512, (s.sprig.ports[p]).owner = some i → (t.sprig.ports[p]).due = some .free) ∧ t.treor.waiting = [] ∧
      t.hrb.evtC[(4 : Fin 6)].set = true ∧ (t.link.u.own[r.cls.toNat]).length ≠ (s.link.u.own[r.cls.toNat]).length ∧
      t.power = s.power ∧ t.lc = s.lc ∧ t.guard = s.guard ∧ t.tag = s.tag ∧ t.bay = s.bay ∧ t.pending = s.pending)

/-- R235, R237, R238, R253, R254 (IMAGE_WRITE, IMAGE_COMMIT, MBX_SEND, MBX_IN_RD_WRITE, MBX_OUT_WR_WRITE): an image is staged by pieces and installed whole; messages pass the
mailbox rings. -/
def Obligations.ImagesAndMailboxes : Prop :=
  (∀ (r : Req) (data : Bytes) (s : State), s.takes 0x0309 r true → r.body = zeros 8 ++ data → 256 ≤ data.length → data.length ≤ 4072 →
    (s.tenants.slots[r.slot]).removing = false → (s.tenants.slots[r.slot]).state = .assigned ∨ (s.tenants.slots[r.slot]).state = .running →
    (s.tenants.slots[r.slot]).importing = false → s.exported r.slot = false → (s.tenants.slots[r.slot]).staged = none → data.length ≤ imageSize data →
    (imageSize data + 4095) / 4096 ≤ s.poolFree → s.commits = true →
    ∃ t, exec (.imageWrite r) s = .next t ∧
      State.answered 0x0309 r 0 (leN 4 data.length) (s.updSlot r.slot fun k => { k with staged := some { size := imageSize data, pieces := [(0, data)] } }) t) ∧
  (∀ (r : Req) (off : Word) (data : Bytes) (g : Staged) (s : State), s.takes 0x0309 r true → r.body = leN 4 off.toNat ++ zeros 4 ++ data → 1 ≤ data.length → data.length ≤ 4072 →
    off ≠ 0 → (s.tenants.slots[r.slot]).removing = false → (s.tenants.slots[r.slot]).state = .assigned ∨ (s.tenants.slots[r.slot]).state = .running →
    (s.tenants.slots[r.slot]).importing = false → s.exported r.slot = false → (s.tenants.slots[r.slot]).staged = some g → s.commits = true →
    ∃ t, exec (.imageWrite r) s = .next t ∧
      (off.toNat + data.length ≤ g.size → 
        State.answered 0x0309 r 0 (leN 4 (Staged.high { g with pieces := (off.toNat, data) :: g.pieces }))
          (s.updSlot r.slot fun k => { k with staged := some { g with pieces := (off.toNat, data) :: g.pieces } }) t) ∧
      (g.size < off.toNat + data.length → State.answered 0x0309 r 0x0506 [] s t)) ∧
  (∀ (r : Req) (g : Staged) (b : Bytes) (s : State), s.takes 0x030A r true → r.body = leN 4 g.size → g.size < 2 ^ 32 → (s.tenants.slots[r.slot]).removing = false →
    (s.tenants.slots[r.slot]).state = .assigned ∨ (s.tenants.slots[r.slot]).state = .quiesced → (s.tenants.slots[r.slot]).importing = false → s.exported r.slot = false →
    (s.tenants.slots[r.slot]).staged = some g → g.whole = true → b = pieceBytes g.pieces g.size → headerOk b = true →
    fld b 8 8 = (s.tenants.slots[r.slot]).tenantId.toNat → (s.tenants.slots[r.slot]).version.toNat ≤ fld b 16 4 → sha (slice b 96 64) = (s.tenants.slots[r.slot]).authHash →
    ecdsaVerify (slice b 96 64) (b.take 192) (slice b 192 64) = true → sha (b.drop 256) = slice b 64 32 → fld b 32 1 ≤ (s.tenants.slots[r.slot]).run.sram →
    s.commits = true →
    ∃ t, exec (.imageCommit r) s = .next t ∧ State.answered 0x030A r 0 (slice b 16 4 ++ leN 4 ((g.size + 4095) / 4096))
      (s.updSlot r.slot fun k => { k with image := some b, staged := none, version := BitVec.ofNat 32 (fld b 16 4), cold := true, imageOk := true }) t) ∧
  (∀ (r : Req) (g : Staged) (b : Bytes) (s : State), s.takes 0x030A r true → r.body = leN 4 g.size → g.size < 2 ^ 32 → (s.tenants.slots[r.slot]).removing = false →
    (s.tenants.slots[r.slot]).state = .assigned ∨ (s.tenants.slots[r.slot]).state = .quiesced → (s.tenants.slots[r.slot]).importing = false → s.exported r.slot = false →
    (s.tenants.slots[r.slot]).staged = some g → g.whole = true → b = pieceBytes g.pieces g.size → headerOk b = true →
    fld b 16 4 < (s.tenants.slots[r.slot]).version.toNat →
    ∃ t, exec (.imageCommit r) s = .next t ∧ State.answered 0x030A r 0x0704 [] s t) ∧
  (∀ (r : Req) (s : State), s.takes 0x0401 r true → 1 ≤ r.body.length → r.body.length ≤ 4080 → (s.tenants.slots[r.slot]).state = .running →
    (s.tenants.slots[r.slot]).removing = false → r.cls ≠ 0 → (s.tenants.slots[r.slot]).mbox.inRd = (s.tenants.slots[r.slot]).mbox.inWr →
    0 < (s.tenants.slots[r.slot]).mbox.ringSize.toNat →
    (s.tenants.slots[r.slot]).mbox.ringBase.toNat % 4096 = 0 → (s.tenants.slots[r.slot]).mbox.ringSize.toNat % 4096 = 0 →
    (s.tenants.slots[r.slot]).mbox.ringBase.toNat + (s.tenants.slots[r.slot]).mbox.ringSize.toNat ≤ 0x10000 * (s.tenants.slots[r.slot]).run.sram →
    (s.tenants.slots[r.slot]).mbox.inPos.toNat + r.body.length ≤ (s.tenants.slots[r.slot]).mbox.ringSize.toNat →
    (s.tenants.slots[r.slot]).mbox.inPos.toNat % 16 = 0 →
    ∃ t, exec (.mbxSend r) s = .next t ∧
      (t.tenants.slots[r.slot]).mbox.inWr = (s.tenants.slots[r.slot]).mbox.inWr + 1 ∧ (t.tenants.slots[r.slot]).mbox.inRd = (s.tenants.slots[r.slot]).mbox.inRd ∧
      (∃ used, (t.tenants.slots[r.slot]).mbox.ins[Fin.ofNat 16 (s.tenants.slots[r.slot]).mbox.inWr.toNat] =
        { kind := 0, cls := r.cls.setWidth 8, len := BitVec.ofNat 16 r.body.length, offset := (s.tenants.slots[r.slot]).mbox.inPos, tag := r.tag, used }) ∧
      (∀ a : Nat, (s.tenants.slots[r.slot]).mbox.ringBase.toNat + (s.tenants.slots[r.slot]).mbox.inPos.toNat ≤ a →
        a < (s.tenants.slots[r.slot]).mbox.ringBase.toNat + (s.tenants.slots[r.slot]).mbox.inPos.toNat + r.body.length →
        Memory.read (t.tenants.slots[r.slot]).sram a = byteAt r.body (a - ((s.tenants.slots[r.slot]).mbox.ringBase.toNat + (s.tenants.slots[r.slot]).mbox.inPos.toNat))) ∧
      (∀ a : Nat, a < (s.tenants.slots[r.slot]).mbox.ringBase.toNat + (s.tenants.slots[r.slot]).mbox.inPos.toNat ∨
        (s.tenants.slots[r.slot]).mbox.ringBase.toNat + (s.tenants.slots[r.slot]).mbox.inPos.toNat + r.body.length ≤ a →
        Memory.read (t.tenants.slots[r.slot]).sram a = Memory.read (s.tenants.slots[r.slot]).sram a) ∧
      State.answered 0x0401 r 0 [15, 0, 0, 0] (s.updSlot r.slot fun k => { k with sram := (t.tenants.slots[r.slot]).sram, mbox := (t.tenants.slots[r.slot]).mbox }) t) ∧
  (∀ (r : Req) (st : BitVec 16) (s : State), s.takes 0x0401 r true → 1 ≤ r.body.length → r.body.length ≤ 4080 →
    ((s.tenants.slots[r.slot]).state ≠ .running ∧ st = 0x0204) ∨
      ((s.tenants.slots[r.slot]).state = .running ∧ (s.tenants.slots[r.slot]).removing = false ∧ r.cls = 0 ∧
        (s.tenants.slots[r.slot]).run.class0 ≤ (s.tenants.slots[r.slot]).class0.length ∧ st = 0x0307) ∨
      ((s.tenants.slots[r.slot]).state = .running ∧ (s.tenants.slots[r.slot]).removing = false ∧ r.cls ≠ 0 ∧
        16 ≤ ((s.tenants.slots[r.slot]).mbox.inWr - (s.tenants.slots[r.slot]).mbox.inRd).toNat ∧ st = 0x0309) →
    ∃ t, exec (.mbxSend r) s = .next t ∧ State.answered 0x0401 r st [] s t) ∧
  (∀ (i : Fin 128) (v : BitVec 16) (s : State), s.calls i = true → (s.tenants.slots[i]).mbox.noteQueue = [] → (s.tenants.slots[i]).mbox.notesLost = 0 →
    (s.tenants.slots[i]).class0 = [] → ((s.tenants.slots[i]).mbox.inWr - v).toNat ≤ 16 →
    exec (.mbxInRdWrite i v) s = .next (s.updSlot i fun k => { k with mbox := { k.mbox with inRd := v } })) ∧
  (∀ (i : Fin 128) (v : BitVec 16) (n : Notice) (s : State), s.calls i = true → (s.tenants.slots[i]).mbox.noteQueue = [n] → (s.tenants.slots[i]).mbox.notesLost = 0 →
    ((s.tenants.slots[i]).mbox.inWr - v).toNat < 16 →
    ∃ t, exec (.mbxInRdWrite i v) s = .next t ∧ (t.tenants.slots[i]).mbox.inRd = v ∧ (t.tenants.slots[i]).mbox.inWr = (s.tenants.slots[i]).mbox.inWr + 1 ∧
      (t.tenants.slots[i]).mbox.noteQueue = [] ∧ (t.tenants.slots[i]).mbox.notes[Fin.ofNat 16 (s.tenants.slots[i]).mbox.inWr.toNat] = n.code :: n.body ∧
      s.otherSlots i t ∧ t.tenants.cores = s.tenants.cores ∧ s.onlyIn [.tenants] t) ∧
  (∀ (i : Fin 128) (v : BitVec 16) (s : State), s.calls i = true → 16 < ((s.tenants.slots[i]).mbox.inWr - v).toNat →
    exec (.mbxInRdWrite i v) s = .next (s.updSlot i fun k => { k with mbox := { k.mbox with
      errWrites := if k.mbox.errWrites = 0xFFFF then 0xFFFF else k.mbox.errWrites + 1 } })) ∧
  (∀ (i : Fin 128) (v : BitVec 16) (s : State), s.calls i = true → s.treor.hostCaps.getLsbD 4 = false →
    (v - (s.tenants.slots[i]).mbox.outRd).toNat ≤ 16 →
    ((s.tenants.slots[i]).mbox.outWr - (s.tenants.slots[i]).mbox.outRd).toNat ≤ (v - (s.tenants.slots[i]).mbox.outRd).toNat →
    exec (.mbxOutWrWrite i v) s = .next (s.updSlot i fun k => { k with mbox := { k.mbox with outWr := v } })) ∧
  (∀ (i : Fin 128) (v : BitVec 16) (s : State), s.calls i = true → 16 < (v - (s.tenants.slots[i]).mbox.outRd).toNat →
    exec (.mbxOutWrWrite i v) s = .next (s.updSlot i fun k => { k with mbox := { k.mbox with
      errWrites := if k.mbox.errWrites = 0xFFFF then 0xFFFF else k.mbox.errWrites + 1 } })) ∧
  (∀ (i : Fin 128) (e : OutEntry) (c : Fin 3) (s : State), s.calls i = true → s.treor.hostCaps.getLsbD 4 = true →
    (s.tenants.slots[i]).mbox.outRd = (s.tenants.slots[i]).mbox.outWr → (s.tenants.slots[i]).mbox.outs[Fin.ofNat 16 (s.tenants.slots[i]).mbox.outRd.toNat] = e →
    e.cls = BitVec.ofNat 8 (c.val + 1) → 1 ≤ e.len.toNat → e.len.toNat ≤ 4080 → 0x10000000 ≤ e.addr.toNat → e.addr.toNat < 0x20000000 →
    s.badByte i e.addr.toNat e.len.toNat false = none →
    ∃ t, exec (.mbxOutWrWrite i ((s.tenants.slots[i]).mbox.outWr + 1)) s = .next t ∧
      (t.tenants.slots[i]).mbox = { (s.tenants.slots[i]).mbox with outWr := (s.tenants.slots[i]).mbox.outWr + 1, outRd := (s.tenants.slots[i]).mbox.outRd + 1 } ∧
      (∃ m, t.link.u.own = s.link.u.own.set (c.val + 1) (s.link.u.own[c.val + 1] ++ [m]) ∧ m.src = .mbxMsg ∧
        m.bytes = message (BitVec.ofNat 8 s.treor.verMaj) (BitVec.ofNat 2 (c.val + 1)) false true 1 (BitVec.ofNat 14 i.val) s.store.slotEpoch[i] e.tag 0x0402 0
          (Memory.readN (s.tenants.slots[i]).sram (e.addr.toNat - 0x10000000) e.len.toNat)) ∧
      s.otherSlots i t ∧ s.onlyIn [.link, .tenants] t) ∧
  (∀ (i : Fin 128) (s : State), s.calls i = true → s.treor.hostCaps.getLsbD 4 = true → (s.tenants.slots[i]).mbox.outRd = (s.tenants.slots[i]).mbox.outWr →
    (s.tenants.slots[i]).mbox.outs[Fin.ofNat 16 (s.tenants.slots[i]).mbox.outRd.toNat].len = 0 →
    exec (.mbxOutWrWrite i ((s.tenants.slots[i]).mbox.outWr + 1)) s = .next (s.updSlot i fun k => { k with mbox := { k.mbox with
      outWr := k.mbox.outWr + 1, outRd := k.mbox.outRd + 1, errDrops := if k.mbox.errDrops = 0xFFFF then 0xFFFF else k.mbox.errDrops + 1 } }))

/-- R205, R206, R342, R374, R375 (STORE_STATUS, LOG_READ, MINT_STATUS, PORT_STATUS, PORT_CTRL_ENABLE, PORT_CTRL_DISABLE, PORT_CTRL_RETRAIN, PORT_CTRL_GEN_LIMIT_SET, PORT_CTRL_GEN_LIMIT_CLEAR, PORT_CTRL_AUTO_RETRAIN_SET,
PORT_CTRL_AUTO_RETRAIN_CLR): status requests change nothing; a port control commits its setting and writes it. -/
def Obligations.StatusAndPortControl : Prop :=
  (∀ (r : Req) (p : Fin 512) (s : State), s.takes 0x0501 r true → r.body = [2, 0] ++ leN 2 p.val →
    ∃ t, exec (.storeStatus r) s = .next t ∧ State.answered 0x0501 r 0 ([2, 0] ++ leN 2 p.val ++
      leN 8 (s.store.vals[(⟨2 * p.val, by omega⟩ : Fin 4096)]).toNat ++ leN 8 (s.store.vals[(⟨2 * p.val + 1, by omega⟩ : Fin 4096)]).toNat) s t) ∧
  (∀ (r : Req) (i : Fin 128) (s : State), s.takes 0x0501 r true → r.body = [1, 0] ++ leN 2 i.val →
    ∃ t, exec (.storeStatus r) s = .next t ∧ State.answered 0x0501 r 0 ([1, 0] ++ leN 2 i.val ++ leN 2 (s.tenants.slots[i]).run.store ++
      leN 2 (s.store.used (BitVec.ofNat 8 i.val)) ++ leN 4 (s.store.ownerLive (BitVec.ofNat 8 i.val)) ++ leN 4 (s.store.held (BitVec.ofNat 8 i.val)).length) s t) ∧
  (∀ (r : Req) (first : BitVec 48) (n : Byte) (s : State), s.takes 0x0502 r true → r.body = leN 6 first.toNat ++ [n, 0] → 1 ≤ n.toNat → n.toNat ≤ 63 →
    ∃ t, exec (.logRead r) s = .next t ∧ State.answered 0x0502 r 0 (leN 6 s.store.logEnds.1.toNat ++ leN 6 s.store.logEnds.2.toNat ++
      [BitVec.ofNat 8 ((s.store.log.filter fun e => decide (first.toNat ≤ e.seq.toNat)).take n.toNat).length, 0, 0, 0] ++
      ((s.store.log.filter fun e => decide (first.toNat ≤ e.seq.toNat)).take n.toNat).flatMap LogEntry.bytes) s t) ∧
  (∀ (r : Req) (s : State), s.takes 0x0601 r true → r.body = [] →
    ∃ t, exec (.mintStatus r) s = .next t ∧ State.answered 0x0601 r 0 ([BitVec.ofNat 8 s.mint.state.code, s.mint.restarts] ++
      leN 2 (s.mint.insts.toList.countP (·.inst)) ++ leN 2 (s.mint.insts.toList.countP (·.reseedReq)) ++ leN 2 s.mint.lastTest.toNat ++ leN 4 s.mint.hlth.toNat ++
      leN 6 s.mint.lastFail.toNat ++ [0, 0]) s t) ∧
  (∀ (r : Req) (p : Fin 512) (s : State), s.takes 0x0901 r true → r.body = leN 2 p.val ++ [0, 0] →
    ∃ t, exec (.portStatus r) s = .next t ∧ State.answered 0x0901 r 0 (leN 2 p.val ++ leN 2 (s.store.portEpoch[p]).toNat ++
      [BitVec.ofNat 8 (s.sprig.ports[p]).state.code, (s.sprig.ports[p]).cause.setWidth 8, (s.sprig.ports[p]).gen.setWidth 8, (s.sprig.ports[p]).ownerByte,
       (s.sprig.ports[p]).delay.setWidth 8, 0, 0, 0]) s t) ∧
  (∀ (r : Req) (p : Fin 512) (s : State), s.takes 0x0902 r true → r.body = leN 2 p.val ++ leN 2 (s.store.portEpoch[p]).toNat ++ [1, 0, 0, 0] → s.commits = true →
    ∃ t, exec (.portCtrlEnable r) s = .next t ∧ State.answered 0x0902 r 0 (leN 2 (s.store.portEpoch[p]).toNat ++ [BitVec.ofNat 8 (s.sprig.ports[p]).state.code, 0])
      (s.updPort p fun x => { x with recEn := true, en := true }) t) ∧
  (∀ (r : Req) (p : Fin 512) (force : Bool) (s : State), s.takes 0x0902 r true →
    r.body = leN 2 p.val ++ leN 2 (s.store.portEpoch[p]).toNat ++ [if force then 0x82 else 0x02, 0, 0, 0] → s.commits = true →
    force = true ∨ (s.sprig.ports[p]).owner = none ∨ (s.sprig.ports[p]).state ≠ .active →
    ∃ t, exec (.portCtrlDisable r) s = .next t ∧ State.answered 0x0902 r 0 (leN 2 (s.store.portEpoch[p]).toNat ++ [BitVec.ofNat 8 (s.sprig.ports[p]).state.code, 0])
      (s.updPort p fun x => { x with recEn := false, en := false }) t) ∧
  (∀ (r : Req) (p : Fin 512) (i : Fin 128) (s : State), s.takes 0x0902 r true → r.body = leN 2 p.val ++ leN 2 (s.store.portEpoch[p]).toNat ++ [0x02, 0, 0, 0] →
    (s.sprig.ports[p]).owner = some i → (s.sprig.ports[p]).state = .active →
    ∃ t, exec (.portCtrlDisable r) s = .next t ∧ State.answered 0x0902 r 0x0306 [] s t) ∧
  (∀ (r : Req) (p : Fin 512) (s : State), s.takes 0x0902 r true → r.body = leN 2 p.val ++ leN 2 (s.store.portEpoch[p]).toNat ++ [3, 0, 0, 0] →
    ∃ t, exec (.portCtrlRetrain r) s = .next t ∧ State.answered 0x0902 r 0 (leN 2 (s.store.portEpoch[p]).toNat ++ [BitVec.ofNat 8 (s.sprig.ports[p]).state.code, 0])
      (s.updPort p fun x => { x with askRetrain := true }) t) ∧
  (∀ (r : Req) (p : Fin 512) (s : State), s.takes 0x0902 r true → r.body = leN 2 p.val ++ leN 2 (s.store.portEpoch[p]).toNat ++ [4, 0, 0, 0] → s.commits = true →
    ∃ t, exec (.portCtrlGenLimitSet r) s = .next t ∧ State.answered 0x0902 r 0 (leN 2 (s.store.portEpoch[p]).toNat ++ [BitVec.ofNat 8 (s.sprig.ports[p]).state.code, 0])
      (s.updPort p fun x => { x with recGen := true, genLimit := true }) t) ∧
  (∀ (r : Req) (p : Fin 512) (s : State), s.takes 0x0902 r true → r.body = leN 2 p.val ++ leN 2 (s.store.portEpoch[p]).toNat ++ [5, 0, 0, 0] → s.commits = true →
    ∃ t, exec (.portCtrlGenLimitClear r) s = .next t ∧ State.answered 0x0902 r 0 (leN 2 (s.store.portEpoch[p]).toNat ++ [BitVec.ofNat 8 (s.sprig.ports[p]).state.code, 0])
      (s.updPort p fun x => { x with recGen := false, genLimit := false }) t) ∧
  (∀ (r : Req) (p : Fin 512) (s : State), s.takes 0x0902 r true → r.body = leN 2 p.val ++ leN 2 (s.store.portEpoch[p]).toNat ++ [6, 0, 0, 0] → s.commits = true →
    ∃ t, exec (.portCtrlAutoRetrainSet r) s = .next t ∧ State.answered 0x0902 r 0 (leN 2 (s.store.portEpoch[p]).toNat ++ [BitVec.ofNat 8 (s.sprig.ports[p]).state.code, 0])
      (s.updPort p fun x => { x with recAuto := true, autoRetrain := true }) t) ∧
  (∀ (r : Req) (p : Fin 512) (s : State), s.takes 0x0902 r true → r.body = leN 2 p.val ++ leN 2 (s.store.portEpoch[p]).toNat ++ [7, 0, 0, 0] → s.commits = true →
    ∃ t, exec (.portCtrlAutoRetrainClr r) s = .next t ∧ State.answered 0x0902 r 0 (leN 2 (s.store.portEpoch[p]).toNat ++ [BitVec.ofNat 8 (s.sprig.ports[p]).state.code, 0])
      (s.updPort p fun x => { x with recAuto := false, autoRetrain := false }) t) ∧
  (∀ (r : Req) (p : Fin 512) (e : BitVec 16) (s : State), s.takes 0x0902 r true → r.body = leN 2 p.val ++ leN 2 e.toNat ++ [1, 0, 0, 0] → e ≠ s.store.portEpoch[p] →
    ∃ t, exec (.portCtrlEnable r) s = .next t ∧ State.answered 0x0902 r 0x0203 (leN 2 (s.store.portEpoch[p]).toNat ++ [0, 0])
      { s with hrb := { s.hrb with msgErr := { s.hrb.msgErr with lo := if s.hrb.msgErr.lo = 0xFFFF then 0xFFFF else s.hrb.msgErr.lo + 1 } } } t) ∧
  (∀ (r : Req) (p : Fin 512) (s : State), s.takes 0x0902 r true → r.body = leN 2 p.val ++ leN 2 (s.store.portEpoch[p]).toNat ++ [4, 0, 0, 0] → s.commits = false →
    ∃ t, exec (.portCtrlGenLimitSet r) s = .next t ∧ State.answered 0x0902 r 0x0501 [] s t)

/-- R277, R360, R453 to R455, R464, R468 to R475, Table 19-7, Table 19-9 (LC_STATUS, LC_TRANSITION_REQUEST, ADMIN_KEY_LIST, DEBUG_TOKEN, DEBUG_SESSION_EXPIRY, RTC_SET, BBK_REKEY,
TAMPER_LOG_READ): signed requests use up the nonce, are checked against unit, transition count, nonce, key and signature, and have their effects. What scalar a draw gives a signature is a free value (log 6). -/
def Obligations.SignedRequests : Prop :=
  (∀ (r : Req) (s : State), s.takes 0x0701 r true → r.body = [] → s.drawKind (ownDraw 147 16) true = .now → allZero (s.drawOut (ownDraw 147 16)) = false →
    ∃ t b w, exec (.lcStatus r) s = .next t ∧ b.length = 280 ∧ b.take 8 = [BitVec.ofNat 8 s.lc.state.code, BitVec.ofNat 8 (b2n s.guard.tampered + 2 * b2n s.lc.pending +
        4 * b2n s.lc.dbgSession.isSome + 8 * b2n (s.lc.state == .invalid && s.lc.completable.isNone)), s.lc.pendTgt, 0] ++ leN 2 s.tcnt ++
        [BitVec.ofNat 8 (16 - s.lc.slots.toList.countP LcSlot.inUse), 0] ∧ slice b 8 16 = s.drawOut (ownDraw 147 16) ∧
      State.answered 0x0701 r 0 b w t ∧ w.lc = { s.lc with nonce := some { bytes := s.drawOut (ownDraw 147 16) } } ∧
      (∀ n : Fin 160, n ≠ 147 → n ≠ 148 → w.mint.insts[n] = s.mint.insts[n]) ∧ s.onlyIn [.lc, .mint, .free] w) ∧
  (∀ (r : Req) (n : Fin 16) (s : State), s.takes 0x0702 r true → lcLayout r.body = true → byteAt r.body 5 = 0x01 → s.lc.state = .provisioning → s.tcnt = n.val →
    fld r.body 48 1 = 3 → fld r.body 26 1 = 1 → s.signedCheck r.body [0, 1] false 0 = none → s.lc.openSlot = none → s.lc.slots[n] = {} →
    s.lc.words = codeword .provisioning → s.guard.bbk = .valid → s.guard.rtcSet = true → (∃ i : Fin 4, allZero s.lc.admins[i] = false) → s.commits = true →
    ∃ t b, exec (.lcTransitionRequest r none) s = .next t ∧ State.answeredFirst 0x0702 r 0 b s t ∧ t.lc.state = .deployed ∧ t.lc.words = codeword .deployed ∧
      t.lc.slots[n] = { digest := sha r.body, target := 0xC3, defer := false, done := 0x5A5A, void := 0 } ∧ (∀ j : Fin 16, j ≠ n → t.lc.slots[j] = s.lc.slots[j]) ∧
      t.lc.nonce = none ∧ t.lc.dbgSession = none ∧ t.guard = { s.guard with arm := true } ∧ t.hrb.evtB[(3 : Fin 6)].set = true ∧
      s.onlyIn [.link, .hrb, .treor, .lc, .guard, .store, .mint, .free] t) ∧
  (∀ (r : Req) (n : Fin 16) (stop : Option OtpStop) (s : State), s.takes 0x0702 r true → lcLayout r.body = true → byteAt r.body 5 = 0x01 → s.lc.state = .provisioning →
    s.tcnt = n.val → fld r.body 48 1 = 3 → fld r.body 26 1 = 1 → s.signedCheck r.body [0, 1] false 0 = none → s.lc.openSlot = none →
    s.guard.bbk ≠ .valid ∨ s.guard.rtcSet = false →
    ∃ t, exec (.lcTransitionRequest r stop) s = .next t ∧ State.answered 0x0702 r 0x0701 [] { s with lc := { s.lc with nonce := none } } t) ∧
  (∀ (r : Req) (st : BitVec 16) (s : State), s.takes 0x0702 r true → lcLayout r.body = true → byteAt r.body 5 = 0x02 → s.lc.state = .deployed →
    ((slice r.body 8 16 ≠ padTo 16 s.lc.unitId ∨ fld r.body 24 2 ≠ s.tcnt ∨ s.nonceOk r.body = false) ∧ st = 0x0704) ∨
      (slice r.body 8 16 = padTo 16 s.lc.unitId ∧ fld r.body 24 2 = s.tcnt ∧ s.nonceOk r.body = true ∧ fld r.body 26 1 ≠ 1 ∧ st = 0x0705) →
    ∃ t, exec (.adminKeyList r) s = .next t ∧ State.answered 0x0702 r st [] { s with lc := { s.lc with nonce := none } } t) ∧
  (∀ (r : Req) (k : BitVec 2) (s : State), s.takes 0x0702 r true → lcLayout r.body = true → byteAt r.body 5 = 0x02 → s.lc.state = .provisioning ∨ s.lc.state = .deployed →
    s.signedCheck r.body [1] false 0 = none → s.commits = true → s.treor.session = some k → (∀ i : Fin 4, slice r.body (48 + 32 * i.val) 32 ≠ s.lc.admins[k.toNat]) →
    ∃ t b w, exec (.adminKeyList r) s = .next t ∧ State.answered 0x0702 r 0 b w t ∧
      w.lc = { s.lc with nonce := none, admins := Vector.ofFn fun i => slice r.body (48 + 32 * i.val) 32 } ∧
      w.treor = { s.treor with session := none } ∧ s.onlyIn [.lc, .treor, .mint, .free] w) ∧
  (∀ (r : Req) (s : State), s.takes 0x0703 r true → debugLayout r.body = true → s.signedCheck r.body [0, 1, 2] false (fld r.body 50 1) = none → fld r.body 48 2 ≠ 0 →
    (∀ b, b < 16 → (fld r.body 48 2).testBit b = true → scopeAllowed s.lc.state (fld r.body 26 1) b = true) → s.lc.dbgSession = none → s.commits = true →
    ∃ t b, exec (.debugToken r) s = .next t ∧ State.answeredFirst 0x0703 r 0 b s t ∧
      t.lc = { s.lc with nonce := none, dbgSession := some {
        scope := BitVec.ofNat 16 (fld r.body 48 2), slot := byteAt r.body 50, role := roleOf (fld r.body 26 1)
        granted := min (fld r.body 52 4) (s.param 0x0D00), left := min (fld r.body 52 4) (s.param 0x0D00) } } ∧
      t.store = { s.store with log := t.store.log, logSeq := s.store.logSeq + 1 } ∧ s.onlyIn [.link, .hrb, .lc, .store, .mint, .free] t) ∧
  (∀ (r : Req) (n : Nat) (s : State), s.takes 0x0703 r true → debugLayout r.body = true → s.signedCheck r.body [0, 1, 2] false (fld r.body 50 1) = none → n < 16 →
    (fld r.body 48 2).testBit n = true → scopeAllowed s.lc.state (fld r.body 26 1) n = false →
    ∃ t, exec (.debugToken r) s = .next t ∧ State.answered 0x0703 r 0x0709 [] { s with lc := { s.lc with nonce := none } } t) ∧
  (∀ (d : Debug) (s : State), s.lc.dbgSession = some d → s.commits = true →
    ∃ t e, exec .debugSessionExpiry s = .next t ∧ t.lc = { s.lc with dbgSession := none, halted := [] } ∧ t.store.log.getLast? = some e ∧ e.code = 0x2B ∧ e.sub = 1 ∧
      t.store = { s.store with log := t.store.log, logSeq := s.store.logSeq + 1 } ∧ s.onlyIn [.lc, .store] t) ∧
  (∀ (r : Req) (s : State), s.takes 0x0704 r true → envelopeOk r.body 0x20 8 = true → fld r.body 54 2 < 32768 → s.signedCheck r.body [1] false 0 = none → s.commits = true →
    ∃ t e, exec (.rtcSet r) s = .next t ∧
      State.answeredFirst 0x0704 r 0 (leN 6 s.guard.rtc.toNat ++ leN 6 (fld r.body 48 6) ++ zeros 4) s t ∧
      t.guard = { s.guard with rtc := BitVec.ofNat 48 (fld r.body 48 6), rtcSub := BitVec.ofNat 15 (fld r.body 54 2), rtcSet := true } ∧
      t.lc = { s.lc with nonce := none } ∧ t.hrb.evtA[(4 : Fin 6)].set = true ∧ t.store.log.getLast? = some e ∧ e.code = 0x26 ∧
      t.store = { s.store with log := t.store.log, logSeq := s.store.logSeq + 1 } ∧ s.onlyIn [.link, .hrb, .guard, .lc, .store] t) ∧
  (∀ (r : Req) (s : State), s.takes 0x0705 r true → envelopeOk r.body 0x21 4 = true → fld r.body 48 1 ≤ 1 → allZero (slice r.body 49 3) = true →
    s.signedCheck r.body [1] false 0 = none → s.lc.state = .deployed → s.guard.tampered = true → s.commits = true → s.mint.waitq = [] →
    (s.mint.insts[(144 : Fin 160)]).inst = true → (s.mint.insts[(144 : Fin 160)]).reseedReq = false → s.reseedDue s.mint.insts[(144 : Fin 160)] = false →
    ∃ t b e, exec (.bbkRekey r) s = .next t ∧ State.answeredFirst 0x0705 r 0 b s t ∧
      t.guard.bbk = .valid ∧ t.guard.bbkKey = BitVec.ofNat 256 (leVal (s.drawOut { client := .rekey, inst := 144, len := 32 })) ∧ t.guard.tampered = false ∧ t.guard.rekey = none ∧ t.guard.log = s.guard.log.drop s.guard.mark.toNat ∧ t.guard.mark = 0 ∧
      t.guard.rtc = s.guard.rtc ∧ t.guard.arm = s.guard.arm ∧
      (∀ k : Fin 32768, k.val < 32256 → t.kct.entries[k] = (s.kct.entries[k]).free) ∧ (∀ k : Fin 32768, 32256 ≤ k.val → (t.kct.entries[k]).owner = 0xFE) ∧ (∀ x ∈ t.store.journal, x.copy.secret = false) ∧
      (∀ x ∈ s.store.journal, x.copy.secret = false → x ∈ t.store.journal) ∧ t.store.log.getLast? = some e ∧ e.code = 0x27 ∧ t.hrb.evtB[(3 : Fin 6)].set = true ∧
      s.onlyIn [.link, .hrb, .guard, .lc, .store, .kct, .mint, .free] t) ∧
  (∀ (r : Req) (s : State), s.takes 0x0705 r true → envelopeOk r.body 0x21 4 = true → fld r.body 48 1 = 0 → allZero (slice r.body 49 3) = true →
    s.signedCheck r.body [1] false 0 = none → s.lc.state = .deployed → s.guard.tampered = false →
    ∃ t, exec (.bbkRekey r) s = .next t ∧ State.answered 0x0705 r 0x0701 [] { s with lc := { s.lc with nonce := none } } t) ∧
  (∀ (r : Req) (s : State), s.takes 0x0706 r true → r.body.length = 16 →
    ∃ t sig, exec (.tamperLogRead r) s = .next t ∧ sig.length = 64 ∧ State.answered 0x0706 r 0 (r.body ++ leN 4 s.batStat.toNat ++ leN 4 s.batLog.toNat ++
      leN 6 s.guard.rtc.toNat ++ [0, 0] ++ padTo 256 (s.guard.log.flatMap BatEntry.bytes) ++ sig) s.signDone t)

/-- R458, R459, R464, R473 to R477, Table 19-13 (TAP_RESET, EXTEST, IDCODE, SAMPLE_PRELOAD, CLAMP, HIGHZ, BYPASS, SCAN, ENROL, OTPW, LCPROG, LCMB, IMAGE_LOAD, DBG): the test access port selects what the life cycle
allows; OTP takes its values once; the debug transport stays within its scope. -/
def Obligations.TestAccessPort : Prop :=
  (∀ s : State, exec .tapReset s = .next { s with lc := { s.lc with tap :=
    { ir := 0x01, sel := .idcode, drive := .device, bsr := [], out := [0xE3, 0x24, 0x51, 0x1C], dbgStatus := 0 } } }) ∧
  (∀ (d : List Bool) (s : State), exec (.extest d) s = .next { s with lc := { s.lc with tap :=
    { s.lc.tap with ir := 0x00, sel := .boundary, drive := .boundary, bsr := d, out := [] } } }) ∧
  (∀ s : State, exec .idcode s = .next { s with lc := { s.lc with tap :=
    { s.lc.tap with ir := 0x01, sel := .idcode, drive := .device, out := [0xE3, 0x24, 0x51, 0x1C] } } }) ∧
  (∀ (c l : List Bool) (s : State), exec (.samplePreload c l) s = .next { s with lc := { s.lc with tap :=
    { s.lc.tap with ir := 0x02, sel := .boundary, drive := .device, bsr := l, out := packBits c } } }) ∧
  (∀ s : State, exec .clamp s = .next { s with lc := { s.lc with tap := { s.lc.tap with ir := 0x03, sel := .bypass, drive := .held, out := [] } } }) ∧
  (∀ s : State, exec .highz s = .next { s with lc := { s.lc with tap := { s.lc.tap with ir := 0x04, sel := .bypass, drive := .highz, out := [] } } }) ∧
  (∀ (ir : Byte) (s : State), 0x32 < ir.toNat ∨ (0x30 ≤ ir.toNat ∧ s.lc.state ≠ .blank) ∨ (ir = 0x21 ∧ s.lc.dbgSession = none) →
    exec (.bypass ir) s = .next { s with lc := { s.lc with tap := { s.lc.tap with ir, sel := .bypass, drive := .device, out := [] } } }) ∧
  (∀ s : State, exec .scan s = .next { s with lc := { s.lc with tap := { s.lc.tap with
    ir := 0x22, drive := .device, out := []
    sel := if s.lc.state = .blank ∨ (s.lc.state = .factoryTest ∧ ∃ d, s.lc.dbgSession = some d ∧ d.scope.getLsbD 4 = true) then .scan else .bypass } } }) ∧
  (∀ s : State, s.lc.state = .blank → s.lc.dukSeed = none →
    ∃ t, exec .enrol s = .next t ∧ t.lc.dukSeed = some (s.random 32) ∧ t.lc.helper.length = 480 ∧
      t.lc = { s.lc with dukSeed := t.lc.dukSeed, helper := t.lc.helper, tap := t.lc.tap } ∧ t.lc.tap.sel = .enrol ∧ s.onlyIn [.lc, .free] t) ∧
  (∀ s : State, s.lc.state ≠ .blank ∨ s.lc.dukSeed ≠ none → ∃ t, exec .enrol s = .next t ∧ t.lc = { s.lc with tap := t.lc.tap } ∧ s.onlyIn [.lc] t) ∧
  (∀ (unit uid mfg img : Bytes) (s : State), s.lc.state = .blank → unit.length = 16 → uid.length = 7 → mfg.length = 32 → img.length = 32 →
    s.lc.unitId = zeros 16 → s.lc.uid = zeros 7 → s.lc.mfgHash = zeros 32 → s.lc.imgHash = zeros 32 →
    ∃ t, exec (.otpw unit uid mfg img) s = .next t ∧ t.lc = { s.lc with unitId := unit, uid := uid, mfgHash := mfg, imgHash := img, tap := t.lc.tap } ∧ s.onlyIn [.lc] t) ∧
  (∀ (unit uid mfg img : Bytes) (s : State), s.lc.state ≠ .blank →
    ∃ t, exec (.otpw unit uid mfg img) s = .next t ∧ t.lc = { s.lc with tap := t.lc.tap } ∧ s.onlyIn [.lc] t) ∧
  (∀ s : State, s.lc.state = .blank → s.lc.words = codeword .blank → allZero s.lc.unitId = false → allZero s.lc.uid = false → allZero s.lc.mfgHash = false →
    allZero s.lc.imgHash = false → s.lc.dukSeed ≠ none → s.lc.dbgSession = none →
    ∃ t, exec (.lcprog none) s = .next t ∧ t.lc = { s.lc with state := .factoryTest, words := codeword .factoryTest, tap := t.lc.tap } ∧
      t.hrb.evtB[(3 : Fin 6)].set = true ∧ s.onlyIn [.lc, .hrb, .link, .treor] t) ∧
  (∀ (stop : Option OtpStop) (s : State), s.lc.state = .blank → s.lc.dukSeed = none →
    ∃ t, exec (.lcprog stop) s = .next t ∧ t.lc = { s.lc with tap := t.lc.tap } ∧ s.onlyIn [.lc] t) ∧
  (∀ (stop : Option OtpStop) (now : SupImage) (s : State), s.lc.state ≠ .blank → s.live = true → s.drawKind (ownDraw 147 16) true = .now →
    allZero (s.drawOut (ownDraw 147 16)) = false →
    ∃ t b, exec (.lcmb 0x0701 [] stop now) s = .next t ∧ t.lc.tap.out = leN 4 (280 * 65536) ++ b ∧ b.length = 280 ∧ slice b 8 16 = s.drawOut (ownDraw 147 16) ∧
      t.lc = { s.lc with nonce := some { bytes := s.drawOut (ownDraw 147 16) }, tap := t.lc.tap } ∧ s.onlyIn [.lc, .mint, .free] t) ∧
  (∀ (f : BitVec 16) (p : Bytes) (stop : Option OtpStop) (now : SupImage) (s : State), s.lc.state ≠ .blank → s.live = true →
    f ≠ 0x0701 → f ≠ 0x0702 → f ≠ 0x0703 → f ≠ 0xF001 →
    ∃ t, exec (.lcmb f p stop now) s = .next t ∧ t.lc = { s.lc with tap := t.lc.tap } ∧ t.lc.tap.out = leN 4 0x0106 ∧ s.onlyIn [.lc] t) ∧
  (∀ (area : Bool) (off : Word) (data : Bytes) (now : SupImage) (s : State), s.lc.state = .provisioning ∨ s.lc.state = .deployed → s.live = true → s.power.nvWpN = true →
    1 ≤ data.length → data.length ≤ 4088 → off.toNat + data.length ≤ 1048576 →
    ∃ t, exec (.imageLoad ([if area then 1 else 0, 0, 0, 0] ++ leN 4 off.toNat ++ data) now) s = .next t ∧
      t.power = { s.power with imgA := if area then s.power.imgA else now, imgB := if area then now else s.power.imgB } ∧
      t.lc = { s.lc with tap := t.lc.tap } ∧ t.lc.tap.out = leN 4 0 ∧ s.onlyIn [.power, .lc] t) ∧
  (∀ (off : Word) (data : Bytes) (now : SupImage) (s : State), s.lc.state = .provisioning ∨ s.lc.state = .deployed → s.live = true → s.power.nvWpN = false →
    1 ≤ data.length → data.length ≤ 4088 →
    ∃ t, exec (.imageLoad ([1, 0, 0, 0] ++ leN 4 off.toNat ++ data) now) s = .next t ∧ t.hrb = { s.hrb with nvErr := s.hrb.nvErr.incLo } ∧
      t.lc = { s.lc with tap := t.lc.tap } ∧ t.lc.tap.out = leN 4 0x0507 ∧ s.onlyIn [.hrb, .lc] t) ∧
  (∀ (d : Debug) (i : Fin 128) (s : State), s.lc.dbgSession = some d → s.live = true → d.scope.getLsbD 0 = true → d.slot.toNat = i.val → (s.tenants.slots[i]).state = .running →
    ∃ t, exec (.dbg (.tenantHalt i)) s = .next t ∧ i ∈ t.lc.halted ∧ t.lc = { s.lc with halted := t.lc.halted, tap := t.lc.tap } ∧ t.lc.tap.dbgStatus = 0 ∧ s.onlyIn [.lc] t) ∧
  (∀ (d : Debug) (i : Fin 128) (n : Fin 32) (v : Word) (s : State), s.lc.dbgSession = some d → s.live = true → d.scope.getLsbD 0 = true → d.slot.toNat = i.val →
    (s.tenants.slots[i]).state = .running → 0 < n.val →
    ∃ t, exec (.dbg (.tenantRegWrite i n v)) s = .next t ∧ (∃ h, (t.tenants.slots[i]).regs[n.val - 1]'h = v) ∧
      t.tenants.slots[i] = { s.tenants.slots[i] with regs := (t.tenants.slots[i]).regs } ∧ s.otherSlots i t ∧ t.lc = { s.lc with tap := t.lc.tap } ∧ s.onlyIn [.lc, .tenants] t) ∧
  (∀ (d : Debug) (i : Fin 128) (n : Fin 32) (s : State), s.lc.dbgSession = some d → s.live = true → d.scope.getLsbD 0 = true → d.slot.toNat = i.val →
    (s.tenants.slots[i]).state = .running → ∀ h : 0 < n.val,
    ∃ t, exec (.dbg (.tenantReg i n)) s = .next t ∧ t.lc = { s.lc with tap := { s.lc.tap with
        ir := 0x21, sel := .dbg, drive := .device, out := leN 4 ((s.tenants.slots[i]).regs[n.val - 1]'(by omega)).toNat, dbgStatus := 0 } } ∧ s.onlyIn [.lc] t) ∧
  (∀ (d : Debug) (a : DbgAccess) (b : Nat) (s : State), s.lc.dbgSession = some d → s.live = true → a.scope = some b → d.scope.getLsbD b = false → s.commits = true →
    ∃ t e, exec (.dbg a) s = .next t ∧ t.lc = { s.lc with tap := t.lc.tap } ∧ t.lc.tap.dbgStatus = 0x0709 ∧ t.store.log.getLast? = some e ∧ e.code = 0x2C ∧
      t.store = { s.store with log := t.store.log, logSeq := s.store.logSeq + 1 } ∧ s.onlyIn [.lc, .store] t) ∧
  (∀ (a : DbgAccess) (s : State), s.lc.dbgSession = none →
    exec (.dbg a) s = .next { s with lc := { s.lc with tap := { s.lc.tap with ir := 0x21, sel := .bypass, drive := .device, out := [] } } })

/-- R480 to R494, Table 20-5, Table 20-7 (BQT_STATUS, BQT_JOIN, BQT_LEAVE, BQT_REVOKE, ENV_DELIVER, ENV_PART, ENV_CONFIRM, ENV_REFUSE, ENV_CANCEL, MIGRATE_EXPORT): memberships, revocation, envelopes and the move of a
tenant. -/
def Obligations.BouquetsAndMigration : Prop :=
  (∀ (r : Req) (s : State), s.takes 0x0B01 r true → r.body = [] → s.bqt.member = none → (∀ i : Fin 128, s.bqt.exports[i] = none ∧ s.bqt.imports[i] = none) →
    ∃ t, exec (.bqtStatus r) s = .next t ∧ State.answered 0x0B01 r 0 ([0, 1, 1, 0] ++ zeros 4 ++ [0xFF, 0xFF, 0, 0] ++ leN 4 s.bqt.be.toNat ++
      leN 2 (bitmapCount s.bqt.bitmap) ++ leN 2 s.bqt.cache.length ++ leN 8 (s.bqt.seq + 1).toNat ++ pubKey s.memberKey ++ zeros 32 ++ [0xFF, 0, 0, 0]) s t) ∧
  (∀ (r : Req) (auth cert list : Bytes) (s : State), s.takes 0x0B02 r true → r.body = zeros 4 ++ auth ++ cert ++ list → auth.length = 64 → cert.length = 168 →
    list.length = 2128 → s.joinCheck auth cert list = none → s.bqt.member = none → s.commits = true →
    ∃ t, exec (.bqtJoin r) s = .next t ∧
      State.answeredFirst 0x0B02 r 0 (leN 4 (certBqt cert) ++ leN 2 (certMember cert).toNat ++ [0, 0] ++ leN 4 (listBe list).toNat) s t ∧
      t.bqt.member = some { bqtId := BitVec.ofNat 32 (certBqt cert), member := certMember cert, auth, cert } ∧ t.bqt.be = listBe list ∧
      t.bqt.bitmap = listMap list ∧ t.bqt.seq = s.bqt.seq ∧ t.bqt.exports = s.bqt.exports ∧ t.power = s.power ∧ t.guard = s.guard ∧ t.lc = s.lc ∧
      t.treor = s.treor ∧ t.sprig = s.sprig) ∧
  (∀ (r : Req) (auth cert list : Bytes) (s : State), s.takes 0x0B02 r true → r.body = zeros 4 ++ auth ++ cert ++ list → auth.length = 64 → cert.length = 168 →
    list.length = 2128 → certLayout cert = true → slice cert 16 16 = padTo 16 s.lc.unitId → certKey cert = pubKey s.memberKey →
    certOk auth cert = false ∨ listOk auth list = false →
    ∃ t, exec (.bqtJoin r) s = .next t ∧ State.answered 0x0B02 r 0x0705 [] s t) ∧
  (∀ (r : Req) (s : State), s.takes 0x0B02 r true → r.body = [1, 0, 0, 0] → (∀ i : Fin 128, s.bqt.exports[i] = none ∧ s.importing i = false) → s.commits = true →
    ∃ t, exec (.bqtLeave r) s = .next t ∧ State.answered 0x0B02 r 0 (zeros 4 ++ [0xFF, 0xFF, 0, 0] ++ zeros 4)
      { s with bqt := { s.bqt with member := none, be := 0, bitmap := zeros 2048, cache := [], replay := [] } } t) ∧
  (∀ (r : Req) (i : Fin 128) (s : State), s.takes 0x0B02 r true → r.body = [1, 0, 0, 0] → s.bqt.exports[i] ≠ none →
    ∃ t, exec (.bqtLeave r) s = .next t ∧ State.answered 0x0B02 r 0x0306 [] s t) ∧
  (∀ (r : Req) (m : Membership) (s : State), s.takes 0x0B03 r true → s.bqt.member = some m → listOk m.auth r.body = true → listBqt r.body = m.bqtId.toNat →
    s.bqt.be.toNat < (listBe r.body).toNat → (∀ j, bitmapBit s.bqt.bitmap j = true → bitmapBit (listMap r.body) j = true) → s.commits = true →
    ∃ t b, exec (.bqtRevoke r) s = .next t ∧ State.answeredFirst 0x0B03 r 0 b s t ∧
      (bitmapBit (listMap r.body) m.member.toNat = false → t.bqt.member = some m ∧ t.bqt.be = listBe r.body ∧ t.bqt.bitmap = listMap r.body ∧
        (∀ e ∈ t.bqt.cache, e ∈ s.bqt.cache ∧ (bitmapBit (listMap r.body) e.peer.toNat = true → bitmapBit s.bqt.bitmap e.peer.toNat = true)) ∧
        t.bqt.exports = s.bqt.exports) ∧
      (bitmapBit (listMap r.body) m.member.toNat = true → t.bqt.member = none ∧ t.bqt.cache = [] ∧
        ∀ i : Fin 128, t.bqt.exports[i] = (s.bqt.exports[i]).map fun x => { x with stuck := true })) ∧
  (∀ (r : Req) (m : Membership) (s : State), s.takes 0x0B03 r true → s.bqt.member = some m → listOk m.auth r.body = true → listBqt r.body = m.bqtId.toNat →
    (listBe r.body).toNat ≤ s.bqt.be.toNat →
    ∃ t, exec (.bqtRevoke r) s = .next t ∧ State.answered 0x0B03 r 0x0704 [] s t) ∧
  (∀ (r : Req) (m : Membership) (st : BitVec 16) (s : State), s.takes 0x0B04 r true → 248 ≤ r.body.length → r.body.length ≤ 4080 → s.bqt.member = some m →
    ((slice r.body 0 4 ≠ ascii "BQEV" ∨ fld r.body 6 2 ≠ r.body.length) ∧ st = 0x0108) ∨
      (slice r.body 0 4 = ascii "BQEV" ∧ fld r.body 6 2 = r.body.length ∧ byteAt r.body 4 ≠ 1 ∧ st = 0x020A) ∨
      (slice r.body 0 4 = ascii "BQEV" ∧ fld r.body 6 2 = r.body.length ∧ byteAt r.body 4 = 1 ∧ fld r.body 8 4 ≠ m.bqtId.toNat ∧ st = 0x0207) →
    ∃ t, exec (.envDeliver r) s = .next t ∧ State.answered 0x0B04 r st [] s t) ∧
  (∀ (r : Req) (m : Membership) (b : Bytes) (s : State), s.takes 0x0B04 r true → 248 ≤ r.body.length → r.body.length ≤ 4080 → s.bqt.member = some m → s.envCheck m r.body = none →
    gcmOpen (s.pairFor m (envCert r.body)).2 (envNonce (envSrc r.body) (envSeq r.body)) (r.body.take 232) (r.body.drop 232) = some b →
    5 ≤ (byteAt r.body 5).toNat →
    ∃ t, exec (.envDeliver r) s = .next t ∧
      State.answered 0x0B04 r 0 (slice r.body 32 4 ++ [if s.bqt.be.toNat < fld r.body 32 4 then 1 else 0, 0, 0, 0])
        { s with bqt := Bqt.accept (envSrc r.body) (envSeq r.body) (s.pairFor m (envCert r.body)).1.bqt } t) ∧
  (∀ (r : Req) (m : Membership) (s : State), s.takes 0x0B04 r true → 248 ≤ r.body.length → r.body.length ≤ 4080 → s.bqt.member = some m → s.envCheck m r.body = none →
    gcmOpen (s.pairFor m (envCert r.body)).2 (envNonce (envSrc r.body) (envSeq r.body)) (r.body.take 232) (r.body.drop 232) = none →
    ∃ t, exec (.envDeliver r) s = .next t ∧ State.answered 0x0B04 r 0x0407 [] { s with bqt := (s.pairFor m (envCert r.body)).1.bqt } t) ∧
  (∀ (r : Req) (m : Membership) (b : Bytes) (i : Fin 128) (x : Import) (s : State), s.takes 0x0B04 r true → 248 ≤ r.body.length → r.body.length ≤ 4080 → s.bqt.member = some m →
    s.envCheck m r.body = none →
    gcmOpen (s.pairFor m (envCert r.body)).2 (envNonce (envSrc r.body) (envSeq r.body)) (r.body.take 232) (r.body.drop 232) = some b →
    byteAt r.body 5 = 1 → fld r.body 36 1 = i.val → fld r.body 38 2 = (s.store.slotEpoch[i]).toNat → (s.tenants.slots[i]).state = .assigned →
    (s.tenants.slots[i]).importing = true → (s.tenants.slots[i]).removing = false → s.bqt.imports[i] = some x → x.mid = envMid r.body → x.failed = false →
    x.manifest = none → x.early.length < 64 → fld r.body 56 2 ≠ 0 → (∀ p ∈ x.early, p.1 ≠ fld r.body 56 2) →
    ∃ t, exec (.envPart r) s = .next t ∧ t.bqt.imports[i] = some { x with early := x.early ++ [(fld r.body 56 2, b)] } ∧
      State.answeredFirst 0x0B04 r 0 (slice r.body 32 4 ++ [if s.bqt.be.toNat < fld r.body 32 4 then 1 else 0, 0, 0, 0]) s t ∧ s.onlyIn [.link, .hrb, .bqt] t) ∧
  (∀ (r : Req) (m : Membership) (b : Bytes) (i : Fin 128) (x : Export) (s : State), s.takes 0x0B04 r true → 248 ≤ r.body.length → r.body.length ≤ 4080 → s.bqt.member = some m →
    s.envCheck m r.body = none →
    gcmOpen (s.pairFor m (envCert r.body)).2 (envNonce (envSrc r.body) (envSeq r.body)) (r.body.take 232) (r.body.drop 232) = some b →
    byteAt r.body 5 = 2 → s.exportOf (envMid r.body) = some (i, x) → b.length = 118 → envSrc r.body = x.dst → fld b 0 8 = x.mid.toNat →
    ecdsaVerify (certKey (envCert r.body)) (ascii "BQCONF" ++ slice r.body 8 4 ++ b.take 54) (slice b 54 64) = true → s.commits = true →
    ∃ t, exec (.envConfirm r) s = .next t ∧ (t.tenants.slots[i]).state = .retired ∧
      (t.tenants.slots[i]).retired = some { tenant := (s.tenants.slots[i]).tenantId, member := x.dst, slot := x.dslot, digest := sha b } ∧
      t.bqt.exports[i] = none ∧ (∀ e ∈ t.store.journal, e.id.owner ≠ BitVec.ofNat 8 i.val) ∧ t.store.slotEpoch[i] = nextEpoch s.store.slotEpoch[i] ∧
      t.hrb.evtC[(4 : Fin 6)].set = true ∧ t.lc = s.lc ∧ t.guard = s.guard) ∧
  (∀ (r : Req) (m : Membership) (b : Bytes) (i : Fin 128) (x : Export) (s : State), s.takes 0x0B04 r true → 248 ≤ r.body.length → r.body.length ≤ 4080 → s.bqt.member = some m →
    s.envCheck m r.body = none →
    gcmOpen (s.pairFor m (envCert r.body)).2 (envNonce (envSrc r.body) (envSeq r.body)) (r.body.take 232) (r.body.drop 232) = some b →
    byteAt r.body 5 = 3 → s.exportOf (envMid r.body) = some (i, x) → b.length = 16 → fld b 0 8 = x.mid.toNat → s.commits = true →
    ∃ t, exec (.envRefuse r) s = .next t ∧ t.bqt.exports = s.bqt.exports.set i none ∧ t.tenants = s.tenants ∧
      State.answeredFirst 0x0B04 r 0 (slice r.body 32 4 ++ [if s.bqt.be.toNat < fld r.body 32 4 then 1 else 0, 0, 0, 0]) s t ∧ s.onlyIn [.link, .hrb, .bqt] t) ∧
  (∀ (r : Req) (m : Membership) (b : Bytes) (i : Fin 128) (x : Export) (s : State), s.takes 0x0B04 r true → 248 ≤ r.body.length → r.body.length ≤ 4080 → s.bqt.member = some m →
    s.envCheck m r.body = none →
    gcmOpen (s.pairFor m (envCert r.body)).2 (envNonce (envSrc r.body) (envSeq r.body)) (r.body.take 232) (r.body.drop 232) = some b →
    byteAt r.body 5 = 4 → s.exportOf (envMid r.body) = some (i, x) → b.length = 80 → envSrc r.body = x.dst → fld b 0 8 = x.mid.toNat →
    ecdsaVerify (certKey (envCert r.body)) (ascii "BQCANC" ++ slice r.body 8 4 ++ b.take 16) (slice b 16 64) = true → s.commits = true →
    ∃ t, exec (.envCancel r) s = .next t ∧ t.bqt.exports = s.bqt.exports.set i none ∧ t.tenants = s.tenants ∧ s.onlyIn [.link, .hrb, .bqt] t) ∧
  (∀ (r : Req) (a : ExportArgs) (s : State), s.takes 0x0B06 r true → r.body = leN 2 a.dst.toNat ++ [a.dslot, if a.force then 1 else 0] ++ leN 2 a.depoch.toNat ++ [0, 0] →
    a.dslot.toNat < 128 → (s.tenants.slots[r.slot]).removing = false → s.exportCheck r.slot a = none → s.bqt.exports[r.slot] = none → s.commits = true →
    (s.mint.insts[(147 : Fin 160)]).inst = true → (s.mint.insts[(147 : Fin 160)]).reseedReq = false → s.reseedDue s.mint.insts[(147 : Fin 160)] = false →
    s.mint.waitq = [] →
    ∃ t b x, exec (.migrateExport r) s = .next t ∧ State.answeredFirst 0x0B06 r 0 b s t ∧ t.bqt.exports = s.bqt.exports.set r.slot (some x) ∧
      x.dst = a.dst ∧ x.dslot = a.dslot ∧ x.depoch = a.depoch ∧ x.force = a.force ∧ x.stuck = false ∧ b.take 8 = leN 8 x.mid.toNat ∧ t.tenants = s.tenants ∧
      s.onlyIn [.link, .hrb, .mint, .bqt, .free] t) ∧
  (∀ (r : Req) (s : State), s.takes 0x0B06 r true → r.body.length = 8 → fld r.body 0 2 < 16384 → fld r.body 2 1 < 128 → fld r.body 3 1 ≤ 1 → fld r.body 6 2 = 0 →
    (s.tenants.slots[r.slot]).state ≠ .quiesced →
    ∃ t, exec (.migrateExport r) s = .next t ∧ State.answered 0x0B06 r 0x030A [] s t)

/-- R141, R385, R416 to R434, Table 17-11 (BAY_REQUEST, BAY_SUMMARY, BAY_IDENTITY, BAY_READ, BAY_CONFIRM, BAY_NONCE, BAY_SEAL, BAY_STAGE, BAY_CONFIG_COMMIT, BAY_FW_COMMIT, BAY_APP, BAY_APP_TIMEOUT, BAY_ACK, BAY_STATUS,
BAY_SUMMARY_INTERVAL): requests over the bridge. -/
def Obligations.BayServesRequests : Prop :=
  (∀ (r : Req) (bop : Bop) (args : Bytes) (s : State), s.takes 0x0801 r true → r.body = leN 2 bop.code ++ [0, 0] ++ args → bop ≠ .ack → s.lc.state ≠ .terminated →
    ∃ t, exec (.bayRequest r) s = .next t ∧ t.bay = { s.bay with reqs := s.bay.reqs ++ [{ bop, chan := Fin.ofNat 4 r.index.toNat, args }] } ∧
      t.treor = { s.treor with waiting := s.treor.waiting ++ [⟨.bay (Fin.ofNat 4 r.index.toNat), r, 0x0801, s.major r⟩] } ∧ s.onlyIn [.link, .hrb, .treor, .bay] t) ∧
  (∀ (r : Req) (n : BitVec 16) (args : Bytes) (s : State), s.takes 0x0801 r true → r.body = leN 2 n.toNat ++ [0, 0] ++ args → n = 0 ∨ 10 < n.toNat →
    ∃ t, exec (.bayRequest r) s = .next t ∧ State.answered 0x0801 r 0x0803 [] s t) ∧
  (∀ (q : BayReq) (rest : List BayReq) (s : State), s.bayOn = true → s.bay.bridge = 1 → s.bay.reqs = q :: rest → q.bop = .summary → q.taken = false → q.args = [] →
    exec .baySummary s = .next { s with bay := { s.bay with reqs := { q with taken := true } :: rest } }) ∧
  (∀ (q : BayReq) (r : Req) (m : Byte) (s : State), s.serves q r m → q.bop = .identity → q.args = [] → s.bay.fwSel = none → s.bay.config = none →
    ∃ t, exec .bayIdentity s = .next t ∧ State.answeredLate 0x0801 r m 0 ([2, 0, 0, 0] ++ (padTo 16 s.lc.unitId ++ pubKey s.bayScalar ++ leN 4 0x00010000 ++
      zeros 16 ++ zeros 4 ++ zeros 32 ++ zeros 4 ++ zeros 32)) { s with bay := { s.bay with reqs := [] } } t) ∧
  (∀ (q : BayReq) (r : Req) (m n : Byte) (first : BitVec 48) (s : State), s.serves q r m → q.bop = .read → q.args = leN 6 first.toNat ++ [n, 0] → 1 ≤ n.toNat → n.toNat ≤ 32 →
    ∃ t, exec .bayRead s = .next t ∧ State.answeredLate 0x0801 r m 0 ([3, 0, 0, 0] ++
      (leN 2 ((s.bay.ring.filter fun x => decide (first.toNat ≤ fld x 4 6)).take n.toNat).length ++
        ((s.bay.ring.filter fun x => decide (first.toNat ≤ fld x 4 6)).take n.toNat).flatMap fun x => leN 2 x.length ++ x)) { s with bay := { s.bay with reqs := [] } } t) ∧
  (∀ (q : BayReq) (r : Req) (m : Byte) (upto : BitVec 48) (s : State), s.serves q r m → q.bop = .confirm → q.args = leN 6 upto.toNat → upto.toNat ≤ s.bay.newest →
    ∃ t c, exec .bayConfirm s = .next t ∧ c.toNat = max upto.toNat s.bay.confirmed.toNat ∧
      State.answeredLate 0x0801 r m 0 ([4, 0, 0, 0] ++ leN 6 c.toNat) { s with bay := { s.bay with confirmed := c, seenConfirmed := c, reqs := [] } } t) ∧
  (∀ (q : BayReq) (r : Req) (m : Byte) (upto : BitVec 48) (s : State), s.serves q r m → q.bop = .confirm → q.args = leN 6 upto.toNat → s.bay.newest < upto.toNat →
    ∃ t, exec .bayConfirm s = .next t ∧ State.answeredLate 0x0801 r m 0x0803 [] { s with bay := { s.bay with reqs := [] } } t) ∧
  (∀ (q : BayReq) (r : Req) (m : Byte) (s : State), s.serves q r m → q.bop = .nonce → q.args = [] → s.bay.rngOk = true →
    ∃ t, exec .bayNonce s = .next t ∧ State.answeredLate 0x0801 r m 0 ([5, 0, 0, 0] ++ s.random 16)
      { s with bay := { s.bay with nonce := some (s.random 16), reqs := [] }, free := s.free + 1 } t) ∧
  (∀ (q : BayReq) (r : Req) (m : Byte) (s : State), s.serves q r m → q.bop = .nonce → q.args = [] → s.bay.rngOk = false →
    ∃ t, exec .bayNonce s = .next t ∧ State.answeredLate 0x0801 r m 0x0802 [] { s with bay := { s.bay with reqs := [] } } t) ∧
  (∀ (q : BayReq) (r : Req) (m : Byte) (st : SealState) (s : State), s.serves q r m → q.bop = .seal → s.sealCheck q.args = none → fld q.args 49 1 = st.code →
    ∃ t, exec .baySeal s = .next t ∧
      State.answeredLate 0x0801 r m 0 ([6, 0, 0, 0] ++ [BitVec.ofNat 8 st.code, 0, 0, 0]) { s with
        bay := { s.bay with
          sealPend := some ⟨st, (sha q.args).take 16⟩, nonce := none, seenSeal := BitVec.ofNat 2 s.bay.sealSt.code
          seenPend := some (BitVec.ofNat 2 st.code), reqs := [] }
        hrb := { s.hrb with evtC := t.hrb.evtC } } t) ∧
  (∀ (q : BayReq) (r : Req) (m : Byte) (st : BitVec 16) (s : State), s.serves q r m → q.bop = .seal → envelopeOk q.args 0x30 4 = true → fld q.args 50 2 = 0 →
    ((slice q.args 8 16 ≠ padTo 16 s.lc.unitId ∨ s.bay.nonce ≠ some (slice q.args 28 16) ∨ fld q.args 48 1 ≠ s.bay.sealSt.code) ∧ st = 0x0704) ∨
      (slice q.args 8 16 = padTo 16 s.lc.unitId ∧ s.bay.nonce = some (slice q.args 28 16) ∧ fld q.args 48 1 = s.bay.sealSt.code ∧
        cfgAuth s.bay.cfg (envPub q.args) = false ∧ st = 0x0705) →
    ∃ t, exec .baySeal s = .next t ∧ State.answeredLate 0x0801 r m st [] { s with bay := { s.bay with nonce := none, reqs := [] } } t) ∧
  (∀ (q : BayReq) (r : Req) (m : Byte) (fw : Bool) (off : Word) (data : Bytes) (s : State), s.serves q r m → q.bop = .stage → s.bay.sealSt = .unsealed →
    q.args = [if fw then 1 else 0, 0, 0, 0] ++ leN 4 off.toNat ++ data → 1 ≤ data.length → data.length ≤ 4048 →
    off.toNat + data.length ≤ (if fw then 131072 else 8000) →
    ∃ t top, exec .bayStage s = .next t ∧ off.toNat + data.length ≤ top ∧ State.answeredLate 0x0801 r m 0 ([7, 0, 0, 0] ++ leN 4 top)
      { s with bay := { s.bay with
        stage0 := if fw then s.bay.stage0 else (off.toNat, data) :: s.bay.stage0
        stage1 := if fw then (off.toNat, data) :: s.bay.stage1 else s.bay.stage1
        reqs := [] } } t) ∧
  (∀ (q : BayReq) (r : Req) (m : Byte) (st : BitVec 16) (s : State), s.serves q r m → q.bop = .stage →
    (s.bay.sealSt = .sealed ∧ st = 0x0806) ∨ (s.bay.sealSt = .broken ∧ st = 0x0802) ∨
      (s.bay.sealSt = .unsealed ∧ 9 ≤ q.args.length ∧ q.args.length ≤ 4056 ∧ q.args.take 4 = zeros 4 ∧ 8000 < fld q.args 4 4 + (q.args.length - 8) ∧ st = 0x0506) →
    ∃ t, exec .bayStage s = .next t ∧ State.answeredLate 0x0801 r m st [] { s with bay := { s.bay with reqs := [] } } t) ∧
  (∀ (q : BayReq) (r : Req) (m : Byte) (len : Word) (o : Bytes) (s : State), s.serves q r m → q.bop = .configCommit → s.bay.sealSt = .unsealed → q.args = leN 4 len.toNat →
    len.toNat ≤ 8000 → o = pieceBytes s.bay.stage0 len.toNat → s.configCheck o = none →
    ∃ t b, exec .bayConfigCommit s = .next t ∧ t.bay.config = some o ∧ t.bay.stage0 = [] ∧ (∀ n : Fin 64, (t.bay.meters[n]).cfg = cfgEntry o n.val) ∧
      (∃ x ∈ t.bay.queue, x.type = 0x11) ∧ t.bay.ring = s.bay.ring ∧ t.bay.sealSt = .unsealed ∧ t.bay.confirmed = s.bay.confirmed ∧ t.bay.fw = s.bay.fw ∧ t.bay.reqs = [] ∧
      State.answeredLate 0x0801 r m 0 b { s with bay := t.bay } t ∧ b.take 8 = [8, 0, 0, 0] ++ leN 4 (fld o 24 4)) ∧
  (∀ (q : BayReq) (r : Req) (m : Byte) (len : Word) (i : Bytes) (s : State), s.serves q r m → q.bop = .fwCommit → s.bay.sealSt = .unsealed → q.args = leN 4 len.toNat →
    len.toNat ≤ 131072 → i = pieceBytes s.bay.stage1 len.toNat → fwLayout i len.toNat = true → s.fwCheck i = none → s.bay.fwSel ≠ some false →
    ∃ t b, exec .bayFwCommit s = .next t ∧ t.bay.fwA = i ∧ t.bay.fwSel = some false ∧ t.bay.fwB = s.bay.fwB ∧ t.bay.stage1 = [] ∧ t.bay.fw.running = true ∧
      t.bay.fw.pc = BitVec.ofNat 32 (fld i 28 4) ∧ t.bay.fw.data = [] ∧ (∃ x ∈ t.bay.queue, x.type = 0x12) ∧ t.bay.ring = s.bay.ring ∧ t.bay.sealSt = .unsealed ∧
      t.bay.meters = s.bay.meters ∧ t.bay.config = s.bay.config ∧ t.bay.reqs = [] ∧
      State.answeredLate 0x0801 r m 0 b { s with bay := t.bay } t ∧ b.take 8 = [9, 0, 0, 0] ++ leN 4 (imgVersion i)) ∧
  (∀ (q : BayReq) (r : Req) (m : Byte) (s : State), s.serves q r m → q.bop = .configCommit ∨ q.bop = .fwCommit → s.bay.sealSt = .sealed →
    ∃ t, exec (if q.bop = .configCommit then .bayConfigCommit else .bayFwCommit) s = .next t ∧
      State.answeredLate 0x0801 r m 0x0806 [] { s with bay := { s.bay with reqs := [] } } t) ∧
  (∀ (q : BayReq) (r : Req) (m : Byte) (s : State), s.serves q r m → q.bop = .app → q.args ≠ [] → q.args.length ≤ 2048 → s.bay.fw.running = true → s.bay.fw.waiting = none →
    exec .bayApp s = .next { s with bay := { s.bay with reqs := [{ q with taken := true }], fw := { s.bay.fw with message := some q.args } } }) ∧
  (∀ (q : BayReq) (r : Req) (m : Byte) (s : State), s.serves q r m → q.bop = .app → q.args ≠ [] → q.args.length ≤ 2048 → s.bay.fw.running = false →
    ∃ t, exec .bayApp s = .next t ∧ State.answeredLate 0x0801 r m 0x0802 [] { s with bay := { s.bay with reqs := [] } } t) ∧
  (∀ (q : BayReq) (r : Req) (m : Byte) (s : State), s.live = true → s.bay.reqs = [q] → q.bop = .app → q.taken = true → q.host = true →
    s.treor.waiting = [⟨.bay q.chan, r, 0x0801, m⟩] →
    ∃ t, exec .bayAppTimeout s = .next t ∧ State.answeredLate 0x0801 r m 0x0802 [] { s with bay := { s.bay with reqs := [], fw := { s.bay.fw with message := none } } } t) ∧
  (∀ (q : BayReq) (s : State), s.bayOn = true → s.bay.bridge = 1 → s.bay.reqs = [q] → q.bop = .ack → q.taken = false → q.host = false →
    s.inspectorOk (q.args.drop 6) = false →
    exec .bayAck s = .next { s with tag := { s.tag with inboxAnswer := some 1 }, bay := { s.bay with reqs := [] } }) ∧
  (∀ (q : BayReq) (s : State), s.bayOn = true → s.bay.bridge = 1 → s.bay.reqs = [q] → q.bop = .ack → q.taken = false → q.host = false →
    s.inspectorOk (q.args.drop 6) = true → (sha (q.args.drop 6)).take 12 ∈ s.bay.acks →
    exec .bayAck s = .next { s with tag := { s.tag with inboxAnswer := some 2 }, bay := { s.bay with reqs := [] } }) ∧
  (∀ (q : BayReq) (s : State), s.bayOn = true → s.bay.bridge = 1 → s.bay.reqs = [q] → q.bop = .ack → q.taken = false → q.host = false →
    s.inspectorOk (q.args.drop 6) = true → (sha (q.args.drop 6)).take 12 ∉ s.bay.acks → s.bay.acks.length < 16 → s.bay.queue.length < 224 →
    ∃ t x, exec .bayAck s = .next t ∧ t.bay = { s.bay with
        reqs := [{ q with taken := true }], acks := s.bay.acks ++ [(sha (q.args.drop 6)).take 12], queue := s.bay.queue ++ [x] } ∧
      x.type = 0x15 ∧ x.ack = true ∧ x.time = s.guard.rtc ∧ s.onlyIn [.bay] t) ∧
  (∀ (r : Req) (s : State), s.takes 0x0803 r true → r.body = [] → s.bay.seenPend = none →
    ∃ t, exec (.bayStatus r) s = .next t ∧ State.answered 0x0803 r 0 ([s.bay.bridge.setWidth 8, if s.bay.bridge = 1 then 1 else 0, s.bay.seenSeal.setWidth 8, 0] ++
      leN 6 s.bay.seenRec.toNat ++ leN 6 s.bay.seenConfirmed.toNat ++ leN 4 s.bay.seenEvt.toNat ++ leN 2 s.bay.queuedHost.length ++ [0, 0] ++
      leN 4 s.bay.seenFw.toNat ++ leN 4 s.bay.seenCfg.toNat) s t) ∧
  (∀ s : State, s.supervisor = true → s.bay.bridge = 1 → s.lc.state ≠ .invalid → s.param 0x0B01 0 ≠ 0 →
    exec .baySummaryInterval s = .next { s with bay := { s.bay with reqs := s.bay.reqs ++ [{ bop := .summary, host := false }] } })

/-- R407 to R413 (BAY_WAIT, MEASURE, RECDONE, BAY_TOTAL, BAY_TIME, APP_RECV, APP_REPLY, CFG_READ, BAY_FW_STOP, BAY_FW_RESTART, METER_PULSE, METER_UART_BYTE, FREQ_GATE_END, MP_TX_WRITE, TOTAL_INTERVAL): the
firmware's calls and the meter ports. -/
def Obligations.BayFirmwareAndMeters : Prop :=
  (∀ (mask : BitVec 4) (us : Word) (s : State), s.fwCalls = true → mask ≠ 0 → mask.getLsbD 3 = false ∨ (us ≠ 0 ∧ us.toNat ≤ 10000000) → s.bay.causes &&& mask = 0 →
    exec (.bayWait mask us) s = .next { s with bay := { s.bay with fw := { s.bay.fw with waiting := some (mask, us) } } }) ∧
  (∀ (mask : BitVec 4) (us : Word) (s : State), s.fwCalls = true → mask ≠ 0 → mask.getLsbD 3 = false ∨ (us ≠ 0 ∧ us.toNat ≤ 10000000) → s.bay.causes &&& mask ≠ 0 →
    exec (.bayWait mask us) s = .next { s with bay := { s.bay with fw := s.bay.fw.returns 0 [(s.bay.causes &&& mask).setWidth 32] } }) ∧
  (∀ (us : Word) (s : State), s.fwCalls = true → exec (.bayWait 0 us) s = .next { s with bay := { s.bay with fw := s.bay.fw.returns 0x0108 [] } }) ∧
  (∀ (port addr : Word) (s : State), s.fwCalls = true → port.toNat ≤ 63 ∨ port = 0xFF → 0x10000000 ≤ addr.toNat → addr.toNat + 24 ≤ 0x10018000 → s.bay.queue.length < 224 →
    ∃ t x, exec (.measure port addr) s = .next t ∧ t.bay = { s.bay with
        queue := s.bay.queue ++ [x]
        fw := BayFw.returns { s.bay.fw with nextTicket := s.bay.fw.nextTicket + 1, tickets := s.bay.fw.tickets ++ [(s.bay.fw.nextTicket, none)] } 0 [s.bay.fw.nextTicket] } ∧
      x.type = 0x01 ∧ x.port = port.setWidth 8 ∧ x.ticket = some s.bay.fw.nextTicket ∧ x.flags = BitVec.ofNat 8 s.bay.sealSt.code ∧
      x.body = Memory.readN s.bay.fw.data (addr.toNat - 0x10000000) 24 ∧ s.onlyIn [.bay] t) ∧
  (∀ (port addr : Word) (st : Word) (s : State), s.fwCalls = true →
    (63 < port.toNat ∧ port ≠ 0xFF ∧ st = 0x0108) ∨ (port.toNat ≤ 63 ∧ addr.toNat < 0x10000000 ∧ st = 0x0308) ∨
      (port.toNat ≤ 63 ∧ 0x10000000 ≤ addr.toNat ∧ addr.toNat + 24 ≤ 0x10018000 ∧ 224 ≤ s.bay.queue.length ∧ st = 0x0802) →
    exec (.measure port addr) s = .next { s with bay := { s.bay with fw := s.bay.fw.returns st [] } }) ∧
  (∀ (k : Word) (n : BitVec 48) (rest : List (Word × Option (BitVec 48))) (s : State), s.fwCalls = true → s.bay.fw.tickets = (k, some n) :: rest →
    exec .recdone s = .next { s with bay := { s.bay with fw := BayFw.returns { s.bay.fw with tickets := rest } 0 [k, n.setWidth 32] } }) ∧
  (∀ s : State, s.fwCalls = true → (∀ t ∈ s.bay.fw.tickets, t.2 = none) →
    exec .recdone s = .next { s with bay := { s.bay with fw := s.bay.fw.returns 0x0503 [] } }) ∧
  (∀ (n : Fin 64) (s : State), s.fwCalls = true → exec (.bayTotal (BitVec.ofNat 32 n.val)) s = .next { s with bay := { s.bay with
    fw := s.bay.fw.returns 0 [(s.bay.meters[n]).total.setWidth 32, ((s.bay.meters[n]).total >>> 32).setWidth 32] } }) ∧
  (∀ (n : Word) (s : State), s.fwCalls = true → 64 ≤ n.toNat → exec (.bayTotal n) s = .next { s with bay := { s.bay with fw := s.bay.fw.returns 0x0108 [] } }) ∧
  (∀ s : State, s.fwCalls = true → exec .bayTime s = .next { s with bay := { s.bay with
    fw := s.bay.fw.returns 0 [s.guard.rtc.setWidth 32, s.guard.rtcSub ++ BitVec.ofBool s.guard.rtcSet ++ s.guard.rtc.extractLsb' 32 16] } }) ∧
  (∀ (dst room : Word) (m : Bytes) (s : State), s.fwCalls = true → s.bay.fw.message = some m → m.length ≤ room.toNat → 0x10000000 ≤ dst.toNat →
    dst.toNat + m.length ≤ 0x10018000 →
    exec (.appRecv dst room) s = .next { s with bay := { s.bay with fw := BayFw.returns { s.bay.fw with
      message := none, data := Memory.writeN s.bay.fw.data (dst.toNat - 0x10000000) m } 0 [BitVec.ofNat 32 m.length] } }) ∧
  (∀ (dst room : Word) (s : State), s.fwCalls = true → s.bay.fw.message = none →
    exec (.appRecv dst room) s = .next { s with bay := { s.bay with fw := s.bay.fw.returns 0x0503 [] } }) ∧
  (∀ (src len : Word) (q : BayReq) (r : Req) (m : Byte) (s : State), s.fwCalls = true → s.live = true → len.toNat ≤ 2048 → 0x10000000 ≤ src.toNat → src.toNat + len.toNat ≤ 0x10018000 →
    s.bay.reqs = [q] → q.bop = .app → q.taken = true → q.host = true → s.treor.waiting = [⟨.bay q.chan, r, 0x0801, m⟩] →
    ∃ t, exec (.appReply src len) s = .next t ∧
      State.answeredLate 0x0801 r m 0 ([10, 0, 0, 0] ++ Memory.readN s.bay.fw.data (src.toNat - 0x10000000) len.toNat)
        { s with bay := { s.bay with reqs := [], fw := s.bay.fw.returns 0 [] } } t) ∧
  (∀ (src len : Word) (s : State), s.fwCalls = true → 2048 < len.toNat →
    exec (.appReply src len) s = .next { s with bay := { s.bay with fw := s.bay.fw.returns 0x0108 [] } }) ∧
  (∀ (off dst len : Word) (s : State), s.fwCalls = true → 1856 + off.toNat + len.toNat + 128 ≤ s.bay.cfg.length → 0x10000000 ≤ dst.toNat →
    dst.toNat + len.toNat ≤ 0x10018000 →
    exec (.cfgRead off dst len) s = .next { s with bay := { s.bay with fw := BayFw.returns { s.bay.fw with
      data := Memory.writeN s.bay.fw.data (dst.toNat - 0x10000000) (slice s.bay.cfg (1856 + off.toNat) len.toNat) } 0 [] } }) ∧
  (∀ (cause : Byte) (access : AccessKind) (pc mtval : Word) (s : State), s.bayOn = true → s.bay.fw.running = true → s.bay.queue.length < 224 →
    cause ≠ 1 ∨ bayGrants access mtval.toNat = false →
    ∃ t x, exec (.bayFwStop cause access pc mtval) s = .next t ∧ t.bay.fw.running = false ∧ t.bay.fw.restartDue = true ∧ t.bay.queue.getLast? = some x ∧ x.type = 0x16 ∧
      x.body = [cause, 0, 0, 0] ++ leN 4 pc.toNat ++ leN 4 mtval.toNat ++ zeros 12 ∧ (∀ y ∈ t.bay.queue, y.type ≠ 0x01) ∧ t.bay.meters = s.bay.meters ∧ s.onlyIn [.bay] t) ∧
  (∀ s : State, s.bayOn = true → s.bay.fw.restartDue = true → s.bay.fw.restarts.length < 8 →
    ∃ t, exec .bayFwRestart s = .next t ∧ t.bay.fw.running = true ∧ t.bay.fw.restartDue = false ∧ t.bay.fw.data = [] ∧ t.bay.fw.regs = Vector.replicate 31 0 ∧
      t.bay.fw.pc = BitVec.ofNat 32 (fld s.bay.image 28 4) ∧ t.bay.fw.restarts.getLast? = some s.guard.rtc ∧ t.bay = { s.bay with fw := t.bay.fw } ∧ s.onlyIn [.bay] t) ∧
  (∀ s : State, s.bayOn = true → s.bay.fw.restartDue = true → 8 ≤ s.bay.fw.restarts.length → (∀ x ∈ s.bay.fw.restarts, s.guard.rtc.toNat < x.toNat + 3600) →
    exec .bayFwRestart s = .next { s with bay := { s.bay with fw := { s.bay.fw with restartDue := false } } }) ∧
  (∀ (n : Fin 64) (s : State), s.bayOn = true → (s.bay.meters[n]).cfg.mode = 1 → (s.bay.meters[n]).cfg.opt = 0 → (s.bay.meters[n]).a = false → s.bay.fw.waiting = none →
    ∀ b : Bool, exec (.meterPulse n true b) s = .next (s.updMeter n fun m => { m with a := true, b := b, total := m.total + 1 })) ∧
  (∀ (n : Fin 64) (a : Bool) (s : State), s.bayOn = true → (s.bay.meters[n]).cfg.mode = 2 → (s.bay.meters[n]).cfg.opt = 0 → (s.bay.meters[n]).a ≠ a → s.bay.fw.waiting = none →
    exec (.meterPulse n a (s.bay.meters[n]).b) s = .next (s.updMeter n fun m => { m with a := a, total := if a ≠ m.b then m.total + 1 else m.total - 1 })) ∧
  (∀ (n : Fin 64) (s : State), s.bayOn = true → (s.bay.meters[n]).cfg.mode = 2 →
    ∃ t, exec (.meterPulse n (!(s.bay.meters[n]).a) (!(s.bay.meters[n]).b)) s = .next t ∧ (t.bay.meters[n]).qerr.set = true ∧ (t.bay.meters[n]).total = (s.bay.meters[n]).total ∧
      (∀ k : Fin 64, k ≠ n → t.bay.meters[k] = s.bay.meters[k]) ∧ s.onlyIn [.bay] t) ∧
  (∀ (n : Fin 64) (x : Byte) (s : State), s.bayOn = true → (s.bay.meters[n]).cfg.mode = 3 → (s.bay.meters[n]).rx.length < 64 → s.bay.fw.waiting = none →
    exec (.meterUartByte n x true) s = .next (s.updMeter n fun m =>
      { m with rx := m.rx ++ [x], lastRx := some (s.guard.rtc, BitVec.ofBool s.guard.rtcSet ++ s.guard.rtcSub) })) ∧
  (∀ (n : Fin 64) (x : Byte) (ok : Bool) (s : State), s.bayOn = true → (s.bay.meters[n]).cfg.mode = 3 → 64 ≤ (s.bay.meters[n]).rx.length →
    ∃ t, exec (.meterUartByte n x ok) s = .next t ∧ (t.bay.meters[n]).rx = (s.bay.meters[n]).rx ∧
      (if ok then (t.bay.meters[n]).ovr.set else (t.bay.meters[n]).ferr.set) = true ∧ (∀ k : Fin 64, k ≠ n → t.bay.meters[k] = s.bay.meters[k]) ∧ s.onlyIn [.bay] t) ∧
  (∀ (n : Fin 64) (s : State), s.bayOn = true → (s.bay.meters[n]).cfg.mode = 4 →
    ∃ t, exec (.freqGateEnd n) s = .next t ∧ (t.bay.meters[n]).gateCount = (s.bay.meters[n]).gateRun ∧ (t.bay.meters[n]).gateRun = 0 ∧ (t.bay.meters[n]).gate.set = true ∧
      (∀ k : Fin 64, k ≠ n → t.bay.meters[k] = s.bay.meters[k]) ∧ s.onlyIn [.bay] t) ∧
  (∀ (n : Fin 64) (x : Byte) (s : State), s.bayOn = true → (s.bay.meters[n]).cfg.mode = 3 → (s.bay.meters[n]).tx.length < 16 →
    exec (.mpTxWrite n x) s = .next (s.updMeter n fun m => { m with tx := m.tx ++ [x] })) ∧
  (∀ (n : Fin 64) (x : Byte) (s : State), s.bayOn = true → (s.bay.meters[n]).cfg.mode ≠ 3 ∨ 16 ≤ (s.bay.meters[n]).tx.length → exec (.mpTxWrite n x) s = .next s) ∧
  (∀ (n : Fin 64) (s : State), s.bayOn = true → s.bay.totalS ≠ 0 → (s.bay.meters[n]).cfg.mode = 1 → (∀ k : Fin 64, k ≠ n → (s.bay.meters[k]).cfg.mode = 0) →
    s.bay.queue.length < 224 →
    ∃ t x, exec .totalInterval s = .next t ∧ t.bay.queue = s.bay.queue ++ [x] ∧ x.type = 0x02 ∧ x.port = BitVec.ofNat 8 n.val ∧
      x.body.take 16 = leN 8 (s.bay.meters[n]).total.toNat ++ leN 8 (s.bay.meters[n]).prevTotal.toNat ∧
      t.bay.meters[n] = { s.bay.meters[n] with prevTotal := (s.bay.meters[n]).total } ∧ (∀ k : Fin 64, k ≠ n → t.bay.meters[k] = s.bay.meters[k]) ∧ s.onlyIn [.bay] t)

/-- R402, R403, R413 to R425, R431, R433 (BAY_RESET_RELEASE, BAY_POWER_LOW, BAY_PERIODIC_BANK, BAY_BRIDGE_START, BAY_RECORD_ARRIVAL, BAY_SIGN_DONE, BAY_TIME_CHECK, SEAL_PIN_CHANGE, BAY_STORE_REFRESH, BAY_SUPPLY_LOSS): Bay's
power, its banks, its signed ring and its seal. -/
def Obligations.BayRecordsAndPower : Prop :=
  (∀ (mv : Nat) (s : State), 1680 ≤ mv → s.bay.running = false → s.bay.fwSel = none → s.bay.sealPend = none →
    ∃ t x, exec (.bayResetRelease mv false) s = .next t ∧ t.bay.running = true ∧ t.bay.holding = false ∧ t.bay.recalled = true ∧ t.bay.pinLow = true ∧
      t.bay.sealSt = s.bay.sealSt ∧ t.bay.ring = s.bay.ring ∧ t.bay.confirmed = s.bay.confirmed ∧ t.bay.queue.head? = some x ∧ x.type = 0x10 ∧
      (∀ n : Fin 64, (t.bay.meters[n]).cfg = cfgEntry s.bay.cfg n.val ∧ (t.bay.meters[n]).total =
        (match s.bay.newestBank with | none => 0 | some k => k.totals.getD n.val 0)) ∧
      t.power = { s.power with bayMv := mv } ∧ s.onlyIn [.bay, .power, .hrb] t ∧ t.bay.bridge = (if s.bay.bridge = 3 then 0 else s.bay.bridge) ∧
      (s.released = true → s.bay.bridge = 3 → t.hrb.evtC[(0 : Fin 6)].set = true) ∧ t.hrb.rclBay = (if s.released = true ∧ s.hrb.rclBay = 0 then 1 else s.hrb.rclBay)) ∧
  (∀ (mv : Nat) (s : State), 1680 ≤ mv → s.bay.running = false → s.bay.fwSel = none → s.bay.sealPend = none → s.bay.sealSt = .sealed →
    ∃ t, exec (.bayResetRelease mv true) s = .next t ∧ t.bay.sealSt = .broken ∧ (∃ x ∈ t.bay.queue, x.type = 0x13 ∧ x.body.take 4 = [1, 2, 1, 0])) ∧
  (∀ (mv : Nat) (s : State), mv < 1700 → s.bayOn = true →
    ∃ t k, exec (.bayPowerLow mv) s = .next t ∧ t.bay.holding = true ∧ t.bay.fw.running = false ∧ t.bay.newestBank = some k ∧ k.kind = 0 ∧ k.rtc = s.guard.rtc ∧
      k.totals = s.bay.meters.toList.map (·.total) ∧ t.bay.meters = s.bay.meters ∧ t.bay.ring = s.bay.ring ∧ s.onlyIn [.bay, .power] t) ∧
  (∀ s : State, s.bayOn = true →
    ∃ t k, exec .bayPeriodicBank s = .next t ∧ t.bay.newestBank = some k ∧ k.kind = 1 ∧ k.rtc = s.guard.rtc ∧ k.totals = s.bay.meters.toList.map (·.total) ∧
      t.bay = { s.bay with bankA := t.bay.bankA, bankB := t.bay.bankB } ∧ s.onlyIn [.bay] t) ∧
  (∀ (ms : Nat) (s : State), s.supervisor = true → s.bayOn = true → s.bay.recalled = true → s.bay.bridge ≠ 1 → s.bay.sealPend = none →
    ∃ t, exec (.bayBridgeStart ms) s = .next t ∧ t.bay.bridge = 1 ∧ t.hrb.rclBay = 2 ∧ t.hrb.pagesBay = 4096 ∧ t.hrb.evtC[(0 : Fin 6)].set = true ∧
      (∀ c : Fin 4, t.store.chanEpoch[c] = nextEpoch s.store.chanEpoch[c]) ∧ t.store = { s.store with chanEpoch := t.store.chanEpoch } ∧
      t.bay.offered = s.bay.ring.filter (fun x => decide (s.bay.confirmed.toNat < fld x 4 6)) ∧ t.bay.seenSeal = BitVec.ofNat 2 s.bay.sealSt.code ∧
      t.bay.ring = s.bay.ring ∧ t.bay.sealSt = s.bay.sealSt) ∧
  (∀ (p : SealPend) (ms : Nat) (s : State), s.supervisor = true → s.bayOn = true → s.bay.recalled = true → s.bay.bridge ≠ 1 → s.bay.sealPend = some p → s.bay.firstBridge = true →
    ∃ t, exec (.bayBridgeStart ms) s = .next t ∧ t.bay.sealPend = none ∧ t.bay.sealSt = (if s.bay.pinLow then p.target else s.bay.sealSt)) ∧
  (∀ (x : Bytes) (rest : List Bytes) (s : State), s.supervisor = true → s.bay.bridge = 1 → s.lc.state ≠ .invalid → s.bay.offered = x :: rest → s.treor.hostCaps.getLsbD 8 = false →
    ∃ t, exec .bayRecordArrival s = .next t ∧ t.bay.offered = rest ∧ t.bay.queuedHost = s.bay.queuedHost ++ [(s.unitEpoch 2 0, x)] ∧
      t.bay.seenRec.toNat = max s.bay.seenRec.toNat (fld x 4 6) ∧ t.bay.seenEvt.toNat = fld x 18 4 ∧ t.tag.due = (s.tag.due || byteAt x 1 == 0x40) ∧
      (byteAt x 1 = 0x40 → t.tag.summary = x) ∧ t.tag.mem = s.tag.mem ∧ t.link = s.link ∧ s.onlyIn [.bay, .tag] t) ∧
  (∀ (x : Bytes) (rest : List Bytes) (s : State), s.supervisor = true → s.bay.bridge = 1 → s.lc.state ≠ .invalid → s.bay.offered = x :: rest → s.treor.hostCaps.getLsbD 8 = true →
    s.bay.queuedHost = [] →
    ∃ t m, exec .bayRecordArrival s = .next t ∧ t.bay.queuedHost = [] ∧ m.src = .bayRecord ∧ m.cls = BitVec.ofNat 2 (s.param 0x0B00 0) ∧
      t.link.u.own = s.link.u.own.set m.cls.toNat (s.link.u.own[m.cls.toNat] ++ [m]) ∧
      m.bytes = message (BitVec.ofNat 8 s.treor.verMaj) m.cls false true 2 0 (s.unitEpoch 2 0) 0 0x0802 0 x) ∧
  (∀ (x : BayWaitRec) (rest : List BayWaitRec) (s : State), s.bayOn = true → s.bay.ringFull = false → s.bay.queue = x :: rest → x.type = 0x11 ∨ x.type = 0x12 ∨ x.type = 0x13 ∨ x.type = 0x14 →
    x.ack = false → x.body.length = 24 → s.bay.ring.length < 5952 → s.bay.newest + 1 < 2 ^ 48 →
    ∃ t y, exec .baySignDone s = .next t ∧ t.bay.queue = rest ∧ t.bay.ring = s.bay.ring ++ [y] ∧ y.length = 120 ∧ fld y 4 6 = s.bay.newest + 1 ∧ byteAt y 1 = x.type ∧
      fld y 10 6 = x.time.toNat ∧ slice y 24 8 = (match s.bay.ring.getLast? with | none => zeros 8 | some z => (sha z).take 8) ∧
      t.bay.evt = s.bay.evt + 1 ∧ t.bay.mark = s.bay.evt + 1 ∧ t.bay.sumDue = true ∧
      t.bay.offered = (if s.bay.bridge = 1 then s.bay.offered ++ [y] else s.bay.offered) ∧ t.bay.meters = s.bay.meters ∧ s.onlyIn [.bay, .free] t) ∧
  (∀ s : State, s.bay.ringFull = true → exec .baySignDone s = .next s) ∧
  (∀ s : State, s.bayOn = true → s.bay.ringFull = false → (∀ x ∈ s.bay.queue, x.type = 0x01 ∨ x.type = 0x02) → s.bay.reqs = [] → s.bay.sumDue = true → s.bay.bridge = 1 →
    ∃ t y, exec .baySignDone s = .next t ∧ t.bay = { s.bay with offered := s.bay.offered ++ [y], sumDue := false } ∧ y.length = 334 ∧ byteAt y 1 = 0x40 ∧ s.onlyIn [.bay, .free] t) ∧
  (∀ (e : BitVec 48) (s : State), s.bayOn = true → s.guard.rtc.toNat + 2 < e.toNat ∨ e.toNat + 2 < s.guard.rtc.toNat → s.bay.queue.length < 224 →
    ∃ t x, exec (.bayTimeCheck e) s = .next t ∧ t.bay = { s.bay with queue := s.bay.queue ++ [x] } ∧ x.type = 0x14 ∧ x.body = leN 6 e.toNat ++ leN 6 s.guard.rtc.toNat ++ zeros 12 ∧
      s.onlyIn [.bay] t) ∧
  (∀ (e : BitVec 48) (s : State), e.toNat ≤ s.guard.rtc.toNat + 2 → s.guard.rtc.toNat ≤ e.toNat + 2 → exec (.bayTimeCheck e) s = .next s) ∧
  (∀ s : State, s.bayOn = true → s.bay.sealSt = .sealed → s.bay.bridge = 1 → s.bay.queue.length < 224 → s.bay.seenSeal = 1 →
    ∃ t x, exec (.sealPinChange true) s = .next t ∧ t.bay.sealSt = .broken ∧ t.bay.sealPend = none ∧ t.bay.pinLow = false ∧ t.bay.seenSeal = 2 ∧
      t.bay.queue = s.bay.queue ++ [x] ∧ x.type = 0x13 ∧ x.body.take 4 = [1, 2, 1, 0] ∧ t.hrb.evtC[(1 : Fin 6)].set = true ∧ s.onlyIn [.bay, .hrb] t) ∧
  (∀ s : State, s.bayOn = true → ∃ t, exec (.sealPinChange false) s = .next t ∧ t.bay = { s.bay with pinLow := true } ∧
      (s.released = true → s.bay.pinLow = false → t.hrb.evtC[(1 : Fin 6)].set = true) ∧ (s.bay.pinLow = true → t = s) ∧ s.onlyIn [.bay, .hrb] t) ∧
  (∀ s : State, s.bayOn = true → exec .bayStoreRefresh s = .next { s with bay := { s.bay with refreshPage := s.bay.refreshPage + 1 } }) ∧
  (∀ (mv : Nat) (s : State), mv < 1620 → s.bay.reqs = [] → s.released = true → s.bay.bridge ≠ 3 →
    ∃ t, exec (.baySupplyLoss mv) s = .next t ∧ t.bay.running = false ∧ t.bay.bridge = 3 ∧ t.bay.queue = [] ∧ t.bay.ring = s.bay.ring ∧ t.bay.sealSt = s.bay.sealSt ∧
      t.bay.confirmed = s.bay.confirmed ∧ t.hrb.evtC[(0 : Fin 6)].set = true ∧ s.onlyIn [.bay, .hrb, .power, .tag] t) ∧
  (∀ (mv : Nat) (q : BayReq) (r : Req) (m : Byte) (s : State), mv < 1620 → s.live = true → s.bay.reqs = [q] → q.host = true → s.treor.waiting = [⟨.bay q.chan, r, 0x0801, m⟩] →
    ∃ t, exec (.baySupplyLoss mv) s = .next t ∧ t.treor.waiting = [] ∧ t.bay.reqs = [] ∧
      t.link.u.own = s.link.u.own.set r.cls.toNat (s.link.u.own[r.cls.toNat] ++ [{
        src := .response, cls := r.cls
        bytes := message m r.cls true false r.kind r.index (s.unitEpoch r.kind r.index) r.tag 0x0801 0x0801 [] }]))

/-- R247, R248, R245, Table 10-9 (WAIT, TENANT_WAKE, WAIT_TIMEOUT): a wait returns at once with its pending causes, or takes the slot off its core until one
of them is pending; a wake for a port event or the mailbox is urgent.
R243 to R246, R248, R258 (QUANTUM_END, YIELD): the slot that ran is charged, an urgent slot goes first, else the smallest virtual time runs, and a core
that takes another slot loads its MPU. The count of instructions is a free value (log 13). -/
def Obligations.CoresRunTenants : Prop :=
  (∀ (slot : Fin 128) (mask us : Word) (s : State), s.calls slot = true → 0 < mask.toNat → mask.toNat < 16 →
    (mask.getLsbD 3 = true → 0 < us.toNat ∧ us.toNat ≤ 10000000) → s.causes slot &&& mask.setWidth 4 ≠ 0 →
    ∃ m ins, m ≤ 100 ∧ exec (.wait slot mask us) s = .next (s.afterCall slot m ins fun k =>
      { k with jobDone := false, regs := (k.regs.set 9 0).set 10 ((s.causes slot &&& mask.setWidth 4).setWidth 32) })) ∧
  (∀ (slot : Fin 128) (c : Fin 8) (mask us : Word) (s : State), s.calls slot = true → 0 < mask.toNat → mask.toNat < 16 →
    (mask.getLsbD 3 = true → 0 < us.toNat ∧ us.toNat ≤ 10000000) → s.causes slot &&& mask.setWidth 4 = 0 →
    (s.tenants.cores[c]).slot = some slot → (∀ d : Fin 8, d ≠ c → (s.tenants.cores[d]).slot ≠ some slot) →
    ∃ t m ins, m ≤ 100 ∧ exec (.wait slot mask us) s = .next t ∧ t.tenants.slots[slot] = { Slot.ranFor m ins s.tenants.slots[slot] with sinceCall := 0, waiting := some ⟨mask.setWidth 4, us⟩ } ∧
      s.otherSlots slot t ∧ t.onCore slot = false ∧ (∀ d : Fin 8, d ≠ c → t.tenants.cores[d] = s.tenants.cores[d]) ∧ s.onlyIn [.tenants, .free] t) ∧
  (∀ (slot : Fin 128) (mask us : Word) (s : State), s.calls slot = true → mask = 0 →
    ∃ m ins, m ≤ 100 ∧ exec (.wait slot mask us) s = .next (s.afterCall slot m ins fun k => { k with regs := k.regs.set 9 0x0108 })) ∧
  (∀ (slot : Fin 128) (cause : BitVec 4) (w : WaitState) (s : State), s.live = true → (s.tenants.slots[slot]).state = .running →
    (s.tenants.slots[slot]).waiting = some w → s.causes slot &&& w.mask &&& cause ≠ 0 →
    ∃ t, exec (.tenantWake slot cause) s = .next t ∧ (∃ v, (s.tenants.slots[slot]).vtime ≤ v ∧ t.tenants.slots[slot] = { s.tenants.slots[slot] with
        waiting := none, jobDone := false, vtime := v, regs := ((s.tenants.slots[slot]).regs.set 9 0).set 10 ((s.causes slot &&& w.mask).setWidth 32) }) ∧
      s.otherSlots slot t ∧
      ((s.causes slot &&& w.mask).getLsbD 0 = true ∨ (s.causes slot &&& w.mask).getLsbD 1 = true → slot ∈ t.tenants.urgent ∨ t.onCore slot = true) ∧
      ((s.causes slot &&& w.mask).getLsbD 0 = false → (s.causes slot &&& w.mask).getLsbD 1 = false →
        t.tenants.urgent = s.tenants.urgent ∧ t.tenants.cores = s.tenants.cores) ∧ s.onlyIn [.tenants] t) ∧
  (∀ (slot : Fin 128) (w : WaitState) (s : State), s.live = true → (s.tenants.slots[slot]).state = .running → (s.tenants.slots[slot]).waiting = some w →
    w.mask.getLsbD 3 = true → s.causes slot &&& w.mask = 0 →
    ∃ t v, exec (.waitTimeout slot) s = .next t ∧ (s.tenants.slots[slot]).vtime ≤ v ∧ t.tenants.slots[slot] = { s.tenants.slots[slot] with
        waiting := none, jobDone := false, vtime := v, regs := ((s.tenants.slots[slot]).regs.set 9 0).set 10 8 } ∧
      s.otherSlots slot t ∧ t.tenants.urgent = s.tenants.urgent ∧ t.tenants.cores = s.tenants.cores ∧ s.onlyIn [.tenants] t) ∧
  (∀ (c : Fin 8) (i : Fin 128) (us : Nat) (s : State), s.live = true → (s.tenants.cores[c]).slot = some i → 0 < (s.tenants.slots[i]).run.weight →
    ∃ t ins, exec (.quantumEnd c us 0) s = .next t ∧ t.tenants.slots[i] = Slot.ranFor us ins s.tenants.slots[i] ∧ s.otherSlots i t ∧
      (∀ d : Fin 8, d ≠ c → t.tenants.cores[d] = s.tenants.cores[d]) ∧ s.onlyIn [.tenants, .free] t) ∧
  (∀ (c : Fin 8) (us : Nat) (s : State), s.live = true → s.tenants.urgent = [] →
    ∃ t, exec (.quantumEnd c us 0) s = .next t ∧ (t.tenants.cores[c]).urgent = false ∧
      (∀ j, (t.tenants.cores[c]).slot = some j → t.ready j = true ∧ (∀ d : Fin 8, d ≠ c → (t.tenants.cores[d]).slot = some j → (s.tenants.cores[c]).slot = some j) ∧
        ∀ k, s.ready k = true → s.onCore k = false → (t.tenants.slots[j]).vtime ≤ (t.tenants.slots[k]).vtime) ∧
      ((t.tenants.cores[c]).slot = none → ∀ k, s.ready k = true → s.onCore k = true)) ∧
  (∀ (c : Fin 8) (j : Fin 128) (us n : Nat) (r : List (Fin 128)) (s : State), s.live = true → (s.tenants.cores[c]).slot = none → (s.tenants.cores[c]).urgent = false →
    s.tenants.urgent = j :: r → s.ready j = true → s.onCore j = false → j ∉ r →
    ∃ t, exec (.quantumEnd c us n) s = .next t ∧ t.tenants.cores[c] = { s.tenants.cores[c] with slot := some j, urgent := true, mpu := t.tenants.cores[c].mpu } ∧
      t.tenants.cores[c].mpu.en = true ∧ (∀ n : Fin 16, t.tenants.cores[c].mpu.rbase[n] = ((s.tenants.slots[j]).mpuRegions.getD n.val (0, 0)).1 ∧
        t.tenants.cores[c].mpu.rlim[n] = ((s.tenants.slots[j]).mpuRegions.getD n.val (0, 0)).2) ∧
      t.tenants.urgent = r ∧ t.tenants.slots = s.tenants.slots ∧ (∀ d : Fin 8, d ≠ c → t.tenants.cores[d] = s.tenants.cores[d]) ∧ s.onlyIn [.tenants] t) ∧
  (∀ (slot : Fin 128) (s : State), s.calls slot = true →
    ∃ t m ins, m ≤ 100 ∧ exec (.yield slot) s = .next t ∧ t.tenants.slots[slot] = { Slot.ranFor m ins s.tenants.slots[slot] with sinceCall := 0, regs := (s.tenants.slots[slot]).regs.set 9 0 } ∧
      s.otherSlots slot t ∧ s.onlyIn [.tenants, .free] t) ∧
  (∀ (slot j : Fin 128) (c : Fin 8) (s : State), s.calls slot = true → s.coreOf slot = some c → s.tenants.urgent = [j] → (s.tenants.cores[c]).urgent = false →
    s.ready j = true → s.onCore j = false →
    ∃ t, exec (.yield slot) s = .next t ∧ (t.tenants.cores[c]).slot = some j ∧ (t.tenants.cores[c]).urgent = true ∧ t.tenants.urgent = []) ∧
  (∀ (c : Fin 8) (i : Fin 128) (us : Nat) (imm : BitVec 12) (a rd : BitVec 5) (s : State), s.calls i = true → s.coreOf i = some c → 0 < (s.tenants.slots[i]).run.weight →
    rd ≠ 0 → (List.range 4).map (fun j => (s.tenants.slots[i]).codeByte ((s.tenants.slots[i]).pc.toNat + j)) =
      leN 4 (imm.toNat * 2 ^ 20 + a.toNat * 2 ^ 15 + rd.toNat * 2 ^ 7 + 0x13) →
    s.userFault c i .fetch (s.tenants.slots[i]).pc.toNat 2 = none → s.userFault c i .fetch (s.tenants.slots[i]).pc.toNat 4 = none →
    ∃ t, exec (.quantumEnd c us 1) s = .next t ∧ t.tenants.slots[i] = Slot.ranFor us 1 { s.tenants.slots[i] with
        pc := (s.tenants.slots[i]).pc + 4
        regs := (s.tenants.slots[i]).regs.set! (rd.toNat - 1) ((s.tenants.slots[i]).reg a + imm.signExtend 32) } ∧
      s.otherSlots i t ∧ s.onlyIn [.tenants, .free] t)

/-- R256 to R262, Table 10-14, Table 10-17 (REGION_SET, TENANT_TRAP, TENANT_WATCHDOG): a region set is loaded before the call returns; an access the MPU refuses, an
illegal instruction, a breakpoint or 250 ms without a call stop the tenant, with the cause in its record and in the event log. A refused access of machine mode is reported with MODE 3
and stops none; a call of an unknown function returns 0x0106. -/
def Obligations.TenantsAreConfined : Prop :=
  (∀ (slot : Fin 128) (c : Fin 8) (n : Fin 4) (a1 a2 a3 : Word) (s : State), s.calls slot = true → s.coreOf slot = some c → a3 = 0 ∨ a3 = 1 ∨ a3 = 3 →
    a1.toNat % 32 = 0 → (a2.toNat + 1) % 32 = 0 → a1.toNat ≤ a2.toNat → 0x10000000 ≤ a1.toNat →
    a2.toNat < 0x10000000 + 0x10000 * (s.tenants.slots[slot]).run.sram →
    ∃ t m ins, m ≤ 100 ∧ exec (.regionSet slot (BitVec.ofNat 32 (n.val + 1)) a1 a2 a3) s = .next t ∧
      t.tenants.slots[slot] = { Slot.ranFor m ins s.tenants.slots[slot] with
        sinceCall := 0, regs := (s.tenants.slots[slot]).regs.set 9 0, regions := (s.tenants.slots[slot]).regions.set n (some ⟨a1, a2, a3.toNat⟩) } ∧
      s.otherSlots slot t ∧ (t.tenants.cores[c]).mpu.rbase[n.val + 1] = (regionWords (some ⟨a1, a2, a3.toNat⟩)).1 ∧
      (t.tenants.cores[c]).mpu.rlim[n.val + 1] = (regionWords (some ⟨a1, a2, a3.toNat⟩)).2 ∧
      (∀ d : Fin 8, d ≠ c → t.tenants.cores[d] = s.tenants.cores[d]) ∧ s.onlyIn [.tenants, .free] t) ∧
  (∀ (slot : Fin 128) (n : Fin 4) (a1 a2 a3 : Word) (s : State), s.calls slot = true → a3 = 0 ∨ a3 = 1 ∨ a3 = 3 →
    a1.toNat % 32 ≠ 0 ∨ (a2.toNat + 1) % 32 ≠ 0 ∨ a2.toNat < a1.toNat ∨ a1.toNat < 0x10000000 ∨
      0x10000000 + 0x10000 * (s.tenants.slots[slot]).run.sram ≤ a2.toNat →
    ∃ m ins, m ≤ 100 ∧ exec (.regionSet slot (BitVec.ofNat 32 (n.val + 1)) a1 a2 a3) s = .next (s.afterCall slot m ins fun k => { k with regs := k.regs.set 9 0x0304 })) ∧
  (∀ (slot : Fin 128) (c : Fin 8) (pc : Word) (x : TenantTrap) (cause : Byte) (tval : Word) (s : State), s.calls slot = true → s.coreOf slot = some c → s.commits = true →
    (∃ w, x = .illegal w ∧ cause = 2 ∧ tval = w) ∨ (∃ w, x = .misaligned w ∧ cause = 3 ∧ tval = w) ∨ (∃ w, x = .breakpoint w ∧ cause = 4 ∧ tval = w) →
    ∃ t e, exec (.tenantTrap slot pc x) s = .next t ∧ (t.tenants.slots[slot]).state = .quiescing ∧ (t.tenants.slots[slot]).stopCause = cause ∧
      (t.tenants.slots[slot]).stopCount = sat16 (s.tenants.slots[slot]).stopCount ∧ (t.tenants.slots[slot]).stopEpc = pc ∧ (t.tenants.slots[slot]).stopTval = tval ∧
      (s.requests slot = 0 → (t.tenants.slots[slot]).sram = (s.tenants.slots[slot]).sram) ∧ (t.tenants.slots[slot]).regs = (s.tenants.slots[slot]).regs ∧
      t.store.log.getLast? = some e ∧ e.code = 0x01 ∧ e.sub = cause ∧
      e.data = padTo 40 ([BitVec.ofNat 8 slot.val, 0] ++ leN 2 (s.store.slotEpoch[slot]).toNat ++ leN 4 pc.toNat ++ leN 4 tval.toNat ++
        leN 4 (s.tenants.cores[c]).mpu.faultInfo.toNat) ∧
      t.hrb.evtC[(4 : Fin 6)].set = true ∧ t.store = { s.store with log := t.store.log, logSeq := s.store.logSeq + 1 } ∧
      (∀ j : Fin 128, j ≠ slot → (t.tenants.slots[j]).state = (s.tenants.slots[j]).state ∧ (t.tenants.slots[j]).sram = (s.tenants.slots[j]).sram) ∧
      s.onlyIn [.link, .hrb, .treor, .tenants, .sprig, .kct, .cipher, .pke, .mint, .store, .free] t) ∧
  (∀ (slot : Fin 128) (c : Fin 8) (pc a : Word) (k : AccessKind) (size : Fin 5) (b q n : Nat) (s : State), s.calls slot = true → s.coreOf slot = some c →
    s.userFault c slot k a.toNat size.val = some (b, q, n) →
    ∃ t, exec (.tenantTrap slot pc (.access k a size)) s = .next t ∧ (t.tenants.slots[slot]).state = .quiescing ∧ (t.tenants.slots[slot]).stopCause = 1 ∧
      (t.tenants.slots[slot]).stopEpc = pc ∧ (t.tenants.slots[slot]).stopTval = BitVec.ofNat 32 b ∧
      (t.tenants.cores[c]).mpu.faults = sat16 (s.tenants.cores[c]).mpu.faults ∧ (t.tenants.cores[c]).mpu.faultAddr = BitVec.ofNat 32 b ∧
      (t.tenants.cores[c]).mpu.faultInfo = BitVec.ofNat 32 (n * 4096 + q * 256 + k.code * 16 + size.val) ∧
      s.onlyIn [.link, .hrb, .treor, .tenants, .sprig, .kct, .cipher, .pke, .mint, .store, .free] t) ∧
  (∀ (slot : Fin 128) (c : Fin 8) (pc a : Word) (k : AccessKind) (size : Fin 5) (s : State), s.calls slot = true → s.coreOf slot = some c →
    s.userFault c slot k a.toNat size.val = none → fencedStore k a.toNat size.val = false →
    exec (.tenantTrap slot pc (.access k a size)) s = .next s) ∧
  (∀ (slot : Fin 128) (pc : Word) (s : State), s.calls slot = true → 250000 ≤ (s.tenants.slots[slot]).sinceCall →
    ∃ t, exec (.tenantWatchdog slot pc) s = .next t ∧ (t.tenants.slots[slot]).state = .quiescing ∧ (t.tenants.slots[slot]).stopCause = 5 ∧
      (t.tenants.slots[slot]).stopEpc = pc ∧ (t.tenants.slots[slot]).stopTval = 0 ∧
      s.onlyIn [.link, .hrb, .treor, .tenants, .sprig, .kct, .cipher, .pke, .mint, .store, .free] t) ∧
  (∀ (slot : Fin 128) (pc : Word) (s : State), (s.tenants.slots[slot]).sinceCall < 250000 → exec (.tenantWatchdog slot pc) s = .next s) ∧
  (∀ (slot : Fin 128) (c : Fin 8) (pc a : Word) (k : AccessKind) (size : Fin 5) (b q n : Nat) (s : State), s.calls slot = true → s.coreOf slot = some c →
    s.machineFault c k a.toNat size.val = some (b, q, n) →
    ∃ t, exec (.tenantTrap slot pc (.machine k a size)) s = .next t ∧ t.tenants.slots = s.tenants.slots ∧
      (t.tenants.cores[c]).mpu = { (s.tenants.cores[c]).mpu with
        faults := sat16 (s.tenants.cores[c]).mpu.faults, faultAddr := BitVec.ofNat 32 b,
        faultInfo := BitVec.ofNat 32 (n * 4096 + q * 256 + 3 * 64 + k.code * 16 + size.val) } ∧
      (∀ d : Fin 8, d ≠ c → t.tenants.cores[d] = s.tenants.cores[d]) ∧ s.onlyIn [.tenants] t) ∧
  (∀ (slot : Fin 128) (pc fn : Word) (s : State), s.calls slot = true → fn = 0 ∨ (3 < fn.toNat ∧ fn.toNat < 16) ∨ 21 < fn.toNat →
    ∃ m ins, m ≤ 100 ∧ exec (.tenantTrap slot pc (.call fn)) s = .next (s.afterCall slot m ins fun k => { k with regs := k.regs.set 9 0x0106 }))

/-- R363, R364, R366 (REC_PUT, REC_GET, REC_DEL, STORE_USE, VAL_ADD, VAL_GET): the calls' checks in order, what a record read returns, and the values saved on failure. -/
def Obligations.StoreCalls : Prop :=
  (∀ (slot : Fin 128) (a0 a1 a2 : Word) (id : RecId) (s : State), s.calls slot = true → recArg slot a0 = some id → a2.toNat ≤ 2000 →
    s.badByte slot a1.toNat a2.toNat false = none → s.store.cellOk = true →
    ∃ t m ins, m ≤ 100 ∧ exec (.recPut slot a0 a1 a2) s = .next t ∧
      t.store = { s.store with queue := s.store.queue ++ [{ id, del := false, body := s.dmaRead slot a1.toNat a2.toNat, slot }] } ∧
      t.tenants.slots[slot] = { Slot.ranFor m ins s.tenants.slots[slot] with sinceCall := 0, inCall := true } ∧ s.otherSlots slot t ∧ s.onlyIn [.tenants, .store, .free] t) ∧
  (∀ (slot : Fin 128) (a0 a1 a2 : Word) (st : BitVec 16) (s : State), s.calls slot = true →
    (0x100000 ≤ a0.toNat ∧ st = 0x0108) ∨ (a0.toNat < 0x100000 ∧ 2048 < a2.toNat ∧ st = 0x0108) ∨
      (a0.toNat < 0x100000 ∧ a2.toNat ≤ 2000 ∧ s.badByte slot a1.toNat a2.toNat false = none ∧ s.store.cellOk = false ∧ st = 0x0501) →
    ∃ m ins, m ≤ 100 ∧ exec (.recPut slot a0 a1 a2) s = .next (s.afterCall slot m ins fun k => { k with regs := k.regs.set 9 (st.setWidth 32) })) ∧
  (∀ (slot : Fin 128) (a0 a1 a2 : Word) (b : Nat) (id : RecId) (s : State), s.calls slot = true → recArg slot a0 = some id → a2.toNat ≤ 2000 →
    s.badByte slot a1.toNat a2.toNat false = some b → (s.tenants.slots[slot]).splits ≠ 0xFFFFFFFF →
    ∃ m ins, m ≤ 100 ∧ exec (.recPut slot a0 a1 a2) s =
      .next (s.afterCall slot m ins fun k => { k with splits := k.splits + 1, regs := k.regs.set 9 0x0308 })) ∧
  (∀ (slot : Fin 128) (a0 a1 a2 : Word) (id : RecId) (c : Copy) (s : State), s.calls slot = true → recArg slot a0 = some id →
    s.badByte slot a1.toNat a2.toNat true = none → s.store.cellOk = true → s.recLocked id = false → s.store.pair? id = none → s.store.find id = .copy c →
    c.body.length ≤ a2.toNat →
    ∃ m ins, m ≤ 100 ∧ exec (.recGet slot a0 a1 a2) s = .next ((s.dmaWrite slot a1.toNat c.body).afterCall slot m ins fun k =>
      { k with regs := (k.regs.set 9 0).set 10 (BitVec.ofNat 32 c.body.length) })) ∧
  (∀ (slot : Fin 128) (a0 a1 a2 : Word) (id : RecId) (st : BitVec 16) (s : State), s.calls slot = true → recArg slot a0 = some id →
    s.badByte slot a1.toNat a2.toNat true = none → s.store.cellOk = true → s.store.pair? id = none →
    (s.recLocked id = true ∧ st = 0x0703) ∨ (s.recLocked id = false ∧ s.store.find id = .absent ∧ st = 0x0503) →
    ∃ m ins, m ≤ 100 ∧ exec (.recGet slot a0 a1 a2) s = .next (s.afterCall slot m ins fun k => { k with regs := k.regs.set 9 (st.setWidth 32) })) ∧
  (∀ (slot : Fin 128) (a0 a1 a2 : Word) (id : RecId) (c : Copy) (s : State), s.calls slot = true → recArg slot a0 = some id →
    s.badByte slot a1.toNat a2.toNat true = none → s.store.cellOk = true → s.recLocked id = false → s.store.pair? id = none → s.store.find id = .copy c →
    a2.toNat < c.body.length →
    ∃ m ins, m ≤ 100 ∧ exec (.recGet slot a0 a1 a2) s = .next (s.afterCall slot m ins fun k =>
      { k with regs := (k.regs.set 9 0x0506).set 10 (BitVec.ofNat 32 c.body.length) })) ∧
  (∀ (slot : Fin 128) (a0 a1 a2 : Word) (id : RecId) (s : State), s.calls slot = true → recArg slot a0 = some id →
    s.badByte slot a1.toNat a2.toNat true = none → s.store.cellOk = true → s.recLocked id = false → s.store.pair? id = none → s.store.find id = .lost →
    ∃ t m ins, m ≤ 100 ∧ exec (.recGet slot a0 a1 a2) s = .next t ∧ t.hrb = { s.hrb with nvErr := s.hrb.nvErr.incHi } ∧
      t.tenants.slots[slot] = { Slot.ranFor m ins s.tenants.slots[slot] with sinceCall := 0, regs := (s.tenants.slots[slot]).regs.set 9 0x0504 } ∧ s.otherSlots slot t ∧
      t.store.readsLost.toNat = min 0xFFFFFFFF (s.store.readsLost.toNat + 1) ∧ t.store.journal = s.store.journal ∧ t.store.dual = s.store.dual ∧
      s.onlyIn [.hrb, .tenants, .store, .free] t) ∧
  (∀ (slot : Fin 128) (a0 : Word) (id : RecId) (s : State), s.calls slot = true → recArg slot a0 = some id → s.store.cellOk = true →
    ∃ t m ins, m ≤ 100 ∧ exec (.recDel slot a0) s = .next t ∧ t.store = { s.store with queue := s.store.queue ++ [{ id, del := true, body := [], slot }] } ∧
      t.tenants.slots[slot] = { Slot.ranFor m ins s.tenants.slots[slot] with sinceCall := 0, inCall := true } ∧ s.otherSlots slot t ∧ s.onlyIn [.tenants, .store, .free] t) ∧
  (∀ (slot : Fin 128) (s : State), s.calls slot = true →
    ∃ m ins, m ≤ 100 ∧ exec (.storeUse slot) s = .next (s.afterCall slot m ins fun k => { k with
      regs := ((k.regs.set 9 0).set 10 (BitVec.ofNat 32 (s.store.used (BitVec.ofNat 8 slot.val) * 65536 + k.run.store))).set 11 (BitVec.ofNat 32 (s.store.ownerLive (BitVec.ofNat 8 slot.val))) })) ∧
  (∀ (slot : Fin 128) (k : Fin 24) (a1 : Word) (s : State), s.calls slot = true →
    ∃ t m ins, m ≤ 100 ∧ exec (.valAdd slot (BitVec.ofNat 32 k.val) a1) s = .next t ∧
      t.store = { s.store with vals := s.store.vals.set (valIndex slot k) (s.store.vals[valIndex slot k] + a1.setWidth 64) } ∧
      t.tenants.slots[slot] = { Slot.ranFor m ins s.tenants.slots[slot] with
        sinceCall := 0
        regs := (((s.tenants.slots[slot]).regs.set 9 0).set 10 ((s.store.vals[valIndex slot k] + a1.setWidth 64).setWidth 32)).set 11 (((s.store.vals[valIndex slot k] + a1.setWidth 64) >>> 32).setWidth 32) } ∧
      s.otherSlots slot t ∧ s.onlyIn [.tenants, .store, .free] t) ∧
  (∀ (slot : Fin 128) (k : Fin 24) (s : State), s.calls slot = true →
    ∃ m ins, m ≤ 100 ∧ exec (.valGet slot (BitVec.ofNat 32 k.val)) s = .next (s.afterCall slot m ins fun x => { x with
      regs := ((x.regs.set 9 0).set 10 ((s.store.vals[valIndex slot k]).setWidth 32)).set 11 ((s.store.vals[valIndex slot k] >>> 32).setWidth 32) })) ∧
  (∀ (slot : Fin 128) (a0 a1 : Word) (s : State), s.calls slot = true → 24 ≤ a0.toNat →
    ∃ m ins, m ≤ 100 ∧ exec (.valAdd slot a0 a1) s = .next (s.afterCall slot m ins fun k => { k with regs := k.regs.set 9 0x0108 }) ∧
    exec (.valGet slot a0) s = .next (s.afterCall slot m ins fun k => { k with regs := k.regs.set 9 0x0108 }))

/-- R345, R347, R355 to R359, R364 (STORE_COMMIT_DONE): a version that commits is what the identity reads from then on, a deleted identity reads as absent, and one
whose read-back fails leaves what the identity read before; other identities read as before. -/
def Obligations.RecordsCommit : Prop :=
  (∀ (w : PendingWrite) (rest : List PendingWrite) (p : DPair) (c : Copy) (s : State), s.live = true → s.store.queue = w :: rest → w.del = false →
    s.store.pair? w.id = some p → p.top = some c → c.seq ≠ 0xFFFFFFFFFFFF → w.id.owner ≠ 0xFE → recSize (w.body.length + 16) ≤ zSize p.size →
    ∃ t x, exec (.storeCommitDone true) s = .next t ∧ t.store.find w.id = .copy x ∧ x.body = w.body ∧ x.seq = c.seq + 1 ∧ x.del = false ∧
      t.store.queue = rest ∧ (t.tenants.slots[w.slot]).inCall = false ∧ (t.tenants.slots[w.slot]).regs[9] = 0 ∧
      (t.tenants.slots[w.slot]).regs[10] = (c.seq + 1).setWidth 32 ∧ (∀ id, id ≠ w.id → t.store.find id = s.store.find id) ∧
      s.otherSlots w.slot t ∧ s.onlyIn [.tenants, .store] t) ∧
  (∀ (w : PendingWrite) (rest : List PendingWrite) (g : Nat) (s : State), s.live = true → s.store.queue = w :: rest → w.del = false →
    s.store.pair? w.id = none → s.dualClass w.id.cls = false → w.id.owner ≠ 0xFE → s.store.room w.id.owner (recSize (w.body.length + 16)) none = some g →
    (∀ e ∈ s.store.journal, e.id = w.id → e.copy.seq < s.store.nextSeq w.id.owner) →
    ∃ t x, exec (.storeCommitDone true) s = .next t ∧ t.store.find w.id = .copy x ∧ x.body = w.body ∧ x.seq = s.store.nextSeq w.id.owner ∧ x.del = false ∧
      t.store.nextSeq w.id.owner = s.store.nextSeq w.id.owner + 1 ∧ t.store.queue = rest ∧
      (t.tenants.slots[w.slot]).inCall = false ∧ (t.tenants.slots[w.slot]).regs[9] = 0 ∧
      (t.tenants.slots[w.slot]).regs[10] = (s.store.nextSeq w.id.owner).setWidth 32 ∧ (∀ id, id ≠ w.id → t.store.find id = s.store.find id) ∧
      s.otherSlots w.slot t ∧ s.onlyIn [.tenants, .store] t) ∧
  (∀ (w : PendingWrite) (rest : List PendingWrite) (p : DPair) (c : Copy) (s : State), s.live = true → s.store.queue = w :: rest → w.del = true →
    s.store.pair? w.id = some p → p.top = some c → c.del = false → c.seq ≠ 0xFFFFFFFFFFFF → 32 ≤ zSize p.size →
    ∃ t, exec (.storeCommitDone true) s = .next t ∧ t.store.find w.id = .absent ∧ t.store.queue = rest ∧
      (t.tenants.slots[w.slot]).inCall = false ∧ (t.tenants.slots[w.slot]).regs[9] = 0 ∧ (∀ id, id ≠ w.id → t.store.find id = s.store.find id) ∧
      s.otherSlots w.slot t ∧ s.onlyIn [.tenants, .store] t) ∧
  (∀ (w : PendingWrite) (rest : List PendingWrite) (s : State), s.live = true → s.store.queue = w :: rest → w.del = true → s.store.find w.id = .absent →
    ∃ t, exec (.storeCommitDone true) s = .next t ∧ t.store = { s.store with writeOk := true, queue := rest } ∧
      (t.tenants.slots[w.slot]).inCall = false ∧ (t.tenants.slots[w.slot]).regs[9] = 0x0503 ∧ s.otherSlots w.slot t ∧ s.onlyIn [.tenants, .store] t) ∧
  (∀ (w : PendingWrite) (rest : List PendingWrite) (p : DPair) (c : Copy) (s : State), s.live = true → s.store.queue = w :: rest → w.del = false →
    s.store.pair? w.id = some p → p.top = some c → c.del = false → w.id.owner ≠ 0xFE → recSize (w.body.length + 16) ≤ zSize p.size →
    ∃ t, exec (.storeCommitDone false) s = .next t ∧ t.store.find w.id = .copy c ∧ t.store.queue = rest ∧
      (t.tenants.slots[w.slot]).inCall = false ∧ (t.tenants.slots[w.slot]).regs[9] = 0x0501 ∧ (∀ id, id ≠ w.id → t.store.find id = s.store.find id) ∧
      s.otherSlots w.slot t ∧ s.onlyIn [.tenants, .store] t) ∧
  (∀ (ok : Bool) (s : State), s.live = true → s.store.queue = [] → exec (.storeCommitDone ok) s = .next { s with store := { s.store with writeOk := ok } })

/-- R286 to R288, Table 11-8 (CTR_CREATE, CTR_INCR, CTR_READ, with KCT_OP_DONE): a counter starts at its value, counts up to MAX and no further, commits its
reservation before it passes it, and reads as it stands. -/
def Obligations.CountersCount : Prop :=
  (∀ (i : Fin 128) (k : KIdx) (s : State), s.mayKct i → s.kctFree i k →
    fld (s.kct.pages[i]).buf 0 6 ≤ fld (s.kct.pages[i]).buf 8 6 →
    ∃ t u, exec (.ctrCreate i) s = .next t ∧ (t.kct.pages[i]).busy = true ∧ exec (.kctOpDone i) t = .next u ∧
      (u.kct.entries[k]).cls = 6 ∧ (u.kct.entries[k]).owner = slotOwner i ∧ (u.kct.entries[k]).gen = (s.kct.entries[k]).gen ∧
      (u.kct.entries[k]).live = BitVec.ofNat 48 (fld (s.kct.pages[i]).buf 0 6) ∧ (u.kct.entries[k]).ctrRsv = fld (s.kct.pages[i]).buf 0 6 ∧
      (u.kct.entries[k]).ctrMax = fld (s.kct.pages[i]).buf 8 6 ∧ (u.kct.entries[k]).limit = 0 ∧ (∀ j : KIdx, j ≠ k → u.kct.entries[j] = s.kct.entries[j]) ∧
      u.kct.fresh = s.kct.fresh + 1 ∧ s.kctDone i 0 [makeHandle k (s.kct.entries[k]).gen] (s.kct.pages[i]).buf u ∧ s.onlyIn [.kct, .tenants] u) ∧
  (∀ (i : Fin 128) (h : Word) (k : KIdx) (e : Entry) (n : BitVec 16) (s : State), s.mayKct i → (s.kct.pages[i]).handle = h → (s.kct.pages[i]).arg = n.setWidth 32 →
    n ≠ 0 → s.holdsKey i h k e → e.cls = 6 → e.limit = 0 → e.live.toNat + n.toNat ≤ e.ctrMax → e.live.toNat + n.toNat < e.ctrRsv →
    ∃ t u, exec (.ctrIncr i) s = .next t ∧ (t.kct.pages[i]).busy = true ∧ exec (.kctOpDone i) t = .next u ∧
      u.kct.entries[k] = { e with live := e.live + n.setWidth 48 } ∧ (∀ j : KIdx, j ≠ k → u.kct.entries[j] = s.kct.entries[j]) ∧
      s.kctDone i 0 (ctrOut (e.live.toNat + n.toNat)) (s.kct.pages[i]).buf u ∧ s.onlyIn [.kct, .tenants] u) ∧
  (∀ (i : Fin 128) (h : Word) (k : KIdx) (e : Entry) (n : BitVec 16) (s : State), s.mayKct i → (s.kct.pages[i]).handle = h → (s.kct.pages[i]).arg = n.setWidth 32 →
    n ≠ 0 → s.holdsKey i h k e → e.cls = 6 → e.limit = 0 → e.live.toNat + n.toNat ≤ e.ctrMax → e.ctrRsv ≤ e.live.toNat + n.toNat → s.commits = true →
    e.secret.length = 32 →
    ∃ t u, exec (.ctrIncr i) s = .next t ∧ exec (.kctOpDone i) t = .next u ∧ (u.kct.entries[k]).live = e.live + n.setWidth 48 ∧
      (u.kct.entries[k]).ctrRsv = min (e.live.toNat + n.toNat + s.reserveStep i) e.ctrMax ∧ (u.kct.entries[k]).ctrMax = e.ctrMax ∧
      (u.kct.entries[k]).wcnt = e.wcnt + 1 ∧ (∀ j : KIdx, j ≠ k → u.kct.entries[j] = s.kct.entries[j]) ∧
      s.kctDone i 0 (ctrOut (e.live.toNat + n.toNat)) (s.kct.pages[i]).buf u ∧ s.onlyIn [.kct, .tenants] u) ∧
  (∀ (i : Fin 128) (h : Word) (k : KIdx) (e : Entry) (n : BitVec 16) (s : State), s.mayKct i → (s.kct.pages[i]).handle = h → (s.kct.pages[i]).arg = n.setWidth 32 →
    n ≠ 0 → s.holdsKey i h k e → e.cls = 6 → e.limit = 0 → e.ctrMax < e.live.toNat + n.toNat →
    ∃ t u, exec (.ctrIncr i) s = .next t ∧ exec (.kctOpDone i) t = .next u ∧ u.kct.entries = s.kct.entries ∧
      s.kctDone i 0x0404 [] (s.kct.pages[i]).buf u ∧ s.onlyIn [.kct, .tenants] u) ∧
  (∀ (i : Fin 128) (h : Word) (k : KIdx) (e : Entry) (s : State), s.mayKct i → (s.kct.pages[i]).handle = h → s.holdsKey i h k e → e.cls = 6 → e.limit = 0 →
    ∃ t u, exec (.ctrRead i) s = .next t ∧ (t.kct.pages[i]).busy = true ∧ exec (.kctOpDone i) t = .next u ∧ u.kct.entries = s.kct.entries ∧
      s.kctDone i 0 (ctrOut e.live.toNat) (s.kct.pages[i]).buf u ∧ s.onlyIn [.kct, .tenants] u)

/-- R287, R289 to R291, R271, R273 (GENERATE, UNWRAP, WRAP, DERIVE, DUKPT_LOAD, DUKPT_NEXT, with KCT_OP_DONE): each operation makes the key that it names, under the
attributes of its template and a handle of the first free entry, or hands out the wrapped form. The function of DERIVE and the usages of DUKPT are free
values (log 11, 12). -/
def Obligations.KeysAreMade : Prop :=
  (∀ (i : Fin 128) (k : KIdx) (tm : Template) (n : Nat) (s : State), s.mayKct i → s.kctFree i k → keyTemplate (s.kct.pages[i]).buf = some (tm, n) → tm.vol = false →
    (s.mint.insts[(Fin.castLE (by decide) i : Fin 160)]).inst = true → (s.mint.insts[(Fin.castLE (by decide) i : Fin 160)]).reseedReq = false →
    s.reseedDue s.mint.insts[(Fin.castLE (by decide) i : Fin 160)] = false → s.mint.waitq = [] →
    ∃ t u x, exec (.generate i) s = .next t ∧ (t.kct.pages[i]).busy = true ∧ exec (.kctOpDone i) t = .next u ∧
      x = keyFrom tm n (s.drawOut { client := .kct i, inst := Fin.castLE (by decide) i, len := 32 }) ∧
      u.kct.entries[k] = Entry.make s.kct.entries[k] (slotOwner i) tm x (kcvOf tm.cls tm.alg x) ∧
      (∀ j : KIdx, j ≠ k → u.kct.entries[j] = s.kct.entries[j]) ∧ u.kct.fresh = s.kct.fresh + 1 ∧
      s.kctDone i 0 [makeHandle k (s.kct.entries[k]).gen, (kcvOf tm.cls tm.alg x).setWidth 32]
        (if tm.cls = 4 then overlay (s.kct.pages[i]).buf 0 (publicKey 4 tm.alg x) else (s.kct.pages[i]).buf) u ∧
      s.onlyIn [.kct, .tenants, .mint] u) ∧
  (∀ (i : Fin 128) (tm : Template) (n : Nat) (s : State), s.mayKct i → keyTemplate (s.kct.pages[i]).buf = some (tm, n) → tm.vol = false →
    s.kctUsed i < (s.tenants.slots[i]).run.kct → s.kct.fresh < 32256 → (s.mint.insts[(Fin.castLE (by decide) i : Fin 160)]).inst = false → s.mint.state = .failed →
    ∃ t, exec (.generate i) s = .next t ∧ s.kctDone i 0x0602 [] (s.kct.pages[i]).buf t ∧ t.kct.entries = s.kct.entries ∧ s.onlyIn [.kct, .tenants] t) ∧
  (∀ (i : Fin 128) (h : Word) (kek k : KIdx) (e : Entry) (p : Bytes) (tm : Template) (n : Nat) (s : State), s.mayKct i → s.kctFree i k → (s.kct.pages[i]).handle = h →
    s.holdsKey i h kek e → e.cls = 1 → e.may 5 = true → e.limit = 0 → kek ≠ k → wrapLenOk ((s.kct.pages[i]).arg.toNat % 256) = true →
    kwpOpen e.key ((s.kct.pages[i]).buf.take ((s.kct.pages[i]).arg.toNat % 256)) = some p → keyTemplate p = some (tm, n) → tm.vol = false → p.length = 16 + n →
    ∃ t u, exec (.unwrap i) s = .next t ∧ (t.kct.pages[i]).busy = true ∧ exec (.kctOpDone i) t = .next u ∧
      u.kct.entries[k] = Entry.make s.kct.entries[k] (slotOwner i) tm (p.drop 16) (kcvOf tm.cls tm.alg (p.drop 16)) ∧
      (∀ j : KIdx, j ≠ k → u.kct.entries[j] = s.kct.entries[j]) ∧
      s.kctDone i 0 [makeHandle k (s.kct.entries[k]).gen, (kcvOf tm.cls tm.alg (p.drop 16)).setWidth 32] (s.kct.pages[i]).buf u ∧ s.onlyIn [.kct, .tenants] u) ∧
  (∀ (i : Fin 128) (h : Word) (kek k : KIdx) (e : Entry) (s : State), s.mayKct i → s.kctFree i k → (s.kct.pages[i]).handle = h → s.holdsKey i h kek e → e.cls = 1 →
    e.may 5 = true → e.limit = 0 → wrapLenOk ((s.kct.pages[i]).arg.toNat % 256) = true →
    kwpOpen e.key ((s.kct.pages[i]).buf.take ((s.kct.pages[i]).arg.toNat % 256)) = none →
    ∃ t u, exec (.unwrap i) s = .next t ∧ exec (.kctOpDone i) t = .next u ∧ u.kct.entries = s.kct.entries ∧
      s.kctDone i 0x0407 [] (s.kct.pages[i]).buf u ∧ s.onlyIn [.kct, .tenants] u) ∧
  (∀ (i : Fin 128) (h g : Word) (k w : KIdx) (e f : Entry) (n : Nat) (s : State), s.mayKct i → (s.kct.pages[i]).handle = h → (s.kct.pages[i]).arg = g →
    s.holdsKey i h k e → s.holdsKey i g w f → e.may 9 = true → keyLen e.cls.toNat e.alg.toNat = some n → f.cls = 1 → f.may 4 = true → e.limit = 0 → f.limit = 0 →
    ∃ t u, exec (.wrap i) s = .next t ∧ (t.kct.pages[i]).busy = true ∧ exec (.kctOpDone i) t = .next u ∧ u.kct.entries = s.kct.entries ∧
      s.kctDone i 0 [BitVec.ofNat 32 (8 * ((16 + n + 7) / 8) + 8)] (overlay (s.kct.pages[i]).buf 0
        (kwpWrap f.key (e.template ++ e.key))) u ∧ s.onlyIn [.kct, .tenants] u) ∧
  (∀ (i : Fin 128) (h : Word) (q k : KIdx) (e : Entry) (tm : Template) (n : Nat) (s : State), s.mayKct i → s.kctFree i k → (s.kct.pages[i]).handle = h →
    s.holdsKey i h q e → e.cls = 1 ∨ e.cls = 3 → e.may 6 = true → e.limit = 0 → q ≠ k → 1 ≤ (s.kct.pages[i]).arg.toNat % 128 → (s.kct.pages[i]).arg.toNat % 128 ≤ 64 →
    keyTemplate (s.kct.pages[i]).buf = some (tm, n) → tm.vol = false →
    ∃ t u x, exec (.derive i) s = .next t ∧ (t.kct.pages[i]).busy = true ∧ exec (.kctOpDone i) t = .next u ∧
      x = keyFrom tm n ((List.range 32).map (Config.deriveByte e.cls.toNat e.key (slice (s.kct.pages[i]).buf 16 ((s.kct.pages[i]).arg.toNat % 128)))) ∧
      u.kct.entries[k] = Entry.make s.kct.entries[k] (slotOwner i) tm x (kcvOf tm.cls tm.alg x) ∧ (∀ j : KIdx, j ≠ k → u.kct.entries[j] = s.kct.entries[j]) ∧
      s.kctDone i 0 [makeHandle k (s.kct.entries[k]).gen, (kcvOf tm.cls tm.alg x).setWidth 32] (s.kct.pages[i]).buf u ∧ s.onlyIn [.kct, .tenants] u) ∧
  (∀ (i : Fin 128) (h : Word) (kek k : KIdx) (e : Entry) (key : Bytes) (alg : Nat) (s : State), s.mayKct i → s.kctFree i k →
    s.kctUsed i + 33 ≤ (s.tenants.slots[i]).run.kct → s.kct.run33 = some k.val → k.val + 33 ≤ 32256 → (s.kct.pages[i]).handle = h → s.holdsKey i h kek e → e.cls = 1 →
    e.may 5 = true → e.limit = 0 → kek.val < k.val → alg = 1 ∨ alg = 2 ∨ alg = 3 → (s.kct.pages[i]).arg.toNat % 256 = 16 + 8 * alg → key.length = 8 + 8 * alg →
    kwpOpen e.key ((s.kct.pages[i]).buf.take (16 + 8 * alg)) = some key →
    ∃ t u, exec (.dukptLoad i) s = .next t ∧ (t.kct.pages[i]).busy = true ∧ exec (.kctOpDone i) t = .next u ∧
      u.kct.entries[k] = Entry.make s.kct.entries[k] (slotOwner i) { cls := 7, alg, usage := 0x0040 }
        (slice (s.kct.pages[i]).buf 64 8 ++ leN 4 dukptFirst) (kcvOf 1 alg key) ∧
      (∀ r : Fin 32, ∀ j : KIdx, j.val = k.val + 1 + r.val → u.kct.entries[j] = Entry.make s.kct.entries[j] (slotOwner i) { cls := 8, alg }
        (dukptLoaded key (slice (s.kct.pages[i]).buf 64 8) r.val) 0) ∧
      (∀ j : KIdx, j.val < k.val ∨ k.val + 33 ≤ j.val → u.kct.entries[j] = s.kct.entries[j]) ∧ u.kct.fresh = k.val + 33 ∧
      s.kctDone i 0 [makeHandle k (s.kct.entries[k]).gen, (kcvOf 1 alg key).setWidth 32] (s.kct.pages[i]).buf u ∧ s.onlyIn [.kct, .tenants] u) ∧
  (∀ (i : Fin 128) (h : Word) (d k : KIdx) (e : Entry) (cls alg ctr next : Nat) (regs : List Bytes) (s : State), s.mayKct i → s.kctFree i k → s.kctVol i + 1 < s.lines i →
    (s.kct.pages[i]).handle = h → s.holdsKey i h d e → e.cls = 7 → e.limit = 0 → d.val + 33 ≤ k.val → dukptType ((s.kct.pages[i]).arg.toNat / 16 % 16) = some (cls, alg) →
    regs = ((dukptRun d).drop 1).map (fun j => (s.entry j).key) → dukptUsable regs 33 (fld e.secret 8 4) = some ctr → dukptNext ctr = some next →
    ∃ t u, exec (.dukptNext i) s = .next t ∧ (t.kct.pages[i]).busy = true ∧ exec (.kctOpDone i) t = .next u ∧
      (Config.dukptUsage ((s.kct.pages[i]).arg.toNat % 16) = none → s.kctDone i 0x0108 [] (s.kct.pages[i]).buf u ∧ u.kct.entries = s.kct.entries) ∧
      (∀ (usage : Nat) (bits : BitVec 16), Config.dukptUsage ((s.kct.pages[i]).arg.toNat % 16) = some (usage, bits) →
        (∀ r : Fin 32, ∀ j : KIdx, j.val = d.val + 1 + r.val → (u.kct.entries[j]).secret = padTo 32 (dukptAfter (e.secret.take 8) regs ctr r.val)) ∧
        u.kct.entries[d] = { e with secret := padTo 32 (e.secret.take 8 ++ leN 4 next), wcnt := e.wcnt + 1 } ∧
        (u.kct.entries[k]).limit = 1 ∧ (u.kct.entries[k]).vol = true ∧ (u.kct.entries[k]).usage = bits ∧ (u.kct.entries[k]).cls = BitVec.ofNat 4 cls ∧
        (u.kct.entries[k]).alg = BitVec.ofNat 4 alg ∧
        (u.kct.entries[k]).secret = padTo 32 (dukptWorking (e.secret.take 8) regs ctr usage ((s.kct.pages[i]).arg.toNat / 16 % 16)) ∧
        (u.kct.entries[k]).kcv = kcvOf cls alg (dukptWorking (e.secret.take 8) regs ctr usage ((s.kct.pages[i]).arg.toNat / 16 % 16)) ∧
        (∀ j : KIdx, j ≠ k → j.val < d.val ∨ d.val + 33 ≤ j.val → u.kct.entries[j] = s.kct.entries[j]) ∧
        s.kctDone i 0 [makeHandle k (s.kct.entries[k]).gen] (overlay (s.kct.pages[i]).buf 0 (e.secret.take 8 ++ beN 4 ctr)) u) ∧
      s.onlyIn [.kct, .tenants] u)

/-- R268, R269, R277, R281, R282, R284, R286, Table 11-5, Table 11-8 (INFO, RESTRICT, DELETE and the checks of every operation of the access page): attributes are read,
narrowed, and freed with a new GEN; an operation that fails a check ends at once with its status. -/
def Obligations.KeysAreHeld : Prop :=
  (∀ (i : Fin 128) (h : Word) (k : KIdx) (e : Entry) (s : State), s.mayKct i → (s.kct.pages[i]).handle = h → s.holdsKey i h k e → e.limit = 0 →
    ∃ t u, exec (.info i) s = .next t ∧ (t.kct.pages[i]).busy = true ∧ exec (.kctOpDone i) t = .next u ∧ u.kct.entries = s.kct.entries ∧
      s.kctDone i 0 [] (overlay (s.kct.pages[i]).buf 0 (e.attr ++ leN 6 (if e.cls = 6 then e.live.toNat else 0))) u ∧ s.onlyIn [.kct, .tenants] u) ∧
  (∀ (i : Fin 128) (h : Word) (k : KIdx) (e : Entry) (s : State), s.mayKct i → (s.kct.pages[i]).handle = h → s.holdsKey i h k e → e.limit ≠ 0 → e.vol = false →
    e.rsv.toNat ≤ e.live.toNat + 1 → s.commits = true →
    ∃ t u, exec (.info i) s = .next t ∧ exec (.kctOpDone i) t = .next u ∧ u.kct.entries[k] = { e with
        live := e.live + 1, rsv := BitVec.ofNat 24 (min (e.live.toNat + 1 + s.reserveStep i) e.limit.toNat), wcnt := e.wcnt + 1 } ∧
      (∀ j : KIdx, j ≠ k → u.kct.entries[j] = s.kct.entries[j]) ∧ s.onlyIn [.kct, .tenants] u) ∧
  (∀ (i : Fin 128) (h : Word) (k : KIdx) (e : Entry) (s : State), s.mayKct i → (s.kct.pages[i]).handle = h → s.handleOk (slotOwner i) h = true → handleIndex h = k →
    s.kct.entries[k] = e → k.val ∈ s.kct.lru[i] → e.lost = false → s.expired e = false → e.limit ≠ 0 → e.limit.toNat ≤ e.live.toNat →
    ∃ t, exec (.info i) s = .next t ∧ t.kct.entries = s.kct.entries ∧ s.kctDone i 0x0404 [] (s.kct.pages[i]).buf t ∧ s.onlyIn [.kct, .tenants] t) ∧
  (∀ (i : Fin 128) (h : Word) (k : KIdx) (e : Entry) (tm : Template) (s : State), s.mayKct i → (s.kct.pages[i]).handle = h → s.holdsKey i h k e → e.limit = 0 →
    e.vol = false → s.commits = true → readTemplate (s.kct.pages[i]).buf = some tm → tm.cls = e.cls.toNat → tm.alg = e.alg.toNat → tm.vol = false → tm.limit = 0 →
    ∃ t u, exec (.restrict i) s = .next t ∧ (t.kct.pages[i]).busy = true ∧ exec (.kctOpDone i) t = .next u ∧ u.kct.entries[k] = { e with
        usage := e.usage &&& tm.usage, mincm := if e.mincm < tm.mincm then tm.mincm else e.mincm
        expiry := if tm.expiry ≠ 0 ∧ (e.expiry = 0 ∨ tm.expiry < e.expiry) then tm.expiry else e.expiry, wcnt := e.wcnt + 1 } ∧
      (∀ j : KIdx, j ≠ k → u.kct.entries[j] = s.kct.entries[j]) ∧ (s.withSram i u).kctDone i 0 [] (s.kct.pages[i]).buf u ∧
      (∀ p : Fin 32, ((s.cipher.pages[i])[p]).holds h = true → ((u.cipher.pages[i])[p]).loaded = none) ∧
      (s.engineJobs i = 0 → u.sprig = s.sprig ∧ (u.tenants.slots[i]).sram = (s.tenants.slots[i]).sram) ∧
      s.onlyIn [.kct, .tenants, .cipher, .pke, .mint, .sprig, .free] u) ∧
  (∀ (i : Fin 128) (h : Word) (k : KIdx) (e : Entry) (s : State), s.mayKct i → (s.kct.pages[i]).handle = h → s.holdsKey i h k e → e.limit = 0 → e.cls ≠ 5 → e.cls ≠ 7 →
    s.commits = true →
    ∃ t u, exec (.delete i) s = .next t ∧ (t.kct.pages[i]).busy = true ∧ exec (.kctOpDone i) t = .next u ∧
      u.kct.entries[k] = { gen := nextGen e.gen, wcnt := e.wcnt + 1 } ∧ (∀ j : KIdx, j ≠ k → u.kct.entries[j] = s.kct.entries[j]) ∧
      u.kct.freed = s.kct.freed ++ [k.val] ∧ u.handleOk (slotOwner i) h = false ∧ (s.withSram i u).kctDone i 0 [] (s.kct.pages[i]).buf u ∧
      (∀ p : Fin 32, ((s.cipher.pages[i])[p]).holds h = true → ((u.cipher.pages[i])[p]).loaded = none) ∧
      (s.engineJobs i = 0 → u.sprig = s.sprig ∧ (u.tenants.slots[i]).sram = (s.tenants.slots[i]).sram) ∧
      s.onlyIn [.kct, .tenants, .cipher, .pke, .mint, .sprig, .free] u) ∧
  (∀ (i : Fin 128) (c : Instr) (s : State),
    c ∈ [.generate i, .unwrap i, .wrap i, .derive i, .delete i, .restrict i, .info i, .ctrCreate i, .ctrIncr i, .ctrRead i, .dukptLoad i, .dukptNext i] →
    s.calls i = true → (s.kct.pages[i]).busy = false → s.guard.tampered = true ∨ s.guard.bbk ≠ .valid →
    ∃ t, exec c s = .next t ∧ t.kct.entries = s.kct.entries ∧ s.kctDone i 0x0703 [] (s.kct.pages[i]).buf t ∧ s.onlyIn [.kct, .tenants] t) ∧
  (∀ (i : Fin 128) (c : Instr) (s : State),
    c ∈ [.generate i, .unwrap i, .wrap i, .derive i, .delete i, .restrict i, .info i, .ctrCreate i, .ctrIncr i, .ctrRead i, .dukptLoad i, .dukptNext i] →
    s.calls i = true → (s.kct.pages[i]).busy = true →
    exec c s = .next { s with kct := { s.kct with pages := modify s.kct.pages i fun p => { p with ignored := sat8 p.ignored } } }) ∧
  (∀ (i : Fin 128) (c : Instr) (s : State), c ∈ [.delete i, .restrict i, .info i, .ctrRead i, .dukptNext i] →
    s.mayKct i → s.handleOk (slotOwner i) (s.kct.pages[i]).handle = false →
    ∃ t, exec c s = .next t ∧ t.kct.entries = s.kct.entries ∧ s.kctDone i 0x0402 [] (s.kct.pages[i]).buf t ∧ s.onlyIn [.kct, .tenants] t) ∧
  (∀ (i : Fin 128) (o : KctOp) (s : State), s.live = true → (s.kct.pages[i]).cur = some o → o.waiting = true → exec (.kctOpDone i) s = .next s)

/-- R293 to R299, R301 to R306, R308, Table 12-16 (LOAD_KEY, CIPHER_RUN, CIPHER_CLEAR, CIPHER_ABORT, CIPHER_SEGMENT_END, CIPHER_RUN_DONE): a key is loaded, a submission that
passes its checks runs in segments on a core and writes the mode's output to its destination, a bad tag releases nothing. How far an aborted segment got is a free value. -/
def Obligations.CipherPagesRun : Prop :=
  (∀ (i : Fin 128) (p : Fin 32) (h : Word) (k : KIdx) (e : Entry) (s : State), s.mayCipher i p → ((s.cipher.pages[i])[p]).key = h →
    handleIndex h = k → s.kct.entries[k] = e → s.handleOk (slotOwner i) h = true → k.val ∈ s.kct.lru[i] → e.lost = false → loadable e = true →
    s.guard.tampered = false → s.guard.bbk = .valid → ((s.cipher.pages[i])[p]).inUse = true ∨ s.pagesUsed i < (s.tenants.slots[i]).run.cipher →
    ∃ t, exec (.loadKey i p) s = .next t ∧ (t.cipher.pages[i])[p] = { (s.cipher.pages[i])[p] with
        op := 1, loaded := some (h, e), msg := none, job := none, status := 0, evt := ((s.cipher.pages[i])[p]).evt.hit } ∧
      t.kct.entries = s.kct.entries ∧ s.otherPages i p t ∧ s.woken i t ∧ s.onlyIn [.cipher, .kct, .tenants] t) ∧
  (∀ (i : Fin 128) (p : Fin 32) (st : BitVec 16) (s : State), s.mayCipher i p → st = 0x0402 → s.handleOk (slotOwner i) ((s.cipher.pages[i])[p]).key = false →
    ∃ t, exec (.loadKey i p) s = .next t ∧ (t.cipher.pages[i])[p] = { (s.cipher.pages[i])[p] with
        op := 1, job := none, status := st, evt := ((s.cipher.pages[i])[p]).evt.hit } ∧
      t.kct.entries = s.kct.entries ∧ s.otherPages i p t ∧ s.woken i t ∧ s.onlyIn [.cipher, .kct, .tenants] t) ∧
  (∀ (i : Fin 128) (p : Fin 32) (x : CipherPage) (h : Word) (k : KIdx) (e : Entry) (m : Nat) (s : State), s.mayCipher i p → (s.cipher.pages[i])[p] = x →
    x.loaded = some (h, e) → s.holdsKey i h k e → e.limit = 0 → (modeOf x.mode = 0 ∨ modeOf x.mode = 1 ∨ modeOf x.mode = 2) → modeOf x.mode = m →
    modeFirst x.mode = true → modeLast x.mode = true → e.may (modeUsage x.mode) = true → modeKey m e = true → modeFits x.mode (e.cls == 1) = true →
    x.lengthsFit m e.block = true → 0 < x.len.toNat → x.len.toNat ≤ 256 → s.useCheck e (s.cmLevel x) = none →
    s.badByte i x.src.toNat x.len.toNat false = none → s.badByte i x.dst.toNat x.len.toNat true = none →
    (∀ (j : Fin 128) (q : Fin 32), ((s.cipher.pages[j])[q]).busy = false) → s.cipher.aes = Vector.replicate 8 none → s.cipher.tdea = Vector.replicate 2 none →
    ∃ t u v, exec (.cipherRun i p) s = .next t ∧ ((t.cipher.pages[i])[p]).busy = true ∧ ((t.cipher.pages[i])[p]).prog = 0 ∧ t.cipher.core x.kind 0 = some ⟨i, p⟩ ∧
      s.otherPages i p t ∧ t.tenants = s.tenants ∧ t.kct.entries = s.kct.entries ∧ s.onlyIn [.cipher, .kct] t ∧
      exec (.cipherSegmentEnd x.kind 0) t = .next u ∧ u.cipher.core x.kind 0 = none ∧
      u.tenants = (s.dmaWrite i x.dst.toNat (slice (modeOut x.mode e x.iv [] (s.dmaRead i x.src.toNat x.len.toNat)) 0 x.len.toNat)).tenants ∧
      u.sprig = (s.dmaWrite i x.dst.toNat (slice (modeOut x.mode e x.iv [] (s.dmaRead i x.src.toNat x.len.toNat)) 0 x.len.toNat)).sprig ∧
      s.onlyIn [.cipher, .kct, .tenants, .sprig] u ∧
      exec (.cipherRunDone i p) u = .next v ∧ (v.cipher.pages[i])[p] = { x with
        op := 2, frange := 0, level := BitVec.ofNat 2 (s.cmLevel x), status := 0, evt := x.evt.hit, prog := x.len.setWidth 32, msg := none, job := none } ∧
      v.sprig = u.sprig ∧ u.woken i v ∧ s.otherPages i p v) ∧
  (∀ (i : Fin 128) (p : Fin 32) (s : State), s.mayCipher i p → ((s.cipher.pages[i])[p]).loaded = none →
    ∃ t, exec (.cipherRun i p) s = .next t ∧ (t.cipher.pages[i])[p] = { (s.cipher.pages[i])[p] with
        op := 2, job := none, frange := 0, status := 0x0402, evt := ((s.cipher.pages[i])[p]).evt.hit } ∧ s.otherPages i p t ∧ s.woken i t ∧ s.onlyIn [.cipher, .kct, .tenants] t) ∧
  (∀ (i : Fin 128) (p : Fin 32) (c : Instr) (s : State), c ∈ [.loadKey i p, .cipherRun i p, .cipherClear i p] → s.calls i = true →
    p.val < (s.tenants.slots[i]).run.cipher → ((s.cipher.pages[i])[p]).busy = true →
    exec c s = .next (s.updCp i p fun x => { x with ignored := sat8 x.ignored })) ∧
  (∀ (i : Fin 128) (p : Fin 32) (s : State), s.mayCipher i p →
    ∃ t, exec (.cipherClear i p) s = .next t ∧ (t.cipher.pages[i])[p] = { (s.cipher.pages[i])[p] with
        op := 3, loaded := none, msg := none, iv := zeros 16, tag := zeros 16, prog := 0, job := none, status := 0, evt := ((s.cipher.pages[i])[p]).evt.hit } ∧
      (∀ (j : Fin 128) (q : Fin 32), j ≠ i → (t.cipher.pages[j])[q] = (s.cipher.pages[j])[q]) ∧ s.woken i t ∧ s.onlyIn [.cipher, .tenants] t) ∧
  (∀ (i : Fin 128) (p : Fin 32) (j : CipherJob) (s : State), s.calls i = true → p.val < (s.tenants.slots[i]).run.cipher → ((s.cipher.pages[i])[p]).busy = true →
    ((s.cipher.pages[i])[p]).job = some j → 0x10000000 ≤ j.dst.toNat → j.dst.toNat + j.len < 0x20000000 →
    ∃ t, exec (.cipherAbort i p) s = .next t ∧ ((t.cipher.pages[i])[p]).op = 0x0F ∧ ((t.cipher.pages[i])[p]).busy = false ∧ ((t.cipher.pages[i])[p]).status = 0x0409 ∧
      ((t.cipher.pages[i])[p]).msg = none ∧ ((t.cipher.pages[i])[p]).job = none ∧ ((t.cipher.pages[i])[p]).loaded = ((s.cipher.pages[i])[p]).loaded ∧
      s.otherPages i p t ∧ s.otherSlots i t ∧ (t.tenants.slots[i]).jobDone = true ∧
      (∀ a, a < j.dst.toNat - 0x10000000 ∨ j.dst.toNat - 0x10000000 + j.len ≤ a →
        Memory.read (t.tenants.slots[i]).sram a = Memory.read (s.tenants.slots[i]).sram a) ∧
      (∀ k n, t.cipher.core k n ≠ some ⟨i, p⟩) ∧ s.onlyIn [.cipher, .tenants, .free] t) ∧
  (∀ (i : Fin 128) (p : Fin 32) (s : State), s.calls i = true → p.val < (s.tenants.slots[i]).run.cipher → ((s.cipher.pages[i])[p]).busy = false →
    ∃ t, exec (.cipherAbort i p) s = .next t ∧ (t.cipher.pages[i])[p] = { (s.cipher.pages[i])[p] with ignored := sat8 ((s.cipher.pages[i])[p]).ignored } ∧
      s.otherPages i p t ∧ s.onlyIn [.cipher] t) ∧
  (∀ (kd : CoreKind) (i : Fin 128) (p : Fin 32) (j : CipherJob) (n : Nat) (s : State), s.live = true → s.cipher.core kd 0 = some ⟨i, p⟩ →
    ((s.cipher.pages[i])[p]).job = some j → j.segs = n + 2 → j.passes = 1 →
    ∃ t, exec (.cipherSegmentEnd kd 0) s = .next t ∧ ((t.cipher.pages[i])[p]).job = some { j with segs := n + 1 } ∧ s.otherPages i p t ∧ s.onlyIn [.cipher] t) ∧
  (∀ (i : Fin 128) (p : Fin 32) (x : CipherPage) (h : Word) (e : Entry) (m : MsgCtx) (j : CipherJob) (s : State), s.live = true → (s.cipher.pages[i])[p] = x →
    x.busy = true → x.loaded = some (h, e) → x.msg = some m → x.job = some j → j.segs = 0 → j.out = 0 → modeLast j.mode = true → modeDir m.mode = true →
    modeTag m.mode ≠ 0 → j.passes ≠ 0 ∨ modeTagOut m.mode e m.iv m.aad (m.data ++ j.input) ≠ x.tag.take (modeTag m.mode) →
    ∃ t, exec (.cipherRunDone i p) s = .next t ∧ (t.cipher.pages[i])[p] = { x with
        prog := x.prog + BitVec.ofNat 32 j.len, msg := none, job := none, busy := false, status := 0x0407, evt := x.evt.hit } ∧
      s.otherPages i p t ∧ s.woken i t ∧ s.onlyIn [.cipher, .tenants] t) ∧
  (∀ (i : Fin 128) (p : Fin 32) (x : CipherPage) (h : Word) (e : Entry) (m : MsgCtx) (j : CipherJob) (s : State), s.live = true → (s.cipher.pages[i])[p] = x →
    x.busy = true → x.loaded = some (h, e) → x.msg = some m → x.job = some j → j.segs = 0 → modeLast j.mode = true → modeDir m.mode = false → modeTag m.mode ≠ 0 →
    ∃ t, exec (.cipherRunDone i p) s = .next t ∧ (t.cipher.pages[i])[p] = { x with
        tag := padTo 16 (modeTagOut m.mode e m.iv m.aad (m.data ++ j.input))
        prog := x.prog + BitVec.ofNat 32 j.len, msg := none, job := none, busy := false, status := 0, evt := x.evt.hit } ∧
      s.otherPages i p t ∧ s.woken i t ∧ s.onlyIn [.cipher, .tenants] t)

/-- R305, R318, R504 (CM_GENERATOR_RESEED): all thirteen countermeasure generators take 256 bits each from instance 145; while Mint is not READY none does.
The mixing is a free value (log 19).
R340, R341, Table 14-15 (TEST_SRC_ENABLE, TEST_SRC_DISABLE, MINT_RAW_READ): in FACTORY_TEST the pattern is turned on and off with every instance uninstantiated; in every
other life-cycle state a write changes nothing but is logged, and a raw read latches nothing. -/
def Obligations.GeneratorsAndTestSource : Prop :=
  (∀ s : State, s.live = true → s.mint.state = .ready → (s.mint.insts[(145 : Fin 160)]).inst = true → (s.mint.insts[(145 : Fin 160)]).reseedReq = false →
    (s.mint.insts[(145 : Fin 160)]).uses + 13 ≤ s.param 0x0600 → s.drbgAge s.mint.insts[(145 : Fin 160)] < s.param 0x0601 → s.mint.waitq = [] →
    ∃ t, exec .cmGeneratorReseed s = .next t ∧
      (∀ n : Fin 13, t.power.cmGen[n] = (List.range 32).map (Config.mixGen s.power.cmGen[n]
        ((times (State.drawNow (ownDraw 145 32)) n.val s).drawOut (ownDraw 145 32)))) ∧
      (t.mint.insts[(145 : Fin 160)]).uses = (s.mint.insts[(145 : Fin 160)]).uses + 13 ∧
      t.power = { s.power with cmGen := t.power.cmGen } ∧ t.mint = { s.mint with insts := t.mint.insts } ∧
      (∀ n : Fin 160, n ≠ 145 → t.mint.insts[n] = s.mint.insts[n]) ∧ s.onlyIn [.power, .mint] t) ∧
  (∀ s : State, s.mint.state ≠ .ready → exec .cmGeneratorReseed s = .next s) ∧
  (∀ (v : Word) (s : State), s.live = true → s.lc.state = .factoryTest → s.mint.testSrc.getLsbD 0 = false → s.mint.state ≠ .failed →
    ∃ t, exec (.testSrcEnable v) s = .next t ∧ t.mint.state = .testSrc ∧ t.mint.testing = true ∧ t.mint.pool = [] ∧ t.mint.s = 0 ∧
      (∀ n : Fin 160, (t.mint.insts[n]).inst = false) ∧ t.mint.testSrc = ((v &&& 0xFFFF0007) ||| 1) ∧
      t.mint.lfsr = (if v >>> 16 = 0 then (1 : BitVec 64) else (v >>> 16).setWidth 64) ∧ (s.mint.state ≠ .testSrc → (t.hrb.evtB[(4 : Fin 6)]).set = true) ∧
      s.onlyIn [.mint, .hrb, .link, .treor] t) ∧
  (∀ (v : Word) (s : State), s.live = true → s.lc.state = .factoryTest → s.mint.testSrc.getLsbD 0 = true → s.mint.state ≠ .failed →
    ∃ t, exec (.testSrcDisable v) s = .next t ∧ t.mint.state = .startup ∧ t.mint.testing = true ∧ t.mint.pool = [] ∧ t.mint.s = 0 ∧
      (∀ n : Fin 160, (t.mint.insts[n]).inst = false) ∧ t.mint.testSrc = v &&& 0xFFFF0006 ∧ s.onlyIn [.mint, .hrb, .link, .treor] t) ∧
  (∀ (v : Word) (c : Instr) (s : State), c = .testSrcEnable v ∨ c = .testSrcDisable v → s.live = true → s.lc.state ≠ .factoryTest → s.commits = true →
    ∃ t e, exec c s = .next t ∧ t.store = { s.store with log := t.store.log, logSeq := s.store.logSeq + 1 } ∧ t.store.log.getLast? = some e ∧ e.code = 0x05 ∧
      e.data = padTo 40 (leN 4 v.toNat) ∧ s.onlyIn [.store] t) ∧
  (∀ (raw : BitVec 64) (s : State), s.live = true → s.lc.state = .factoryTest →
    exec (.mintRawRead raw) s = .next { s with mint := { s.mint with rawHi := (raw >>> 32).setWidth 32 } }) ∧
  (∀ (raw : BitVec 64) (s : State), s.lc.state ≠ .factoryTest → exec (.mintRawRead raw) s = .next s)

/-- R310 to R320, Table 13-9, Table 13-10 (EC_SIGN, EC_VERIFY, EC_AGREE, ED_SIGN, ED_VERIFY, RSA_PUBLIC, RSA_PRIVATE, EXT_GENERATE, EXT_IMPORT, PUBLIC_KEY,
PKE_ABORT, PKE_SLICE_END): a job is taken with its operands as they stand, runs when its class and share choose it, and writes its result, makes its key, or
ends with its status and nothing written. Which scalar or prime a draw gives is a free value (log 6). -/
def Obligations.PublicKeyJobs : Prop :=
  (∀ (i : Fin 128) (cls : BitVec 2) (op : Nat) (s : State), op = 2 ∨ op = 5 ∨ op = 6 → s.mayPke i → cls ≠ 0 → s.pkeOperands i op {} [] →
    ∃ t, exec (pkeRow i cls op) s = .next t ∧ (t.pke.pages[i]).busy = true ∧ (t.pke.pages[i]).frange = 0 ∧
      (t.pke.pages[i]).job = some {
        op := BitVec.ofNat 8 op, cls, key := (s.pke.pages[i]).key, arg := (s.pke.pages[i]).arg, secret := []
        input := s.dmaRead i (s.pke.pages[i]).src.toNat (s.pke.pages[i]).srclen.toNat
        dst := (s.pke.pages[i]).dst, dstlen := (s.pke.pages[i]).dstlen.toNat } ∧
      (∀ j : Fin 128, j ≠ i → t.pke.pages[j] = s.pke.pages[j]) ∧ t.kct.entries = s.kct.entries ∧ s.onlyIn [.pke, .kct] t) ∧
  (∀ (i : Fin 128) (cls : BitVec 2) (op : Nat) (k : KIdx) (e : Entry) (b : Bytes) (s : State),
    op = 3 ∨ op = 4 ∨ (op = 7 ∧ argPad (s.pke.pages[i]).arg ≠ 2) ∨ op = 9 ∨ op = 10 → s.mayPke i → cls ≠ 0 → s.guard.tampered = false → s.guard.bbk = .valid →
    s.holdsKey i (s.pke.pages[i]).key k e → pkeAccepts op (s.pke.pages[i]).arg e = true → e.limit = 0 → s.privateKey i k = some b → s.pkeOperands i op e b →
    (op = 3 ∨ op = 9 → s.kctUsed i < (s.tenants.slots[i]).run.kct ∧ s.kct.fresh < 32256) →
    ∃ t j, exec (pkeRow i cls op) s = .next t ∧ (t.pke.pages[i]).busy = true ∧ (t.pke.pages[i]).job = some j ∧ j.op = BitVec.ofNat 8 op ∧ j.cls = cls ∧
      j.entry = some e ∧ j.secret = b ∧ j.waiting = false ∧ j.dst = (s.pke.pages[i]).dst ∧
      j.input = s.dmaRead i (s.pke.pages[i]).src.toNat (if op = 10 then 0 else (s.pke.pages[i]).srclen.toNat) ∧
      (∀ j : Fin 128, j ≠ i → t.pke.pages[j] = s.pke.pages[j]) ∧ t.kct.entries = s.kct.entries ∧ s.onlyIn [.pke, .kct] t) ∧
  (∀ (i : Fin 128) (cls : BitVec 2) (op : Nat) (k : KIdx) (e : Entry) (b : Bytes) (s : State),
    op = 1 ∨ (op = 7 ∧ argPad (s.pke.pages[i]).arg = 2) → s.mayPke i → cls ≠ 0 → s.guard.tampered = false → s.guard.bbk = .valid →
    s.holdsKey i (s.pke.pages[i]).key k e → pkeAccepts op (s.pke.pages[i]).arg e = true → e.limit = 0 → s.privateKey i k = some b → s.pkeOperands i op e b →
    (s.mint.insts[fixedInst i]).inst = true → (s.mint.insts[fixedInst i]).reseedReq = false → s.reseedDue s.mint.insts[fixedInst i] = false → s.mint.waitq = [] →
    ∃ t j, exec (pkeRow i cls op) s = .next t ∧ (t.pke.pages[i]).busy = true ∧ (t.pke.pages[i]).job = some j ∧ j.op = BitVec.ofNat 8 op ∧ j.cls = cls ∧
      j.entry = some e ∧ j.secret = b ∧ j.waiting = false ∧ j.draw = s.drawOut { client := .pke i, inst := fixedInst i, len := 64 } ∧ (t.mint.insts[fixedInst i]).uses = (s.mint.insts[fixedInst i]).uses + 1 ∧
      (∀ j : Fin 128, j ≠ i → t.pke.pages[j] = s.pke.pages[j]) ∧ t.kct.entries = s.kct.entries ∧ s.onlyIn [.pke, .kct, .mint] t) ∧
  (∀ (i : Fin 128) (cls : BitVec 2) (s : State), s.mayPke i → cls ≠ 0 → s.pkeOperands i 8 {} [] → s.kctUsed i < (s.tenants.slots[i]).run.kct → s.kct.fresh < 32256 →
    (s.mint.insts[fixedInst i]).inst = true → (s.mint.insts[fixedInst i]).reseedReq = false → s.reseedDue s.mint.insts[fixedInst i] = false → s.mint.waitq = [] →
    ∃ t j, exec (.extGenerate i cls) s = .next t ∧ (t.pke.pages[i]).busy = true ∧ (t.pke.pages[i]).job = some j ∧ j.op = 8 ∧ j.waiting = false ∧ j.draw = s.drawOut { client := .pke i, inst := fixedInst i, len := 64 } ∧
      j.input = s.dmaRead i (s.pke.pages[i]).src.toNat (s.pke.pages[i]).srclen.toNat ∧ s.onlyIn [.pke, .kct, .mint] t) ∧
  (∀ (i : Fin 128) (cls : BitVec 2) (op : Nat) (s : State), op = 1 ∨ op = 3 ∨ op = 4 ∨ op = 7 ∨ op = 9 ∨ op = 10 → s.mayPke i →
    s.guard.tampered = true ∨ s.guard.bbk ≠ .valid →
    ∃ t, exec (pkeRow i cls op) s = .next t ∧ t.pke.pages[i] = { s.pke.pages[i] with
        cmd := BitVec.ofNat 32 (cls.toNat * 4096 + op), frange := 0, job := none, status := 0x0703, evt := (s.pke.pages[i]).evt.hit } ∧
      s.woken i t ∧ s.onlyIn [.pke, .kct, .tenants] t) ∧
  (∀ (i : Fin 128) (cls : BitVec 2) (op : Nat) (s : State), 1 ≤ op → op ≤ 10 → s.calls i = true → (s.pke.pages[i]).busy = true →
    exec (pkeRow i cls op) s = .next (s.updPk i fun p => { p with ignored := sat8 p.ignored })) ∧
  (∀ (i : Fin 128) (j : PkeJob) (b : Bytes) (s : State), s.live = true → s.pke.running = some i → (s.pke.pages[i]).job = some j →
    (∀ q : Fin 128, q ≠ i → (s.pke.pages[q]).job = none) → (s.kct.lru[i]).length ≤ s.lines i → j.result (s.random 32) = .bytes b →
    ∃ t, exec (.pkeSliceEnd true true) s = .next t ∧ t.pke.pages[i] = { s.pke.pages[i] with
        outlen := BitVec.ofNat 17 b.length, busy := false, job := none, status := 0, evt := (s.pke.pages[i]).evt.hit } ∧
      t.sprig = (s.dmaWrite i j.dst.toNat b).sprig ∧ t.tenants.slots[i] = { (s.dmaWrite i j.dst.toNat b).tenants.slots[i] with jobDone := true } ∧
      s.otherSlots i t ∧ (∀ q : Fin 128, q ≠ i → t.pke.pages[q] = s.pke.pages[q]) ∧ t.pke.running = none ∧ s.onlyIn [.pke, .tenants, .sprig, .kct] t) ∧
  (∀ (i : Fin 128) (j : PkeJob) (st : BitVec 16) (s : State), s.live = true → s.pke.running = some i → (s.pke.pages[i]).job = some j →
    (∀ q : Fin 128, q ≠ i → (s.pke.pages[q]).job = none) → (s.kct.lru[i]).length ≤ s.lines i → j.result (s.random 32) = .status st →
    ∃ t, exec (.pkeSliceEnd true true) s = .next t ∧ t.pke.pages[i] = { s.pke.pages[i] with
        outlen := 0, busy := false, job := none, status := st, evt := (s.pke.pages[i]).evt.hit } ∧
      s.woken i t ∧ (∀ q : Fin 128, q ≠ i → t.pke.pages[q] = s.pke.pages[q]) ∧ t.pke.running = none ∧ s.onlyIn [.pke, .tenants, .kct] t) ∧
  (∀ (i : Fin 128) (j : PkeJob) (k : KIdx) (tm : Template) (secret : Bytes) (kcv : BitVec 24) (after : Bytes) (s : State), s.live = true → s.pke.running = some i →
    (s.pke.pages[i]).job = some j → (∀ q : Fin 128, q ≠ i → (s.pke.pages[q]).job = none) → s.kctFree i k → tm.vol = false →
    j.op = 3 → j.result (s.random 32) = .key tm secret kcv none after →
    ∃ t, exec (.pkeSliceEnd true true) s = .next t ∧ t.kct.entries[k] = Entry.make s.kct.entries[k] (slotOwner i) tm secret kcv ∧
      (∀ q : KIdx, q ≠ k → t.kct.entries[q] = s.kct.entries[q]) ∧ (t.pke.pages[i]).busy = false ∧ (t.pke.pages[i]).status = 0 ∧
      t.tenants.slots[i] = { (s.dmaWrite i j.dst.toNat (leN 4 (makeHandle k (s.kct.entries[k]).gen).toNat ++ leN 4 kcv.toNat ++ after)).tenants.slots[i] with jobDone := true } ∧
      s.otherSlots i t ∧ s.onlyIn [.pke, .tenants, .sprig, .kct, .free] t) ∧
  (∀ (i : Fin 128) (j : PkeJob) (k : KIdx) (tm : Template) (secret b : Bytes) (kcv : BitVec 24) (after : Bytes) (w : State) (q : BitVec 48) (s : State), s.live = true →
    s.pke.running = some i → (s.pke.pages[i]).job = some j → (∀ q : Fin 128, q ≠ i → (s.pke.pages[q]).job = none) → s.kctFree i k → tm.vol = false →
    j.op = 8 ∨ j.op = 9 → j.result (s.random 32) = .key tm secret kcv (some b) after → s.writeRec i (blobId i k) false b true = (w, 0, q) →
    ∃ t, exec (.pkeSliceEnd true true) s = .next t ∧ t.kct.entries[k] = Entry.make s.kct.entries[k] (slotOwner i) tm secret kcv ∧
      t.store = w.store ∧ (t.pke.pages[i]).busy = false ∧ (t.pke.pages[i]).status = 0 ∧
      t.tenants.slots[i] = { (s.dmaWrite i j.dst.toNat (leN 4 (makeHandle k (s.kct.entries[k]).gen).toNat ++ leN 4 kcv.toNat ++ after)).tenants.slots[i] with jobDone := true } ∧
      s.otherSlots i t ∧ s.onlyIn [.pke, .tenants, .sprig, .kct, .store, .free] t) ∧
  (∀ (i : Fin 128) (j : PkeJob) (s : State), s.live = true → s.pke.running = some i → (s.pke.pages[i]).job = some j → pkeChecked j.op.toNat = true →
    (∀ q : Fin 128, q ≠ i → (s.pke.pages[q]).job = none) → (s.kct.lru[i]).length ≤ s.lines i →
    ∃ t, exec (.pkeSliceEnd true false) s = .next t ∧ (t.pke.pages[i]).status = 0x0409 ∧ (t.pke.pages[i]).busy = false ∧ (t.pke.pages[i]).outlen = 0 ∧
      s.woken i t ∧ s.onlyIn [.pke, .tenants, .kct, .store] t) ∧
  (∀ (i : Fin 128) (j : PkeJob) (s : State), s.live = true → (s.pke.pages[i]).job = some j → j.waiting = false → j.ending = none →
    (∀ q : Fin 128, q ≠ i → ∀ x, (s.pke.pages[q]).job = some x → x.waiting = false ∧ j.cls < x.cls ∧ x.ending = none) →
    ∃ t, exec (.pkeSliceEnd false true) s = .next t ∧ t.pke.running = some i ∧ t.pke.pages = s.pke.pages ∧ s.onlyIn [.pke] t) ∧
  (∀ (i : Fin 128) (j : PkeJob) (s : State), s.calls i = true → (s.pke.pages[i]).busy = true → (s.pke.pages[i]).job = some j → s.pke.running ≠ none →
    ∃ t u, exec (.pkeAbort i) s = .next t ∧ (t.pke.pages[i]).busy = true ∧ (t.pke.pages[i]).cmd = ((s.pke.pages[i]).cmd &&& 0x3000) ||| 0x0F ∧ s.onlyIn [.pke, .mint] t ∧ exec (.pkeSliceEnd false true) t = .next u ∧
      (u.pke.pages[i]).busy = false ∧ (u.pke.pages[i]).status = 0x0409 ∧ (u.pke.pages[i]).job = none ∧ (u.tenants.slots[i]).sram = (s.tenants.slots[i]).sram ∧
      (u.tenants.slots[i]).jobDone = true) ∧
  (∀ (i : Fin 128) (s : State), s.calls i = true → (s.pke.pages[i]).busy = true → s.pke.running = none →
    ∃ t, exec (.pkeAbort i) s = .next t ∧ t.pke.pages[i] = { s.pke.pages[i] with
        cmd := ((s.pke.pages[i]).cmd &&& 0x3000) ||| 0x0F, busy := false, job := none, status := 0x0409, evt := (s.pke.pages[i]).evt.hit } ∧
      s.woken i t ∧ s.onlyIn [.pke, .tenants, .mint] t) ∧
  (∀ (i : Fin 128) (s : State), s.calls i = true → (s.pke.pages[i]).busy = false →
    exec (.pkeAbort i) s = .next (s.updPk i fun p => { p with ignored := sat8 p.ignored }))

/-- R315, Table 13-9 (RSA_PUBLIC without padding): for an odd modulus whose first byte is not zero, an odd exponent of at least 3 and an input below the modulus, the
destination receives the input raised to the exponent, modulo the modulus; otherwise the status is 0x0408. -/
def Obligations.RsaPublicIsAPower : Prop :=
  (∀ (j : PkeJob) (n e x : Nat), j.op = 6 → argPad j.arg = 0 → 8 ≤ argSize j.arg → argSize j.arg ≤ 64 → n < 256 ^ (8 * argSize j.arg) →
    256 ^ (8 * argSize j.arg - 1) ≤ n → n % 2 = 1 → e < 4294967296 → e % 2 = 1 → 3 ≤ e → x < n →
    j.input = beN (8 * argSize j.arg) n ++ beN 4 e ++ beN (8 * argSize j.arg) x → ∀ r, j.result r = .bytes (beN (8 * argSize j.arg) (x ^ e % n))) ∧
  (∀ (j : PkeJob) (n e x : Nat), j.op = 6 → n < 256 ^ (8 * argSize j.arg) → e < 4294967296 → x < 256 ^ (8 * argSize j.arg) →
    n % 2 = 0 ∨ n < 256 ^ (8 * argSize j.arg - 1) ∨ e % 2 = 0 ∨ e < 3 ∨ n ≤ x → 8 ≤ argSize j.arg → ∀ d,
    j.input = beN (8 * argSize j.arg) n ++ beN 4 e ++ beN (8 * argSize j.arg) x ++ d → ∀ r, j.result r = .status 0x0408)

/-- R322, R323, Table 13-12 (HASH_INIT, HMAC_INIT, HASH_UPDATE, HASH_FINAL, HASH_ABORT, HASH_OP_DONE): the digest covers the data of every update and of the final in order; a
verifying HMAC compares; an abort discards the context. -/
def Obligations.HashesCover : Prop :=
  (∀ (i : Fin 128) (a : BitVec 4) (s : State), s.calls i = true → (s.pke.pages[i]).hbusy = false → 1 ≤ a.toNat → a.toNat ≤ 4 →
    ∃ t, exec (.hashInit i a) s = .next t ∧ t.pke.pages[i] = { s.pke.pages[i] with
        hcmd := BitVec.ofNat 32 (a.toNat * 256 + 1), ctx := some { alg := a.toNat }, hfrange := 0, hjob := none, hstatus := 0, hevt := (s.pke.pages[i]).hevt.hit } ∧
      (∀ q : Fin 128, q ≠ i → t.pke.pages[q] = s.pke.pages[q]) ∧ s.woken i t ∧ s.onlyIn [.pke, .tenants] t) ∧
  (∀ (i : Fin 128) (a : BitVec 4) (s : State), s.calls i = true → (s.pke.pages[i]).hbusy = false → a = 0 ∨ 4 < a.toNat →
    ∃ t, exec (.hashInit i a) s = .next t ∧ (t.pke.pages[i]).hstatus = 0x0108 ∧ (t.pke.pages[i]).ctx = (s.pke.pages[i]).ctx ∧ s.woken i t ∧ s.onlyIn [.pke, .tenants] t) ∧
  (∀ (i : Fin 128) (v : Bool) (k : KIdx) (e : Entry) (s : State), s.calls i = true → (s.pke.pages[i]).hbusy = false → s.guard.tampered = false → s.guard.bbk = .valid →
    (s.kct.lru[i]).length ≤ s.lines i → s.holdsKey i (s.pke.pages[i]).hkey k e → e.cls = 3 → e.may (if v then 3 else 2) = true → e.limit = 0 → s.useCheck e 1 = none →
    ∃ t, exec (.hmacInit i v) s = .next t ∧ (t.pke.pages[i]).hstatus = 0 ∧ (t.pke.pages[i]).hbusy = false ∧
      (t.pke.pages[i]).ctx = some { alg := e.alg.toNat, key := some e.key, verify := v, handle := (s.pke.pages[i]).hkey } ∧
      t.kct.entries = s.kct.entries ∧ s.woken i t ∧ s.onlyIn [.pke, .kct, .tenants] t) ∧
  (∀ (i : Fin 128) (c : HashCtx) (s : State), s.calls i = true → (s.pke.pages[i]).hbusy = false → (s.pke.pages[i]).ctx = some c → (s.pke.pages[i]).hlen ≠ 0 →
    (∀ q : Fin 128, (s.pke.pages[q]).hjob = none) →
    (s.pke.pages[i]).hlen.toNat ≤ 2097152 → s.badByte i (s.pke.pages[i]).hsrc.toNat (s.pke.pages[i]).hlen.toNat false = none →
    ∃ t u, exec (.hashUpdate i) s = .next t ∧ (t.pke.pages[i]).hbusy = true ∧ (t.pke.pages[i]).ctx = some c ∧ s.onlyIn [.pke] t ∧
      exec (.hashOpDone i) t = .next u ∧ (u.pke.pages[i]).hbusy = false ∧ (u.pke.pages[i]).hstatus = 0 ∧
      (u.pke.pages[i]).ctx = some { c with data := c.data ++ s.dmaRead i (s.pke.pages[i]).hsrc.toNat (s.pke.pages[i]).hlen.toNat } ∧
      (u.pke.pages[i]).hout = (s.pke.pages[i]).hout ∧ s.woken i u ∧ s.onlyIn [.pke, .tenants] u) ∧
  (∀ (i : Fin 128) (c : HashCtx) (s : State), s.calls i = true → (s.pke.pages[i]).hbusy = false → (s.pke.pages[i]).ctx = some c → c.verify = false →
    (∀ q : Fin 128, (s.pke.pages[q]).hjob = none) →
    (s.pke.pages[i]).hlen.toNat ≤ 2097152 → s.badByte i (s.pke.pages[i]).hsrc.toNat (s.pke.pages[i]).hlen.toNat false = none →
    ∃ t u, exec (.hashFinal i 0) s = .next t ∧ (t.pke.pages[i]).hbusy = true ∧ s.onlyIn [.pke] t ∧
      exec (.hashOpDone i) t = .next u ∧ (u.pke.pages[i]).hbusy = false ∧ (u.pke.pages[i]).hstatus = 0 ∧ (u.pke.pages[i]).ctx = none ∧
      (u.pke.pages[i]).hout = padTo 64 (hashOf c.alg c.key (c.data ++ s.dmaRead i (s.pke.pages[i]).hsrc.toNat (s.pke.pages[i]).hlen.toNat)) ∧
      s.woken i u ∧ s.onlyIn [.pke, .tenants] u) ∧
  (∀ (i : Fin 128) (c : HashCtx) (n : BitVec 7) (s : State), s.calls i = true → (s.pke.pages[i]).hbusy = false → (s.pke.pages[i]).ctx = some c → c.verify = true →
    (∀ q : Fin 128, (s.pke.pages[q]).hjob = none) →
    16 ≤ n.toNat → n.toNat ≤ digestLen c.alg → (s.pke.pages[i]).hlen = 0 →
    ∃ t u, exec (.hashFinal i n) s = .next t ∧ (t.pke.pages[i]).hbusy = true ∧ exec (.hashOpDone i) t = .next u ∧ (u.pke.pages[i]).hbusy = false ∧
      (u.pke.pages[i]).hstatus = (if (hashOf c.alg c.key c.data).take n.toNat = (s.pke.pages[i]).hout.take n.toNat then 0 else 0x0407) ∧
      (u.pke.pages[i]).ctx = none ∧ (u.pke.pages[i]).hout = (s.pke.pages[i]).hout ∧ s.woken i u ∧ s.onlyIn [.pke, .tenants] u) ∧
  (∀ (i : Fin 128) (c : Instr) (s : State), c ∈ [.hashUpdate i, .hashFinal i 0] → s.calls i = true → (s.pke.pages[i]).hbusy = false → (s.pke.pages[i]).ctx = none →
    ∃ t, exec c s = .next t ∧ (t.pke.pages[i]).hstatus = 0x0108 ∧ (t.pke.pages[i]).hbusy = false ∧ s.woken i t ∧ s.onlyIn [.pke, .tenants] t) ∧
  (∀ (i : Fin 128) (s : State), s.calls i = true → (s.pke.pages[i]).hbusy = true →
    ∃ t, exec (.hashAbort i) s = .next t ∧ t.pke.pages[i] = { s.pke.pages[i] with
        hbusy := false, hstatus := 0x0409, hevt := (s.pke.pages[i]).hevt.hit, hjob := none, ctx := none } ∧ s.woken i t ∧ s.onlyIn [.pke, .tenants] t) ∧
  (∀ (i : Fin 128) (a : BitVec 4) (v : Bool) (n : BitVec 7) (c : Instr) (s : State), c ∈ [.hashInit i a, .hmacInit i v, .hashUpdate i, .hashFinal i n] → s.calls i = true →
    (s.pke.pages[i]).hbusy = true → exec c s = .next (s.updPk i fun p => { p with hignored := sat8 p.hignored })) ∧
  (∀ (i : Fin 128) (c : HashCtx) (s : State), s.calls i = true → (s.pke.pages[i]).hbusy = false → (s.pke.pages[i]).ctx = some c → (s.pke.pages[i]).hlen ≠ 0 →
    (s.pke.pages[i]).hlen.toNat ≤ 2097152 → s.badByte i (s.pke.pages[i]).hsrc.toNat (s.pke.pages[i]).hlen.toNat false = none →
    ∃ t, exec (.hashUpdate i) s = .next t ∧ (t.pke.pages[i]).hbusy = true ∧ (t.pke.pages[i]).ctx = some c ∧ (t.pke.pages[i]).hjob = some {
        final := false, tlen := 0, input := s.dmaRead i (s.pke.pages[i]).hsrc.toNat (s.pke.pages[i]).hlen.toNat,
        segs := ((s.pke.pages[i]).hlen.toNat + 255) / 256 } ∧
      (∀ q : Fin 128, q ≠ i → t.pke.pages[q] = { s.pke.pages[q] with hjob := (t.pke.pages[q]).hjob }) ∧ s.onlyIn [.pke, .free] t) ∧
  (∀ (i : Fin 128) (j : HashJob) (c : HashCtx) (p : Pke) (s : State), s.live = true → (s.pke.pages[i]).hjob = some j → (s.pke.pages[i]).ctx = some c →
    (s.pke.pages[i]).hbusy = true → j.final = false → s.pke.hashUntil i s.pke.hashAll = some p →
    ∃ t, exec (.hashOpDone i) s = .next t ∧ (t.pke.pages[i]).hbusy = false ∧ (t.pke.pages[i]).hstatus = 0 ∧ (t.pke.pages[i]).hjob = none ∧
      (t.pke.pages[i]).ctx = some { c with data := c.data ++ j.input } ∧
      (∀ q : Fin 128, q ≠ i → t.pke.pages[q] = { s.pke.pages[q] with hjob := (t.pke.pages[q]).hjob }) ∧ s.woken i t ∧ s.onlyIn [.pke, .tenants] t) ∧
  (∀ (i : Fin 128) (s : State), s.pke.hashUntil i s.pke.hashAll = none → exec (.hashOpDone i) s = .next s)

/-- R326 to R333 (MINT_BLOCK_READY, MINT_STARTUP_TEST_END, HEALTH_FAILURE, MINT_RESTART_TIMER): words that pass the tests are conditioned and released to the pool; a failure
empties Mint, marks every instance and restarts it, at most three times. -/
def Obligations.MintReleasesAndFails : Prop :=
  (∀ (words : List (BitVec 64)) (s : State), s.live = true → s.mint.state = .ready → s.mint.testing = false → s.mint.testSrc.getLsbD 0 = false →
    (s.sample words).2 = true →
    ∃ t, exec (.mintBlockReady words) s = .next t ∧ t.mint.s = words.foldl condWord s.mint.s ∧
      t.mint.pool = (if s.mint.pool.length < 16 then s.mint.pool ++ [words.foldl condWord s.mint.s] else s.mint.pool) ∧
      t.mint = { s.mint with s := t.mint.s, pool := t.mint.pool, osc := t.mint.osc } ∧ s.onlyIn [.mint] t) ∧
  (∀ (words : List (BitVec 64)) (s : State), s.live = true → s.mint.state = .startup ∨ s.mint.state = .restarting → s.mint.testSrc.getLsbD 0 = false →
    (s.sample words).2 = true →
    ∃ t, exec (.mintBlockReady words) s = .next t ∧ t.mint.pool = s.mint.pool ∧ t.mint.s = words.foldl condWord s.mint.s ∧ s.onlyIn [.mint] t) ∧
  (∀ (w : BitVec 64) (n : Fin 64) (s : State), s.live = true → s.mint.state = .ready → s.mint.testing = false → s.mint.testSrc.getLsbD 0 = false →
    (s.mint.osc[n]).run = 128 → (s.mint.osc[n]).last = w.getLsbD n.val → s.mint.restarts.toNat < 3 → s.mint.running = none → s.mint.ready = [] → s.mint.waitq = [] →
    ∃ t, exec (.mintBlockReady [w]) s = .next t ∧ t.mint.state = .restarting ∧ t.mint.pool = [] ∧ t.mint.s = 0 ∧ t.mint.hlth.getLsbD 31 = true ∧
      t.mint.hlth.getLsbD 28 = true) ∧
  (∀ (dur : BitVec 16) (s : State), s.live = true → s.mint.testing = true → s.mint.state = .startup ∨ s.mint.state = .restarting → s.mint.testSrc.getLsbD 0 = false →
    ∃ t, exec (.mintStartupTestEnd none dur) s = .next t ∧ t.mint = { s.mint with state := .ready, testing := false, pool := [], lastTest := dur } ∧
      (t.hrb.evtB[(4 : Fin 6)]).set = true ∧ s.onlyIn [.mint, .hrb, .link, .treor] t) ∧
  (∀ (f : HealthFail) (dur : BitVec 16) (s : State), s.live = true → s.mint.testing = true → s.mint.state = .startup → s.mint.restarts.toNat < 3 → s.mint.running = none →
    s.mint.ready = [] → s.mint.waitq = [] →
    ∃ t, exec (.mintStartupTestEnd (some f) dur) s = .next t ∧ t.mint.state = .restarting ∧ t.mint.lastTest = dur ∧ t.mint.hlth.getLsbD 31 = true ∧
      t.mint.hlth.getLsbD 28 = false ∧ t.mint.pool = [] ∧ t.mint.s = 0 ∧ s.onlyIn [.mint, .hrb, .link, .treor] t) ∧
  (∀ (f : HealthFail) (s : State), s.live = true → s.mint.state ≠ .failed → s.mint.restarts.toNat < 3 → s.mint.running = none → s.mint.ready = [] → s.mint.waitq = [] →
    ∃ t, exec (.healthFailure f) s = .next t ∧ t.mint.state = .restarting ∧ t.mint.pool = [] ∧ t.mint.s = 0 ∧ t.mint.testing = false ∧
      t.mint.hlth = f.word (!s.mint.testing) ∧ t.mint.lastFail = s.guard.rtc ∧ t.mint.restarts = s.mint.restarts ∧
      (∀ n : Fin 160, t.mint.insts[n] = if (s.mint.insts[n]).inst then { s.mint.insts[n] with reseedReq := true } else s.mint.insts[n]) ∧
      (s.mint.state ≠ .restarting → (t.hrb.evtB[(4 : Fin 6)]).set = true) ∧ s.onlyIn [.mint, .hrb, .link, .treor] t) ∧
  (∀ (f : HealthFail) (i : Fin 128) (p : Fin 4) (n : Fin 160) (s : State), s.live = true → s.mint.state ≠ .failed → s.mint.restarts.toNat < 3 → s.mint.running = none →
    s.mint.ready = [] → s.mint.waitq = [{ client := .page i p, inst := n, len := 32 }] → ((s.mint.pages[i])[p]).busy = true →
    ∃ t, exec (.healthFailure f) s = .next t ∧ ((t.mint.pages[i])[p]).busy = false ∧ ((t.mint.pages[i])[p]).waiting = false ∧
      ((t.mint.pages[i])[p]).status = 0x0602 ∧ ((t.mint.pages[i])[p]).evt.set = true ∧ t.mint.waitq = [] ∧ (t.tenants.slots[i]).sram = (s.tenants.slots[i]).sram) ∧
  (∀ (f : HealthFail) (s : State), s.live = true → s.mint.state ≠ .failed → 3 ≤ s.mint.restarts.toNat →
    ∃ t, exec (.healthFailure f) s = .next t ∧ t.mint.state = .failed ∧ t.mint.pool = [] ∧ t.mint.s = 0 ∧ (t.hrb.evtB[(5 : Fin 6)]).set = true ∧
      (s.guard.param 0x93C 0 ≤ 1 → (⟨6, 0⟩ : Mon) ∉ s.guard.active → t.hrb.tampSeen.getLsbD 6 = true)) ∧
  (∀ (f : HealthFail) (s : State), s.mint.state = .failed → exec (.healthFailure f) s = .next s) ∧
  (∀ s : State, s.live = true → s.mint.state = .restarting → s.mint.testing = false →
    exec .mintRestartTimer s = .next { s with mint := { s.mint with restarts := s.mint.restarts + 1, testing := true, osc := Vector.replicate 64 {} } })

/-- R334 to R339, Table 14-4, Table 14-6 (DRBG_GENERATE, DRBG_RESEED, DRBG_ABORT, DRBG_WAIT_SERVED, DRBG_WAIT_TIMEOUT, DRBG_REQUEST_DONE): a request is served, waits or is refused
by the state of Mint and of its instance; its output is written at its completion, and an aborted one releases nothing. -/
def Obligations.DrbgServes : Prop :=
  (∀ (i : Fin 128) (w r : Bool) (x : DpPage) (q : DrbgReq) (s : State), s.calls i = true → (s.mint.pages[i])[(0 : Fin 4)] = x → x.busy = false → 0 < x.len.toNat →
    x.len.toNat ≤ 65536 → q = { client := .page i 0, inst := fixedInst i, len := x.len.toNat, outreg := r, dst := x.dst, ain := x.ain.take x.ainlen.toNat } →
    x.ainlen.toNat ≤ 32 → (r = true → x.len.toNat ≤ 32) → (r = false → s.badByte i x.dst.toNat x.len.toNat true = none) →
    (s.mint.insts[fixedInst i]).inst = true → (s.mint.insts[fixedInst i]).reseedReq = false → s.reseedDue s.mint.insts[fixedInst i] = false → s.mint.waitq = [] →
    s.mint.running = none → s.mint.ready = [] →
    ∃ t u, exec (.drbgGenerate i 0 w false r) s = .next t ∧ (t.mint.pages[i])[(0 : Fin 4)] = { x with
        cmd := BitVec.ofNat 32 (16384 * b2n w + 4096 * b2n r + 1), busy := true, split := false } ∧
      t.mint.running = some { q with out := s.drawOut q } ∧ s.onlyIn [.mint] t ∧
      exec .drbgRequestDone t = .next u ∧ ((u.mint.pages[i])[(0 : Fin 4)]).busy = false ∧ ((u.mint.pages[i])[(0 : Fin 4)]).status = 0 ∧
      ((u.mint.pages[i])[(0 : Fin 4)]).evt.set = true ∧
      ((u.mint.pages[i])[(0 : Fin 4)]).out = (if r then padTo 32 (s.drawOut q) else x.out) ∧
      (u.mint.insts[fixedInst i]).uses = (s.mint.insts[fixedInst i]).uses + 1 ∧ u.mint.running = none ∧
      u.sprig = (if r then s.sprig else (s.dmaWrite i x.dst.toNat (s.drawOut q)).sprig) ∧
      u.tenants.slots[i] = { (if r then s.tenants.slots[i] else (s.dmaWrite i x.dst.toNat (s.drawOut q)).tenants.slots[i]) with jobDone := true } ∧
      s.otherSlots i u ∧ s.onlyIn [.mint, .tenants, .sprig] u) ∧
  (∀ (i : Fin 128) (w : Bool) (x : DpPage) (a b : BitVec 256) (rest : List (BitVec 256)) (s : State), s.calls i = true → (s.mint.pages[i])[(0 : Fin 4)] = x → x.busy = false →
    x.ainlen.toNat ≤ 32 → s.mint.state = .ready → s.mint.pool = a :: b :: rest → s.mint.waitq = [] → s.mint.running = none → s.mint.ready = [] →
    ∃ t u, exec (.drbgReseed i 0 w) s = .next t ∧ ((t.mint.pages[i])[(0 : Fin 4)]).busy = true ∧ t.mint.pool = rest ∧
      t.mint.insts[fixedInst i] = { inst := true, since := s.carrier, ctr := (if (s.mint.insts[fixedInst i]).inst
        then (s.mint.insts[fixedInst i]).ctr.reseed (leN 32 a.toNat ++ leN 32 b.toNat) (x.ain.take x.ainlen.toNat)
        else CtrState.init (leN 32 a.toNat ++ leN 32 b.toNat) s.drbgNonce (s.drbgPers (fixedInst i))) } ∧
      t.mint.instCount = (if (s.mint.insts[fixedInst i]).inst then s.mint.instCount else s.mint.instCount + 1) ∧ s.onlyIn [.mint] t ∧
      exec .drbgRequestDone t = .next u ∧ ((u.mint.pages[i])[(0 : Fin 4)]).busy = false ∧ ((u.mint.pages[i])[(0 : Fin 4)]).status = 0 ∧
      ((u.mint.pages[i])[(0 : Fin 4)]).out = x.out ∧ s.woken i u ∧ s.onlyIn [.mint, .tenants] u) ∧
  (∀ (i : Fin 128) (w r : Bool) (st : BitVec 16) (x : DpPage) (s : State), s.calls i = true → (s.mint.pages[i])[(0 : Fin 4)] = x → x.busy = false → 0 < x.len.toNat →
    x.len.toNat ≤ 32 → x.ainlen.toNat ≤ 32 → (s.mint.insts[fixedInst i]).inst = false → r = true →
    (s.mint.state = .failed ∧ st = 0x0602) ∨ (s.mint.state = .startup ∧ w = false ∧ st = 0x0601) ∨ (s.mint.state = .restarting ∧ w = false ∧ st = 0x0601) →
    ∃ t, exec (.drbgGenerate i 0 w false r) s = .next t ∧ ((t.mint.pages[i])[(0 : Fin 4)]).busy = false ∧ ((t.mint.pages[i])[(0 : Fin 4)]).status = st ∧
      ((t.mint.pages[i])[(0 : Fin 4)]).out = x.out ∧ s.woken i t ∧ s.onlyIn [.mint, .tenants] t) ∧
  (∀ (i : Fin 128) (p : Fin 4) (q : Nat) (w o : Bool) (x : DpPage) (s : State), s.calls i = true → p.val = q → q ≤ (s.tenants.slots[i]).run.drbg →
    (s.pageInst i p).isSome = true → (s.mint.pages[i])[p] = x → x.busy = false → x.len = 0 ∨ 65536 < x.len.toNat ∨ 32 < x.ainlen.toNat ∨ (o = true ∧ 32 < x.len.toNat) →
    ∃ t, exec (.drbgGenerate i p w false o) s = .next t ∧ ((t.mint.pages[i])[p]).busy = false ∧ ((t.mint.pages[i])[p]).status = 0x0108 ∧
      t.mint.insts = s.mint.insts ∧ s.woken i t ∧ s.onlyIn [.mint, .tenants] t) ∧
  (∀ (i : Fin 128) (x : DpPage) (a b : BitVec 256) (rest : List (BitVec 256)) (s : State), s.calls i = true → (s.mint.pages[i])[(0 : Fin 4)] = x → x.busy = false →
    x.len = 32 → x.ainlen.toNat ≤ 32 → (s.mint.insts[fixedInst i]).inst = false → s.mint.state = .startup → s.mint.waitq = [] → s.mint.running = none → s.mint.ready = [] →
    ∃ t u o, exec (.drbgGenerate i 0 true false true) s = .next t ∧ ((t.mint.pages[i])[(0 : Fin 4)]).busy = true ∧ ((t.mint.pages[i])[(0 : Fin 4)]).waiting = true ∧
      t.mint.waitq = [{ client := .page i 0, inst := fixedInst i, len := 32, outreg := true, dst := x.dst, ain := x.ain.take x.ainlen.toNat }] ∧ exec .drbgWaitServed t = .next t ∧
      exec .drbgWaitServed { t with mint := { t.mint with state := .ready, pool := a :: b :: rest } } = .next u ∧
      ((u.mint.pages[i])[(0 : Fin 4)]).waiting = false ∧ ((u.mint.pages[i])[(0 : Fin 4)]).busy = true ∧ u.mint.pool = rest ∧ u.mint.waitq = [] ∧
      (u.mint.insts[fixedInst i]).inst = true ∧ o.length = 32 ∧
      u.mint.running = some { client := .page i 0, inst := fixedInst i, len := 32, outreg := true, dst := x.dst, ain := x.ain.take x.ainlen.toNat, out := o }) ∧
  (∀ (i : Fin 128) (o : KctOp) (n : Fin 160) (a b : BitVec 256) (pool : List (BitVec 256)) (rest : List DrbgReq) (s : State), s.live = true →
    s.mint.waitq = { client := .kct i, inst := n, len := 32 } :: rest → s.mint.state = .ready → s.mint.pool = a :: b :: pool → (s.kct.pages[i]).cur = some o →
    ∃ t, exec .drbgWaitServed s = .next t ∧ (t.kct.pages[i]).cur = some { o with draw := s.drawOut { client := .kct i, inst := n, len := 32 }, waiting := false } ∧ t.mint.waitq = rest ∧
      (t.mint.insts[n]).inst = true ∧ s.onlyIn [.mint, .kct] t) ∧
  (∀ (i : Fin 128) (p : Fin 4) (n : Fin 160) (rest : List DrbgReq) (s : State), s.live = true → s.mint.waitq = { client := .page i p, inst := n, len := 32 } :: rest →
    ((s.mint.pages[i])[p]).busy = true →
    ∃ t, exec .drbgWaitTimeout s = .next t ∧ t.mint.waitq = rest ∧ (t.mint.pages[i])[p] = { (s.mint.pages[i])[p] with
        busy := false, waiting := false, status := 0x0601, evt := ((s.mint.pages[i])[p]).evt.hit } ∧ t.mint.insts = s.mint.insts ∧ s.woken i t ∧
      s.onlyIn [.mint, .tenants] t) ∧
  (∀ (i : Fin 128) (p : Fin 4) (r : DrbgReq) (s : State), s.calls i = true → p.val ≤ (s.tenants.slots[i]).run.drbg → ((s.mint.pages[i])[p]).busy = true →
    s.mint.running = some r → r.client = .page i p → r.outreg = true → s.mint.ready = [] → s.mint.waitq = [] →
    ∃ t, exec (.drbgAbort i p) s = .next t ∧ (t.mint.pages[i])[p] = { (s.mint.pages[i])[p] with
        cmd := (((s.mint.pages[i])[p]).cmd &&& 0x7000) ||| 0x0F, busy := false, waiting := false, status := 0x0409, evt := ((s.mint.pages[i])[p]).evt.hit } ∧ t.mint.running = none ∧ t.mint.insts = s.mint.insts ∧
      s.woken i t ∧ s.onlyIn [.mint, .tenants] t) ∧
  (∀ (i : Fin 128) (p : Fin 4) (s : State), s.calls i = true → p.val ≤ (s.tenants.slots[i]).run.drbg → ((s.mint.pages[i])[p]).busy = false →
    ∃ t, exec (.drbgAbort i p) s = .next t ∧ (t.mint.pages[i])[p] = { (s.mint.pages[i])[p] with ignored := sat8 ((s.mint.pages[i])[p]).ignored } ∧ s.onlyIn [.mint] t) ∧
  (∀ (i : Fin 128) (p : Fin 4) (r : DrbgReq) (s : State), s.calls i = true → p.val ≤ (s.tenants.slots[i]).run.drbg → ((s.mint.pages[i])[p]).busy = true →
    s.mint.running = some r → r.client = .page i p → r.outreg = false → r.reseed = false → 0x10000000 ≤ r.dst.toNat → r.dst.toNat + r.len < 0x20000000 →
    ∃ t, exec (.drbgAbort i p) s = .next t ∧ ((t.mint.pages[i])[p]).busy = false ∧ ((t.mint.pages[i])[p]).status = 0x0409 ∧
      (∀ a, a < r.dst.toNat - 0x10000000 ∨ r.dst.toNat - 0x10000000 + r.len ≤ a →
        Memory.read (t.tenants.slots[i]).sram a = Memory.read (s.tenants.slots[i]).sram a) ∧
      (∀ k, k < r.len → Memory.read (t.tenants.slots[i]).sram (r.dst.toNat - 0x10000000 + k) = 0 ∨
        Memory.read (t.tenants.slots[i]).sram (r.dst.toNat - 0x10000000 + k) = Memory.read (s.tenants.slots[i]).sram (r.dst.toNat - 0x10000000 + k)) ∧
      (t.tenants.slots[i]).jobDone = true ∧ s.otherSlots i t ∧ s.onlyIn [.mint, .tenants, .free] t)

/-- R435, R436, R439 to R443, R451, R452, R455, R518, Table 18-3, Table 18-8 (TAMPER_ALARM, TAMPER_FILTER_RELEASE, BUILTIN_TEST): samples of a watched unit fire its filter, a mesh lane
or a loop by the level that differs from its drive; an alarm is answered at the level of its class, a LOG alarm
erases nothing, an ERASE alarm of an armed device destroys the BBK and takes the device into TAMPERED; one whose filter is active does nothing more. -/
def Obligations.TamperResponds : Prop :=
  (∀ (m : Mon) (raw : List Sample) (s : State), s.live = true → s.fired m false raw = true → m ∉ s.guard.active → s.guard.level m.cls = 0 →
    exec (.tamperAlarm m raw) s = .next { s with
      guard := { s.guard.sampled m raw with active := s.guard.active ++ [m] }
      hrb := { s.hrb with tampSeen := s.hrb.tampSeen ||| BitVec.ofNat 8 (2 ^ m.cls.val) } }) ∧
  (∀ (m : Mon) (raw : List Sample) (s : State), s.live = true → s.fired m false raw = true → m ∉ s.guard.active → s.guard.level m.cls = 1 → s.commits = true →
    ∃ t e, exec (.tamperAlarm m raw) s = .next t ∧ t.guard = { s.guard.sampled m raw with active := s.guard.active ++ [m] } ∧
      t.hrb.tampSeen = s.hrb.tampSeen ||| BitVec.ofNat 8 (2 ^ m.cls.val) ∧ t.hrb.evtB[(0 : Fin 6)].set = true ∧
      t.hrb.tampLevel = BitVec.ofNat 4 (max 1 s.hrb.tampLevel.toNat) ∧ (s.guard.param 0x950 0 ≤ 1 → t.hrb.act.set = true) ∧
      t.store.log.getLast? = some e ∧ e.code = 0x24 ∧ e.sub = BitVec.ofNat 8 m.cls.val ∧ e.data = padTo 40 ([1, m.unit] ++ leN 2 (s.rawCount m false raw).toNat) ∧
      s.onlyIn [.guard, .hrb, .store, .link, .treor] t) ∧
  (∀ (m : Mon) (raw : List Sample) (s : State), s.live = true → s.fired m false raw = true → m ∉ s.guard.active → 3 ≤ s.guard.level m.cls → s.guard.arm = true → s.guard.bbk = .valid →
    s.lc.state = .deployed → s.recalled = true → s.supervisor = true →
    ∃ t, exec (.tamperAlarm m raw) s = .next t ∧ t.guard.bbk = .erased ∧ t.guard.tampered = true ∧ t.lc.dbgSession = none ∧ t.hrb.evtB[(1 : Fin 6)].set = true ∧
      (∀ i : Fin 128, t.kct.lru[i] = [] ∧ (t.tenants.slots[i]).state ≠ .running ∧
        ((t.tenants.slots[i]).state = .quiescing ∧ (t.tenants.slots[i]).cold = true ∨ (t.tenants.slots[i]).sram = []) ∧
        (∀ p : Fin 32, ((t.cipher.pages[i])[p]).loaded = none ∧ ((t.cipher.pages[i])[p]).busy = false) ∧
        (if s.pke.running = none then (t.pke.pages[i]).busy = false else (t.pke.pages[i]).job.all (·.ending.isSome) = true)) ∧
      t.guard.mark = BitVec.ofNat 5 t.guard.log.length ∧ t.guard.rtc = s.guard.rtc ∧ t.lc.state = s.lc.state ∧ t.store.journal = s.store.journal ∧
      t.store.dual = s.store.dual) ∧
  (∀ (m : Mon) (raw : List Sample) (s : State), s.live = true → s.fired m false raw = true → m ∉ s.guard.active → 3 ≤ s.guard.level m.cls → s.guard.arm = false → s.guard.log.length < 16 →
    ∃ t, exec (.tamperAlarm m raw) s = .next t ∧ t.guard.bbk = s.guard.bbk ∧ t.guard.tampered = s.guard.tampered ∧ t.guard.log.length = s.guard.log.length + 1 ∧
      t.hrb.tampLevel = BitVec.ofNat 4 (max 1 s.hrb.tampLevel.toNat) ∧ s.onlyIn [.guard, .hrb, .store, .link, .treor] t) ∧
  (∀ (m : Mon) (raw : List Sample) (s : State), s.live = true → s.fired m false raw = true → m ∉ s.guard.active → 3 ≤ s.guard.level m.cls → s.guard.arm = true → s.guard.bbk ≠ .valid →
    s.guard.log.length < 16 →
    ∃ t e, exec (.tamperAlarm m raw) s = .next t ∧ t.guard.bbk = s.guard.bbk ∧ t.guard.log = s.guard.log ++ [e] ∧ e.cls.getLsbD 6 = false ∧ e.cls.getLsbD 7 = true ∧
      t.guard.tampered = s.guard.tampered) ∧
  (∀ (m : Mon) (raw : List Sample) (s : State), m ∈ s.guard.active ∨ s.fired m false raw = false → exec (.tamperAlarm m raw) s = .next s) ∧
  (∀ (m : Mon) (raw : List Sample) (s : State), s.fired m (!s.live) raw = false →
    exec (.tamperFilterRelease m raw) s = .next { s with guard := { s.guard.sampled m raw with active := s.guard.active.filter (· != m) } }) ∧
  (∀ (m : Mon) (raw : List Sample) (s : State), s.fired m (!s.live) raw = true → exec (.tamperFilterRelease m raw) s = .next s) ∧
  (∀ (m : Mon) (s : State), exec (.builtinTest m .pass) s = .next s) ∧
  (∀ (m : Mon) (s : State), s.live = true → s.guard.tests m = true → m ∉ s.guard.active → s.guard.level m.cls = 1 → s.commits = true →
    ∃ t e f rest, exec (.builtinTest m .noRelease) s = .next t ∧ t.guard = { s.guard with active := s.guard.active ++ [m] } ∧
      t.hrb.tampSeen = s.hrb.tampSeen ||| BitVec.ofNat 8 (2 ^ m.cls.val) ∧ t.store.log = rest ++ [e, f] ∧ e.code = 0x25 ∧ e.data = padTo 40 [m.unit, 1] ∧ f.code = 0x24 ∧
      s.onlyIn [.guard, .hrb, .store, .link, .treor] t) ∧
  (∀ (m : Mon) (s : State), s.live = true → s.guard.tests m = true → m ∉ s.guard.active → s.guard.level m.cls = 1 →
    ∃ t, exec (.builtinTest m .noDetect) s = .next t ∧ t.guard = s.guard ∧ t.hrb.tampSeen = s.hrb.tampSeen ||| BitVec.ofNat 8 (2 ^ m.cls.val) ∧
      s.onlyIn [.hrb, .store, .link, .treor] t) ∧
  (∀ (l : Fin 48) (x : Sample) (b : Bool) (s : State), s.guard.param (0x890 + l.val) 0 = 1 → s.guard.param 0x932 0 = 1 → x.reading = .level (some b) →
    x.age ≤ s.guard.param 0x933 0 →
    (s.fired ⟨1, BitVec.ofNat 8 l.val⟩ false [x] = true ↔ b ≠ Config.patternBit (Config.patternNext s.guard.pattern) l.val) ∧
      (s.guard.sampled ⟨1, BitVec.ofNat 8 l.val⟩ [x]).pattern = Config.patternNext s.guard.pattern) ∧
  (∀ (n : Fin 8) (x : Sample) (b : Bool) (raw : List Sample) (s : State), s.guard.param 0x93A 0 = 1 → x.reading = .level (some b) → x.age ≤ s.guard.param 0x93B 0 →
    (s.guard.param (0x920 + 2 * n.val) 0 ≠ 1 → s.fired ⟨5, BitVec.ofNat 8 n.val⟩ false raw = false) ∧
      (s.guard.param (0x920 + 2 * n.val) 0 = 1 → s.guard.param (0x921 + 2 * n.val) 0 = 0 → (s.fired ⟨5, BitVec.ofNat 8 n.val⟩ false [x] = true ↔ b = false)))

/-- R442 (BATTERY_MODE_ALARM): in battery mode a filtered alarm erases the BBK where the domain is armed, is written to the battery log in either case, and does nothing else;
one of a class at IGNORE does nothing. The HRB, where it is served in the save, shows the firing in SEEN. -/
def Obligations.BatteryModeAlarms : Prop :=
  (∀ (m : Mon) (raw : List Sample) (s : State), s.live = false → s.guard.powered = true → m.inBattery = true → s.fired m true raw = true → m ∉ s.guard.active → s.guard.level m.cls ≠ 0 →
    s.guard.log.length < 16 →
    ∃ t e, exec (.batteryModeAlarm m raw) s = .next t ∧ t.guard.bbk = (if s.guard.arm = true ∧ s.guard.bbk = .valid then .erased else s.guard.bbk) ∧
      t.guard.log = s.guard.log ++ [e] ∧ e.count = s.rawCount m true raw ∧ e.rtc = s.guard.rtc ∧ e.cls.getLsbD 7 = s.guard.arm ∧
      t.guard = { s.guard.sampled m raw with bbk := t.guard.bbk, bbkKey := t.guard.bbkKey, log := t.guard.log, active := s.guard.active ++ [m] } ∧
      t = { s with guard := t.guard, hrb := if s.released then { s.hrb with tampSeen := s.hrb.tampSeen ||| BitVec.ofNat 8 (2 ^ m.cls.val) } else s.hrb }) ∧
  (∀ (m : Mon) (raw : List Sample) (s : State), s.live = false → s.guard.powered = true → m.inBattery = true → s.fired m true raw = true → m ∉ s.guard.active → s.guard.level m.cls ≠ 0 →
    16 ≤ s.guard.log.length →
    ∃ t, exec (.batteryModeAlarm m raw) s = .next t ∧ t.guard.bbk = (if s.guard.arm = true ∧ s.guard.bbk = .valid then .erased else s.guard.bbk) ∧
      t.guard.log = s.guard.log ∧ t.guard.ovf = sat16 s.guard.ovf ∧
      t = { s with guard := t.guard, hrb := if s.released then { s.hrb with tampSeen := s.hrb.tampSeen ||| BitVec.ofNat 8 (2 ^ m.cls.val) } else s.hrb }) ∧
  (∀ (m : Mon) (raw : List Sample) (s : State), s.live = false → s.guard.powered = true → m.inBattery = true → s.fired m true raw = true → m ∉ s.guard.active → s.guard.level m.cls = 0 →
    exec (.batteryModeAlarm m raw) s = .next { s with
      guard := { s.guard.sampled m raw with active := s.guard.active ++ [m] }
      hrb := if s.released then { s.hrb with tampSeen := s.hrb.tampSeen ||| BitVec.ofNat 8 (2 ^ m.cls.val) } else s.hrb }) ∧
  (∀ (m : Mon) (raw : List Sample) (s : State), m ∈ s.guard.active ∨ s.live = true ∨ s.fired m true raw = false → exec (.batteryModeAlarm m raw) s = .next s)

/-- R446, R498 (BATTERY_SOURCE_SWITCH, BATTERY_DOMAIN_LOSS, BATTERY_DOMAIN_POWER_ON): a change of source loses nothing, a loss of the rail loses all that the domain holds, and
power-on leaves the BBK LOST, the log empty, the RTC at 0 and not set, and the domain disarmed. -/
def Obligations.BatteryDomainHolds : Prop :=
  (∀ (b : Bool) (s : State), s.guard.powered = true → exec (.batterySourceSwitch b) s = .next { s with power := { s.power with mainPwr := b } }) ∧
  (∀ s : State, ∃ t, exec .batteryDomainLoss s = .next t ∧ t.guard.powered = false ∧ t.guard.bbk = .lost ∧ t.guard.log = [] ∧ t.guard.copy = [] ∧
    t.guard.tampered = s.guard.tampered ∧ t.guard.rekey = s.guard.rekey ∧ t.power = { s.power with mainPwr := false } ∧ s.onlyIn [.guard, .power] t) ∧
  (∀ (b : Bool) (s : State), s.guard.powered = false →
    ∃ t, exec (.batteryDomainPowerOn b) s = .next t ∧ t.guard.powered = true ∧ t.guard.bbk = .lost ∧ t.guard.log = [] ∧ t.guard.ovf = 0 ∧ t.guard.rtc = 0 ∧
      t.guard.rtcSub = 0 ∧ t.guard.rtcSet = false ∧ t.guard.arm = false ∧ t.guard.copy = [] ∧ t.guard.active = [] ∧ t.guard.tampered = s.guard.tampered ∧
      t.power = { s.power with mainPwr := b } ∧ s.onlyIn [.guard, .power] t) ∧
  (∀ (b : Bool) (s : State), s.guard.powered = true → exec (.batteryDomainPowerOn b) s = .next s)

/-- The command at the front of the queue is run on the state with the queue's rest; with an empty queue one second passes (the second part is the model's choice, log 20). -/
def Obligations.StepTakesTheFront : Prop :=
  (∀ (c : Instr) (rest : List Instr) (s : State), s.pending = c :: rest → step s = exec c { s with pending := rest }) ∧
  (∀ s : State, s.pending = [] → ∃ t, step s = .next t ∧ t.guard.rtc = (if s.guard.powered then s.guard.rtc + 1 else s.guard.rtc) ∧
    t.hrb.uptime = (if s.released then s.hrb.uptime + 1 else s.hrb.uptime) ∧ s.onlyIn [.guard, .bay, .hrb, .lc, .bqt] t)

/-- Every command has its outcome, whatever the state: none ends in a fault or a refusal, and none changes the queue of the commands that wait. -/
def Obligations.EveryCommandCompletes : Prop :=
  ∀ (c : Instr) (s : State), ∃ t, exec c s = .next t ∧ t.pending = s.pending

/-- R182, R217, R331, R378, R381, R435 and the reset columns of the register tables: what reset leaves. The main side is held, nothing waits. -/
def Obligations.ResetLeaves : Prop :=
  State.reset.pending = [] ∧ State.reset.power.run = .held ∧ State.reset.hrb.ienA = 0 ∧ State.reset.hrb.ienB = 0 ∧ State.reset.hrb.ienC = 0 ∧
  State.reset.irqLow = false ∧ State.reset.treor.verMaj = 0 ∧ State.reset.treor.session = none ∧ State.reset.mint.state = .startup ∧ State.reset.mint.pool = [] ∧
  State.reset.mint.restarts = 0 ∧ State.reset.mint.testSrc = 0 ∧ State.reset.sprig.frame = 0 ∧ State.reset.hrb.tampSeen = 0 ∧ State.reset.hrb.tampLevel = 0 ∧
  (∀ p : Fin 512, (State.reset.sprig.ports[p]).state = .off ∧ (State.reset.sprig.ports[p]).page.busy = false) ∧
  (∀ i : Fin 128, (State.reset.tenants.slots[i]).state = .free ∧ State.reset.store.slotEpoch[i] = 1) ∧
  (∀ c : Fin 8, (State.reset.tenants.cores[c]).slot = none ∧ (State.reset.tenants.cores[c]).mpu.en = false) ∧
  (∀ i : Fin 128, (State.reset.kct.pages[i]).busy = false ∧ (State.reset.pke.pages[i]).busy = false ∧ (State.reset.pke.pages[i]).hbusy = false)

/-- The three invariants hold at reset: the battery log, the epochs, the form of the tag memory. -/
def Obligations.ResetMeetsInvariants : Prop :=
  State.reset.logOk ∧ State.reset.epochsOk ∧ State.reset.tagOk

/-- R447: every step keeps the battery event log within its 16 entries, with the mark of the imported ones inside it. -/
def Obligations.StepKeepsBatteryLog : Prop :=
  ∀ s t : State, s.logOk → step s = .next t → t.logOk

/-- R18: no step leaves an epoch of a slot, a port or a Bay channel at 0x0000. -/
def Obligations.StepKeepsEpochs : Prop :=
  ∀ s t : State, s.epochsOk → step s = .next t → t.epochsOk

/-- Every step keeps the tag memory in its one canonical form: addresses rising, no listed byte at its unwritten value. -/
def Obligations.StepKeepsTagMemory : Prop :=
  ∀ s t : State, s.tagOk → step s = .next t → t.tagOk

/-- R377 (MAIN_RESET_RELEASE, SUPPLY_LOSS, SAVE_DONE, RESET_N_ASSERT): HRB_RSTCAUSE.CAUSE is 1 where a supply of Table 16-1 fell below its hold threshold since the previous release,
else 3 where the run before ended in the save, else 2; the release starts the account again. -/
def Obligations.ResetCauseIsRecorded : Prop :=
  (∀ (pins : PowerUp) (s : State), 765 ≤ pins.levels.core → 950 ≤ pins.levels.phy → 1680 ≤ pins.levels.io → pins.pwrFailN = true → pins.resetN = true →
    pins.cellOk = true → s.power.run = .held →
    ∃ t, exec (.mainResetRelease pins) s = .next t ∧
      t.hrb.rstCause = (if s.power.fell = true then 1 else if s.power.savedRun = true then 3 else 2) ∧ t.power.fell = false ∧ t.power.savedRun = false) ∧
  (∀ (lv : Levels) (s : State), s.power.run ≠ .saveDone ∨ s.power.savedRun = true → ∃ t, exec (.supplyLoss lv) s = .next t ∧
    t.power.fell = (s.power.fell || decide (lv.core < 720 ∨ lv.phy < 900 ∨ lv.io < 1600)) ∧ t.power.savedRun = s.power.savedRun) ∧
  (∀ (dur : BitVec 16) (s : State), s.power.run = .saving →
    ∃ t, exec (.saveDone dur) s = .next t ∧ t.power.savedRun = true ∧ t.power.fell = s.power.fell) ∧
  (∀ s : State, s.power.run ≠ .saveDone ∨ s.power.savedRun = true → ∃ t, exec .resetNAssert s = .next t ∧ t.power.fell = s.power.fell ∧ t.power.savedRun = s.power.savedRun)

/-- R182 (HRB_IEN_WRITE, W1C_CLEAR): IRQ_N is low exactly while a flag of HRB_EVT_A, HRB_EVT_B or HRB_EVT_C is set with its enable bit set, the main side is out of reset and no save
has begun; a set that lands with a clear of the same flag keeps it low. -/
def Obligations.InterruptLineFollowsFlags : Prop :=
  (∀ s : State, s.irqLow = true ↔ s.live = true ∧ ∃ i : Fin 6, (s.hrb.evtA[i].set = true ∧ s.hrb.ienA.getLsbD i = true) ∨
    (s.hrb.evtB[i].set = true ∧ s.hrb.ienB.getLsbD i = true) ∨ (s.hrb.evtC[i].set = true ∧ s.hrb.ienC.getLsbD i = true)) ∧
  (∀ (v w : Word) (i : Fin 6) (s : State), s.live = true → w.getLsbD i = true → s.hrb.ienA.getLsbD i = true →
    ∃ t, exec (.w1cClear (.hrb 0x080) v w) s = .next t ∧ t.irqLow = true) ∧
  (∀ (v w : Word) (i : Fin 6) (s : State), s.live = true → w.getLsbD i = true → s.hrb.ienB.getLsbD i = true →
    ∃ t, exec (.w1cClear (.hrb 0x088) v w) s = .next t ∧ t.irqLow = true) ∧
  (∀ (v w : Word) (i : Fin 6) (s : State), s.live = true → w.getLsbD i = true → s.hrb.ienC.getLsbD i = true →
    ∃ t, exec (.w1cClear (.hrb 0x090) v w) s = .next t ∧ t.irqLow = true) ∧
  (∀ (i : Fin 6) (v : Word) (s : State), s.live = true → s.hrb.evtA[i].set = true → v.getLsbD i = true →
    ∃ t, exec (.hrbIenWrite 0 v) s = .next t ∧ t.irqLow = true)
end

