-- ==== Sys2Proof/Laws/Memory.lean ====
section
/-! SUPPORT. Sparse memories: every operation keeps the canonical form, and a read after a write gives what was written
there and what stood elsewhere. -/

namespace Sys2Proof.Machine.Memory

theorem wfFrom_mono {m : List Host.Cell} {lo hi : Nat} (h : wfFrom hi m = true) (le : lo ≤ hi) : wfFrom lo m = true := by
  cases m with
  | nil => rfl
  | cons c r =>
    obtain ⟨a, b⟩ := c
    simp only [wfFrom, Bool.and_eq_true, decide_eq_true_eq] at h ⊢
    exact ⟨⟨Nat.le_trans le h.1.1, h.1.2⟩, h.2⟩

/-- Above its bound a canonical memory lists nothing. -/
theorem read_below {m : List Host.Cell} {lo a : Nat} (h : wfFrom lo m = true) (lt : a < lo) : read m a = blank := by
  induction m generalizing lo with
  | nil => rfl
  | cons c r ih =>
    obtain ⟨x, b⟩ := c
    simp only [wfFrom, Bool.and_eq_true, decide_eq_true_eq] at h
    have : x ≠ a := by omega
    simp only [read, if_neg this]
    exact ih h.2 (by omega)

theorem write_wfFrom {m : List Host.Cell} {lo : Nat} (a : Nat) (v : Byte) (h : wfFrom lo m = true) (le : lo ≤ a) :
    wfFrom lo (write m a v) = true := by
  induction m generalizing lo with
  | nil => by_cases e : v = blank <;> simp [write, wfFrom, e, le]
  | cons c r ih =>
    obtain ⟨x, b⟩ := c
    simp only [wfFrom, Bool.and_eq_true, decide_eq_true_eq] at h
    simp only [write]
    split
    · simp only [wfFrom, Bool.and_eq_true, decide_eq_true_eq]
      exact ⟨h.1, ih h.2 (by omega)⟩
    · split
      · split
        · exact wfFrom_mono h.2 (by omega)
        · next hx e =>
          subst hx
          simp only [wfFrom, Bool.and_eq_true, decide_eq_true_eq, bne_iff_ne]
          exact ⟨⟨le, e⟩, h.2⟩
      · split
        · simp only [wfFrom, Bool.and_eq_true, decide_eq_true_eq]; exact h
        · next e =>
          simp only [wfFrom, Bool.and_eq_true, decide_eq_true_eq, bne_iff_ne]
          exact ⟨⟨le, e⟩, ⟨by omega, by simpa using h.1.2⟩, h.2⟩

/-- A write keeps the canonical form. -/
theorem write_wf {m : List Host.Cell} (a : Nat) (v : Byte) (h : wf m = true) : wf (write m a v) = true :=
  write_wfFrom a v h (Nat.zero_le a)

theorem writeN_wf {m : List Host.Cell} (a : Nat) (b : Bytes) (h : wf m = true) : wf (writeN m a b) = true := by
  induction b generalizing m a with
  | nil => exact h
  | cons v vs ih => exact ih (a + 1) (write_wf a v h)

theorem ofBytes_wfFrom (a : Nat) (b : Bytes) : wfFrom a (ofBytes a b) = true := by
  induction b generalizing a with
  | nil => rfl
  | cons v vs ih =>
    simp only [ofBytes]
    split
    · exact wfFrom_mono (ih (a + 1)) (Nat.le_succ a)
    · next e => simp [wfFrom, e, ih]

theorem ofBytes_wf (a : Nat) (b : Bytes) : wf (ofBytes a b) = true := wfFrom_mono (ofBytes_wfFrom a b) (Nat.zero_le a)

theorem filter_wfFrom {m : List Host.Cell} {lo : Nat} (p : Host.Cell → Bool) (h : wfFrom lo m = true) :
    wfFrom lo (m.filter p) = true := by
  induction m generalizing lo with
  | nil => rfl
  | cons c r ih =>
    obtain ⟨x, b⟩ := c
    simp only [wfFrom, Bool.and_eq_true, decide_eq_true_eq] at h
    rw [List.filter_cons]
    split
    · simp only [wfFrom, Bool.and_eq_true, decide_eq_true_eq]
      exact ⟨h.1, ih h.2⟩
    · exact wfFrom_mono (ih h.2) (by omega)

theorem filter_wf {m : List Host.Cell} (p : Host.Cell → Bool) (h : wf m = true) : wf (m.filter p) = true := filter_wfFrom p h

theorem read_write_sameFrom {m : List Host.Cell} {lo : Nat} (a : Nat) (v : Byte) (h : wfFrom lo m = true) :
    read (write m a v) a = v := by
  induction m generalizing lo with
  | nil => by_cases e : v = blank <;> simp [write, read, e]
  | cons c r ih =>
    obtain ⟨x, b⟩ := c
    simp only [wfFrom, Bool.and_eq_true, decide_eq_true_eq] at h
    simp only [write]
    split
    · have : x ≠ a := by omega
      simp only [read, if_neg this]
      exact ih h.2
    · split
      · split
        · next hx e => subst e; exact read_below h.2 (by omega)
        · simp [read]
      · split
        · next e =>
          subst e
          have : x ≠ a := by omega
          simp only [read, if_neg this]
          exact read_below h.2 (by omega)
        · simp [read]

/-- A read where a byte was written gives it. -/
theorem read_write_same {m : List Host.Cell} (a : Nat) (v : Byte) (h : wf m = true) : read (write m a v) a = v :=
  read_write_sameFrom a v h

/-- A read anywhere else gives what it gave. -/
theorem read_write_ne {m : List Host.Cell} (a c : Nat) (v : Byte) (ne : a ≠ c) : read (write m a v) c = read m c := by
  induction m with
  | nil => by_cases e : v = blank <;> simp [write, read, e, ne]
  | cons p r ih =>
    obtain ⟨x, b⟩ := p
    simp only [write]
    split
    · simp only [read, ih]
    · split
      · next hx => subst hx; split <;> simp [read, ne]
      · split
        · rfl
        · simp [read, ne]

theorem read_writeN_out {m : List Host.Cell} (a c : Nat) (b : Bytes) (out : c < a ∨ a + b.length ≤ c) :
    read (writeN m a b) c = read m c := by
  induction b generalizing m a with
  | nil => rfl
  | cons v vs ih =>
    simp only [List.length_cons] at out
    simp only [writeN]
    rw [ih (a + 1) (by omega), read_write_ne a c v (by omega)]

/-- Bytes written read back. -/
theorem readN_writeN {m : List Host.Cell} (a : Nat) (b : Bytes) (h : wf m = true) : readN (writeN m a b) a b.length = b := by
  induction b generalizing m a with
  | nil => rfl
  | cons v vs ih =>
    simp only [writeN, List.length_cons, readN]
    rw [ih (a + 1) (write_wf a v h), read_writeN_out (a + 1) a vs (by omega), read_write_same a v h]

theorem readN_writeN_out {m : List Host.Cell} (a c n : Nat) (b : Bytes) (out : c + n ≤ a ∨ a + b.length ≤ c) :
    readN (writeN m a b) c n = readN m c n := by
  induction n generalizing c with
  | zero => rfl
  | succ n ih => simp only [readN]; rw [read_writeN_out a c b (by omega), ih (c + 1) (by omega)]

@[simp] theorem readN_length (m : List Host.Cell) (a n : Nat) : (readN m a n).length = n := by
  induction n generalizing a with
  | zero => rfl
  | succ n ih => simp [readN, ih]

end Sys2Proof.Machine.Memory
end

