-- ==== Sys2Proof/Machine/Package.lean ====
section
/-! DEFINITION. The ball map of the package: what each of the 1,764 balls is (R511 to R515). -/

namespace Sys2Proof.Machine

/-- The letters of the 42 rows, in the order of their index (Table 22-2). -/
def rowLetters : List String :=
  ["A", "B", "C", "D", "E", "F", "G", "H", "J", "K", "L", "M", "N", "P", "T", "U", "V", "W", "Y"] ++
  ["AA", "AB", "AC", "AD", "AE", "AF", "AG", "AH", "AJ", "AK", "AL", "AM", "AN", "AP", "AT", "AU", "AV", "AW", "AY", "BA", "BB", "BC", "BD"]

/-- The lane pairs of the host link, in the order of their rows AD to AG. -/
inductive LinkPair where
  | huTx | huRx | hdTx | hdRx
  deriving DecidableEq, Repr

/-- Single balls of the centre block (Table 22-5). -/
inductive Signal where
  | xtal32kIn | xtal32kOut | baySealN | tagLa | tagLb | xtal27In | xtal27Out | pwrFailN | resetN | nvWpN | irqN | tamperOutN
  | tck | tms | tdi | tdo | trstN
  deriving DecidableEq, Repr

/-- Supplies as the balls name them (Table 21-1). -/
inductive Rail where
  | vddCore | vddPhy | vddIo | vddBay | vbat | vss
  deriving DecidableEq, Repr

/-- What a ball is (Table 22-4). `neg` tells _N from _P, `b` MPnn_B from MPnn_A, `sns` ENCn_SNS from ENCn_DRV. -/
inductive Ball where
  | sprig (n : Nat) (neg : Bool)
  | meter (n : Nat) (b : Bool)
  | link (p : LinkPair) (lane : Nat) (neg : Bool)
  | enc (n : Nat) (sns : Bool)
  | signal (x : Signal)
  | factory (n : Nat)
  | power (r : Rail)
  deriving DecidableEq, Repr

/-- Row index and columns of SPnnn_P and SPnnn_N (R513). -/
def sprigBalls (n : Nat) : Nat × Nat × Nat :=
  let k := n / 16
  let g := n % 16 / 2
  let p := if n % 2 = 0 then 5 * g + 1 else 5 * g + 3
  (if k < 16 then k + 1 else k + 11, p, p + 1)

/-- Row index and columns of MPnn_A and MPnn_B (R514). -/
def meterBalls (m : Nat) : Nat × Nat × Nat :=
  if m < 40 then (17 + m / 4, 2 * (m % 4) + 1, 2 * (m % 4) + 2)
  else (17 + (m - 40) / 4, 35 + 2 * ((m - 40) % 4), 36 + 2 * ((m - 40) % 4))

/-- Row index and columns of the _P and _N balls of a host link lane (R514). -/
def linkBalls (p : LinkPair) (lane : Nat) : Nat × Nat × Nat :=
  (match p with | .huTx => 23 | .huRx => 24 | .hdTx => 25 | .hdRx => 26, 35 + 2 * lane, 36 + 2 * lane)

/-- A ball of a sprig field, by its row's number among the 32 and its column (R513). -/
def sprigField (k c : Nat) : Ball :=
  if 40 < c ∨ c % 5 = 0 then .power .vss
  else .sprig (16 * k + 2 * ((c - 1) / 5) + (if 2 < (c - 1) % 5 + 1 then 1 else 0)) (c % 5 = 2 || c % 5 = 4)

/-- A ball of row V in the centre block. -/
def centreV (c : Nat) : Ball :=
  if c < 25 then .enc ((c - 9) / 2) (c % 2 == 0)
  else match c with
    | 25 => .power .vbat
    | 26 => .signal .xtal32kIn
    | 27 => .signal .xtal32kOut
    | 28 => .power .vss
    | 29 => .signal .baySealN
    | _ => .power .vddBay

/-- A ball of row AG in the centre block. -/
def centreAg (c : Nat) : Ball :=
  match c with
  | 9 => .signal .tagLa
  | 10 => .signal .tagLb
  | 11 => .power .vss
  | 12 => .signal .xtal27In
  | 13 => .signal .xtal27Out
  | 14 => .power .vss
  | 15 => .signal .pwrFailN
  | 16 => .signal .resetN
  | 17 => .signal .nvWpN
  | 18 => .signal .irqN
  | 19 => .signal .tamperOutN
  | 20 => .signal .tck
  | 21 => .signal .tms
  | 22 => .signal .tdi
  | 23 => .signal .tdo
  | 24 => .signal .trstN
  | _ => .factory (c - 25)

/-- The ball at a row index and a column, 1 to 42 each (Tables 22-3 and 22-5). -/
def ballAt (r c : Nat) : Ball :=
  if r < 17 then sprigField (r - 1) c
  else if 26 < r then sprigField (r - 11) c
  else if c < 9 then .meter (4 * (r - 17) + (c - 1) / 2) (c % 2 == 0)
  else if 34 < c then
    if r < 23 then .meter (40 + 4 * (r - 17) + (c - 35) / 2) (c % 2 == 0)
    else .link (match r with | 23 => .huTx | 24 => .huRx | 25 => .hdTx | _ => .hdRx) ((c - 35) / 2) (c % 2 == 0)
  else if r = 17 then centreV c
  else if r < 21 then .power .vddPhy
  else if r < 25 then .power .vddCore
  else if r = 25 then .power (if c < 25 then .vddIo else if c < 28 then .vddBay else .vss)
  else centreAg c

/-- Every ball, by row and column. -/
def allBalls : List Ball := (List.range 42).flatMap fun r => (List.range 42).map fun c => ballAt (r + 1) (c + 1)

end Sys2Proof.Machine
end

