-- ==== Sys2Proof/Laws/Package.lean ====
section
/-! SUPPORT. The ball map: the rules of R513 and R514 name the balls that the map holds there. -/

namespace Sys2Proof.Machine

theorem ballAt_sprigBalls : ∀ n : Fin 512, ballAt (sprigBalls n.val).1 (sprigBalls n.val).2.1 = .sprig n.val false ∧
    ballAt (sprigBalls n.val).1 (sprigBalls n.val).2.2 = .sprig n.val true := by
  decide +kernel

theorem ballAt_meterBalls : ∀ n : Fin 64, ballAt (meterBalls n.val).1 (meterBalls n.val).2.1 = .meter n.val false ∧
    ballAt (meterBalls n.val).1 (meterBalls n.val).2.2 = .meter n.val true := by
  decide +kernel

/-- The counts of Table 22-4 for the supplies and ground. -/
theorem rail_counts : [Rail.vddCore, .vddPhy, .vddIo, .vddBay, .vbat, .vss].map (fun r => allBalls.countP (· == .power r)) =
    [104, 78, 16, 8, 1, 330] := by
  decide +kernel

end Sys2Proof.Machine
end

