-- ==== Sys2Proof/Laws/Requests.lean ====
section
/-! SUPPORT. The front end of a request (Table 08-3), said once: a request meets a device that does not answer, or is refused
with the status of the first check that fails, or is taken; and what one step can be. -/

namespace Sys2Proof.Machine

/-- The link no longer holds the request. -/
def State.undelivered (op : BitVec 16) (r : Req) (s : State) : State :=
  { s with link := { s.link with delivered := dropDelivered op r s.link.delivered } }

/-- Everything that the front end can do: the request waits for its turn, meets a device that does not answer, is refused, or
is carried out. -/
theorem State.request_cases (op : BitVec 16) (r : Req) (fits : Bool) (k : State → State) (s : State) :
    (s.live = true ∧ s.turn op r = false ∧ s.request op r fits k = s.arrive op r) ∨
    ((s.undelivered op r).live = false ∧ s.request op r fits k = s.undelivered op r) ∨
    ((s.undelivered op r).live = true ∧ ∃ st p, (s.undelivered op r).verdict op r fits = .refuse st p ∧
      s.request op r fits k = (s.undelivered op r).respond r op st p) ∨
    ((s.undelivered op r).live = true ∧ (s.undelivered op r).verdict op r fits = .take ∧
      s.request op r fits k = k ((s.undelivered op r).taken r)) := by
  unfold State.request
  split
  · rename_i h
    simp only [Bool.and_eq_true, Bool.not_eq_true'] at h
    exact .inl ⟨h.1, h.2, rfl⟩
  · refine .inr ?_
    unfold State.requestNow State.undelivered
    simp only
    split
    · rename_i h
      split
      · rename_i st p hv
        exact .inr (.inl ⟨h, st, p, hv, rfl⟩)
      · rename_i hv
        exact .inr (.inr ⟨h, hv, rfl⟩)
    · rename_i h
      exact .inl ⟨by simpa using h, rfl⟩

/-- When a request is taken. -/
theorem State.verdict_take {op : BitVec 16} {r : Req} {fits : Bool} {s : State} :
    s.verdict op r fits = .take ↔
      s.power.run = .running ∧ s.admitHead op r = none ∧ fits = true ∧ s.outAll < 256 := by
  unfold State.verdict
  cases hr : s.power.run <;> simp only [reduceCtorEq, false_and]
  cases hh : s.admitHead op r with
  | some x => simp
  | none =>
    cases fits
    · simp
    · by_cases h : 256 ≤ s.outAll
      · simp [h]
      · simp [h]; omega

/-- What one step is: the command in front, or a second. -/
theorem step_cases (s : State) :
    (s.pending = [] ∧ step s = .next s.tick) ∨
    ∃ c rest, s.pending = c :: rest ∧ step s = exec c { s with pending := rest } := by
  unfold step
  split
  · rename_i h; exact .inl ⟨h, rfl⟩
  · rename_i c rest h; exact .inr ⟨c, rest, h, rfl⟩

end Sys2Proof.Machine
end

