-- ==== Sys2Proof/Laws/State.lean ====
section
/-! SUPPORT. Updates of one unit and the shared operations on flags and waiting requests, field by field: what each writes,
and that it leaves every other field as it was. -/

namespace Sys2Proof.Machine

@[simp] theorem State.updBay_bay (s : State) (f : Bay → Bay) : (s.updBay f).bay = f s.bay := rfl
@[simp] theorem State.updBay_power (s : State) (f : Bay → Bay) : (s.updBay f).power = s.power := rfl
@[simp] theorem State.updBay_sprig (s : State) (f : Bay → Bay) : (s.updBay f).sprig = s.sprig := rfl
@[simp] theorem State.updBay_link (s : State) (f : Bay → Bay) : (s.updBay f).link = s.link := rfl
@[simp] theorem State.updBay_hrb (s : State) (f : Bay → Bay) : (s.updBay f).hrb = s.hrb := rfl
@[simp] theorem State.updBay_treor (s : State) (f : Bay → Bay) : (s.updBay f).treor = s.treor := rfl
@[simp] theorem State.updBay_tenants (s : State) (f : Bay → Bay) : (s.updBay f).tenants = s.tenants := rfl
@[simp] theorem State.updBay_kct (s : State) (f : Bay → Bay) : (s.updBay f).kct = s.kct := rfl
@[simp] theorem State.updBay_cipher (s : State) (f : Bay → Bay) : (s.updBay f).cipher = s.cipher := rfl
@[simp] theorem State.updBay_pke (s : State) (f : Bay → Bay) : (s.updBay f).pke = s.pke := rfl
@[simp] theorem State.updBay_mint (s : State) (f : Bay → Bay) : (s.updBay f).mint = s.mint := rfl
@[simp] theorem State.updBay_store (s : State) (f : Bay → Bay) : (s.updBay f).store = s.store := rfl
@[simp] theorem State.updBay_guard (s : State) (f : Bay → Bay) : (s.updBay f).guard = s.guard := rfl
@[simp] theorem State.updBay_lc (s : State) (f : Bay → Bay) : (s.updBay f).lc = s.lc := rfl
@[simp] theorem State.updBay_tag (s : State) (f : Bay → Bay) : (s.updBay f).tag = s.tag := rfl
@[simp] theorem State.updBay_bqt (s : State) (f : Bay → Bay) : (s.updBay f).bqt = s.bqt := rfl
@[simp] theorem State.updBay_free (s : State) (f : Bay → Bay) : (s.updBay f).free = s.free := rfl
@[simp] theorem State.updBay_pending (s : State) (f : Bay → Bay) : (s.updBay f).pending = s.pending := rfl

@[simp] theorem State.updBqt_bqt (s : State) (f : Bqt → Bqt) : (s.updBqt f).bqt = f s.bqt := rfl
@[simp] theorem State.updBqt_power (s : State) (f : Bqt → Bqt) : (s.updBqt f).power = s.power := rfl
@[simp] theorem State.updBqt_sprig (s : State) (f : Bqt → Bqt) : (s.updBqt f).sprig = s.sprig := rfl
@[simp] theorem State.updBqt_link (s : State) (f : Bqt → Bqt) : (s.updBqt f).link = s.link := rfl
@[simp] theorem State.updBqt_hrb (s : State) (f : Bqt → Bqt) : (s.updBqt f).hrb = s.hrb := rfl
@[simp] theorem State.updBqt_treor (s : State) (f : Bqt → Bqt) : (s.updBqt f).treor = s.treor := rfl
@[simp] theorem State.updBqt_tenants (s : State) (f : Bqt → Bqt) : (s.updBqt f).tenants = s.tenants := rfl
@[simp] theorem State.updBqt_kct (s : State) (f : Bqt → Bqt) : (s.updBqt f).kct = s.kct := rfl
@[simp] theorem State.updBqt_cipher (s : State) (f : Bqt → Bqt) : (s.updBqt f).cipher = s.cipher := rfl
@[simp] theorem State.updBqt_pke (s : State) (f : Bqt → Bqt) : (s.updBqt f).pke = s.pke := rfl
@[simp] theorem State.updBqt_mint (s : State) (f : Bqt → Bqt) : (s.updBqt f).mint = s.mint := rfl
@[simp] theorem State.updBqt_store (s : State) (f : Bqt → Bqt) : (s.updBqt f).store = s.store := rfl
@[simp] theorem State.updBqt_guard (s : State) (f : Bqt → Bqt) : (s.updBqt f).guard = s.guard := rfl
@[simp] theorem State.updBqt_lc (s : State) (f : Bqt → Bqt) : (s.updBqt f).lc = s.lc := rfl
@[simp] theorem State.updBqt_tag (s : State) (f : Bqt → Bqt) : (s.updBqt f).tag = s.tag := rfl
@[simp] theorem State.updBqt_bay (s : State) (f : Bqt → Bqt) : (s.updBqt f).bay = s.bay := rfl
@[simp] theorem State.updBqt_free (s : State) (f : Bqt → Bqt) : (s.updBqt f).free = s.free := rfl
@[simp] theorem State.updBqt_pending (s : State) (f : Bqt → Bqt) : (s.updBqt f).pending = s.pending := rfl

@[simp] theorem State.updKct_kct (s : State) (f : Kct → Kct) : (s.updKct f).kct = f s.kct := rfl
@[simp] theorem State.updKct_power (s : State) (f : Kct → Kct) : (s.updKct f).power = s.power := rfl
@[simp] theorem State.updKct_sprig (s : State) (f : Kct → Kct) : (s.updKct f).sprig = s.sprig := rfl
@[simp] theorem State.updKct_link (s : State) (f : Kct → Kct) : (s.updKct f).link = s.link := rfl
@[simp] theorem State.updKct_hrb (s : State) (f : Kct → Kct) : (s.updKct f).hrb = s.hrb := rfl
@[simp] theorem State.updKct_treor (s : State) (f : Kct → Kct) : (s.updKct f).treor = s.treor := rfl
@[simp] theorem State.updKct_tenants (s : State) (f : Kct → Kct) : (s.updKct f).tenants = s.tenants := rfl
@[simp] theorem State.updKct_cipher (s : State) (f : Kct → Kct) : (s.updKct f).cipher = s.cipher := rfl
@[simp] theorem State.updKct_pke (s : State) (f : Kct → Kct) : (s.updKct f).pke = s.pke := rfl
@[simp] theorem State.updKct_mint (s : State) (f : Kct → Kct) : (s.updKct f).mint = s.mint := rfl
@[simp] theorem State.updKct_store (s : State) (f : Kct → Kct) : (s.updKct f).store = s.store := rfl
@[simp] theorem State.updKct_guard (s : State) (f : Kct → Kct) : (s.updKct f).guard = s.guard := rfl
@[simp] theorem State.updKct_lc (s : State) (f : Kct → Kct) : (s.updKct f).lc = s.lc := rfl
@[simp] theorem State.updKct_tag (s : State) (f : Kct → Kct) : (s.updKct f).tag = s.tag := rfl
@[simp] theorem State.updKct_bay (s : State) (f : Kct → Kct) : (s.updKct f).bay = s.bay := rfl
@[simp] theorem State.updKct_bqt (s : State) (f : Kct → Kct) : (s.updKct f).bqt = s.bqt := rfl
@[simp] theorem State.updKct_free (s : State) (f : Kct → Kct) : (s.updKct f).free = s.free := rfl
@[simp] theorem State.updKct_pending (s : State) (f : Kct → Kct) : (s.updKct f).pending = s.pending := rfl

@[simp] theorem State.updLc_lc (s : State) (f : Lc → Lc) : (s.updLc f).lc = f s.lc := rfl
@[simp] theorem State.updLc_power (s : State) (f : Lc → Lc) : (s.updLc f).power = s.power := rfl
@[simp] theorem State.updLc_sprig (s : State) (f : Lc → Lc) : (s.updLc f).sprig = s.sprig := rfl
@[simp] theorem State.updLc_link (s : State) (f : Lc → Lc) : (s.updLc f).link = s.link := rfl
@[simp] theorem State.updLc_hrb (s : State) (f : Lc → Lc) : (s.updLc f).hrb = s.hrb := rfl
@[simp] theorem State.updLc_treor (s : State) (f : Lc → Lc) : (s.updLc f).treor = s.treor := rfl
@[simp] theorem State.updLc_tenants (s : State) (f : Lc → Lc) : (s.updLc f).tenants = s.tenants := rfl
@[simp] theorem State.updLc_kct (s : State) (f : Lc → Lc) : (s.updLc f).kct = s.kct := rfl
@[simp] theorem State.updLc_cipher (s : State) (f : Lc → Lc) : (s.updLc f).cipher = s.cipher := rfl
@[simp] theorem State.updLc_pke (s : State) (f : Lc → Lc) : (s.updLc f).pke = s.pke := rfl
@[simp] theorem State.updLc_mint (s : State) (f : Lc → Lc) : (s.updLc f).mint = s.mint := rfl
@[simp] theorem State.updLc_store (s : State) (f : Lc → Lc) : (s.updLc f).store = s.store := rfl
@[simp] theorem State.updLc_guard (s : State) (f : Lc → Lc) : (s.updLc f).guard = s.guard := rfl
@[simp] theorem State.updLc_tag (s : State) (f : Lc → Lc) : (s.updLc f).tag = s.tag := rfl
@[simp] theorem State.updLc_bay (s : State) (f : Lc → Lc) : (s.updLc f).bay = s.bay := rfl
@[simp] theorem State.updLc_bqt (s : State) (f : Lc → Lc) : (s.updLc f).bqt = s.bqt := rfl
@[simp] theorem State.updLc_free (s : State) (f : Lc → Lc) : (s.updLc f).free = s.free := rfl
@[simp] theorem State.updLc_pending (s : State) (f : Lc → Lc) : (s.updLc f).pending = s.pending := rfl

@[simp] theorem State.updMint_mint (s : State) (f : Mint → Mint) : (s.updMint f).mint = f s.mint := rfl
@[simp] theorem State.updMint_power (s : State) (f : Mint → Mint) : (s.updMint f).power = s.power := rfl
@[simp] theorem State.updMint_sprig (s : State) (f : Mint → Mint) : (s.updMint f).sprig = s.sprig := rfl
@[simp] theorem State.updMint_link (s : State) (f : Mint → Mint) : (s.updMint f).link = s.link := rfl
@[simp] theorem State.updMint_hrb (s : State) (f : Mint → Mint) : (s.updMint f).hrb = s.hrb := rfl
@[simp] theorem State.updMint_treor (s : State) (f : Mint → Mint) : (s.updMint f).treor = s.treor := rfl
@[simp] theorem State.updMint_tenants (s : State) (f : Mint → Mint) : (s.updMint f).tenants = s.tenants := rfl
@[simp] theorem State.updMint_kct (s : State) (f : Mint → Mint) : (s.updMint f).kct = s.kct := rfl
@[simp] theorem State.updMint_cipher (s : State) (f : Mint → Mint) : (s.updMint f).cipher = s.cipher := rfl
@[simp] theorem State.updMint_pke (s : State) (f : Mint → Mint) : (s.updMint f).pke = s.pke := rfl
@[simp] theorem State.updMint_store (s : State) (f : Mint → Mint) : (s.updMint f).store = s.store := rfl
@[simp] theorem State.updMint_guard (s : State) (f : Mint → Mint) : (s.updMint f).guard = s.guard := rfl
@[simp] theorem State.updMint_lc (s : State) (f : Mint → Mint) : (s.updMint f).lc = s.lc := rfl
@[simp] theorem State.updMint_tag (s : State) (f : Mint → Mint) : (s.updMint f).tag = s.tag := rfl
@[simp] theorem State.updMint_bay (s : State) (f : Mint → Mint) : (s.updMint f).bay = s.bay := rfl
@[simp] theorem State.updMint_bqt (s : State) (f : Mint → Mint) : (s.updMint f).bqt = s.bqt := rfl
@[simp] theorem State.updMint_free (s : State) (f : Mint → Mint) : (s.updMint f).free = s.free := rfl
@[simp] theorem State.updMint_pending (s : State) (f : Mint → Mint) : (s.updMint f).pending = s.pending := rfl

@[simp] theorem State.updPower_power (s : State) (f : Power → Power) : (s.updPower f).power = f s.power := rfl
@[simp] theorem State.updPower_sprig (s : State) (f : Power → Power) : (s.updPower f).sprig = s.sprig := rfl
@[simp] theorem State.updPower_link (s : State) (f : Power → Power) : (s.updPower f).link = s.link := rfl
@[simp] theorem State.updPower_hrb (s : State) (f : Power → Power) : (s.updPower f).hrb = s.hrb := rfl
@[simp] theorem State.updPower_treor (s : State) (f : Power → Power) : (s.updPower f).treor = s.treor := rfl
@[simp] theorem State.updPower_tenants (s : State) (f : Power → Power) : (s.updPower f).tenants = s.tenants := rfl
@[simp] theorem State.updPower_kct (s : State) (f : Power → Power) : (s.updPower f).kct = s.kct := rfl
@[simp] theorem State.updPower_cipher (s : State) (f : Power → Power) : (s.updPower f).cipher = s.cipher := rfl
@[simp] theorem State.updPower_pke (s : State) (f : Power → Power) : (s.updPower f).pke = s.pke := rfl
@[simp] theorem State.updPower_mint (s : State) (f : Power → Power) : (s.updPower f).mint = s.mint := rfl
@[simp] theorem State.updPower_store (s : State) (f : Power → Power) : (s.updPower f).store = s.store := rfl
@[simp] theorem State.updPower_guard (s : State) (f : Power → Power) : (s.updPower f).guard = s.guard := rfl
@[simp] theorem State.updPower_lc (s : State) (f : Power → Power) : (s.updPower f).lc = s.lc := rfl
@[simp] theorem State.updPower_tag (s : State) (f : Power → Power) : (s.updPower f).tag = s.tag := rfl
@[simp] theorem State.updPower_bay (s : State) (f : Power → Power) : (s.updPower f).bay = s.bay := rfl
@[simp] theorem State.updPower_bqt (s : State) (f : Power → Power) : (s.updPower f).bqt = s.bqt := rfl
@[simp] theorem State.updPower_free (s : State) (f : Power → Power) : (s.updPower f).free = s.free := rfl
@[simp] theorem State.updPower_pending (s : State) (f : Power → Power) : (s.updPower f).pending = s.pending := rfl

@[simp] theorem State.updHrb_hrb (s : State) (f : Hrb → Hrb) : (s.updHrb f).hrb = f s.hrb := rfl
@[simp] theorem State.updHrb_power (s : State) (f : Hrb → Hrb) : (s.updHrb f).power = s.power := rfl
@[simp] theorem State.updHrb_sprig (s : State) (f : Hrb → Hrb) : (s.updHrb f).sprig = s.sprig := rfl
@[simp] theorem State.updHrb_link (s : State) (f : Hrb → Hrb) : (s.updHrb f).link = s.link := rfl
@[simp] theorem State.updHrb_treor (s : State) (f : Hrb → Hrb) : (s.updHrb f).treor = s.treor := rfl
@[simp] theorem State.updHrb_tenants (s : State) (f : Hrb → Hrb) : (s.updHrb f).tenants = s.tenants := rfl
@[simp] theorem State.updHrb_kct (s : State) (f : Hrb → Hrb) : (s.updHrb f).kct = s.kct := rfl
@[simp] theorem State.updHrb_cipher (s : State) (f : Hrb → Hrb) : (s.updHrb f).cipher = s.cipher := rfl
@[simp] theorem State.updHrb_pke (s : State) (f : Hrb → Hrb) : (s.updHrb f).pke = s.pke := rfl
@[simp] theorem State.updHrb_mint (s : State) (f : Hrb → Hrb) : (s.updHrb f).mint = s.mint := rfl
@[simp] theorem State.updHrb_store (s : State) (f : Hrb → Hrb) : (s.updHrb f).store = s.store := rfl
@[simp] theorem State.updHrb_guard (s : State) (f : Hrb → Hrb) : (s.updHrb f).guard = s.guard := rfl
@[simp] theorem State.updHrb_lc (s : State) (f : Hrb → Hrb) : (s.updHrb f).lc = s.lc := rfl
@[simp] theorem State.updHrb_tag (s : State) (f : Hrb → Hrb) : (s.updHrb f).tag = s.tag := rfl
@[simp] theorem State.updHrb_bay (s : State) (f : Hrb → Hrb) : (s.updHrb f).bay = s.bay := rfl
@[simp] theorem State.updHrb_bqt (s : State) (f : Hrb → Hrb) : (s.updHrb f).bqt = s.bqt := rfl
@[simp] theorem State.updHrb_free (s : State) (f : Hrb → Hrb) : (s.updHrb f).free = s.free := rfl
@[simp] theorem State.updHrb_pending (s : State) (f : Hrb → Hrb) : (s.updHrb f).pending = s.pending := rfl

@[simp] theorem State.updSprig_sprig (s : State) (f : Sprig → Sprig) : (s.updSprig f).sprig = f s.sprig := rfl
@[simp] theorem State.updSprig_power (s : State) (f : Sprig → Sprig) : (s.updSprig f).power = s.power := rfl
@[simp] theorem State.updSprig_link (s : State) (f : Sprig → Sprig) : (s.updSprig f).link = s.link := rfl
@[simp] theorem State.updSprig_hrb (s : State) (f : Sprig → Sprig) : (s.updSprig f).hrb = s.hrb := rfl
@[simp] theorem State.updSprig_treor (s : State) (f : Sprig → Sprig) : (s.updSprig f).treor = s.treor := rfl
@[simp] theorem State.updSprig_tenants (s : State) (f : Sprig → Sprig) : (s.updSprig f).tenants = s.tenants := rfl
@[simp] theorem State.updSprig_kct (s : State) (f : Sprig → Sprig) : (s.updSprig f).kct = s.kct := rfl
@[simp] theorem State.updSprig_cipher (s : State) (f : Sprig → Sprig) : (s.updSprig f).cipher = s.cipher := rfl
@[simp] theorem State.updSprig_pke (s : State) (f : Sprig → Sprig) : (s.updSprig f).pke = s.pke := rfl
@[simp] theorem State.updSprig_mint (s : State) (f : Sprig → Sprig) : (s.updSprig f).mint = s.mint := rfl
@[simp] theorem State.updSprig_store (s : State) (f : Sprig → Sprig) : (s.updSprig f).store = s.store := rfl
@[simp] theorem State.updSprig_guard (s : State) (f : Sprig → Sprig) : (s.updSprig f).guard = s.guard := rfl
@[simp] theorem State.updSprig_lc (s : State) (f : Sprig → Sprig) : (s.updSprig f).lc = s.lc := rfl
@[simp] theorem State.updSprig_tag (s : State) (f : Sprig → Sprig) : (s.updSprig f).tag = s.tag := rfl
@[simp] theorem State.updSprig_bay (s : State) (f : Sprig → Sprig) : (s.updSprig f).bay = s.bay := rfl
@[simp] theorem State.updSprig_bqt (s : State) (f : Sprig → Sprig) : (s.updSprig f).bqt = s.bqt := rfl
@[simp] theorem State.updSprig_free (s : State) (f : Sprig → Sprig) : (s.updSprig f).free = s.free := rfl
@[simp] theorem State.updSprig_pending (s : State) (f : Sprig → Sprig) : (s.updSprig f).pending = s.pending := rfl

@[simp] theorem State.updStore_store (s : State) (f : Store → Store) : (s.updStore f).store = f s.store := rfl
@[simp] theorem State.updStore_power (s : State) (f : Store → Store) : (s.updStore f).power = s.power := rfl
@[simp] theorem State.updStore_sprig (s : State) (f : Store → Store) : (s.updStore f).sprig = s.sprig := rfl
@[simp] theorem State.updStore_link (s : State) (f : Store → Store) : (s.updStore f).link = s.link := rfl
@[simp] theorem State.updStore_hrb (s : State) (f : Store → Store) : (s.updStore f).hrb = s.hrb := rfl
@[simp] theorem State.updStore_treor (s : State) (f : Store → Store) : (s.updStore f).treor = s.treor := rfl
@[simp] theorem State.updStore_tenants (s : State) (f : Store → Store) : (s.updStore f).tenants = s.tenants := rfl
@[simp] theorem State.updStore_kct (s : State) (f : Store → Store) : (s.updStore f).kct = s.kct := rfl
@[simp] theorem State.updStore_cipher (s : State) (f : Store → Store) : (s.updStore f).cipher = s.cipher := rfl
@[simp] theorem State.updStore_pke (s : State) (f : Store → Store) : (s.updStore f).pke = s.pke := rfl
@[simp] theorem State.updStore_mint (s : State) (f : Store → Store) : (s.updStore f).mint = s.mint := rfl
@[simp] theorem State.updStore_guard (s : State) (f : Store → Store) : (s.updStore f).guard = s.guard := rfl
@[simp] theorem State.updStore_lc (s : State) (f : Store → Store) : (s.updStore f).lc = s.lc := rfl
@[simp] theorem State.updStore_tag (s : State) (f : Store → Store) : (s.updStore f).tag = s.tag := rfl
@[simp] theorem State.updStore_bay (s : State) (f : Store → Store) : (s.updStore f).bay = s.bay := rfl
@[simp] theorem State.updStore_bqt (s : State) (f : Store → Store) : (s.updStore f).bqt = s.bqt := rfl
@[simp] theorem State.updStore_free (s : State) (f : Store → Store) : (s.updStore f).free = s.free := rfl
@[simp] theorem State.updStore_pending (s : State) (f : Store → Store) : (s.updStore f).pending = s.pending := rfl

@[simp] theorem State.updTag_tag (s : State) (f : Tag → Tag) : (s.updTag f).tag = f s.tag := rfl
@[simp] theorem State.updTag_power (s : State) (f : Tag → Tag) : (s.updTag f).power = s.power := rfl
@[simp] theorem State.updTag_sprig (s : State) (f : Tag → Tag) : (s.updTag f).sprig = s.sprig := rfl
@[simp] theorem State.updTag_link (s : State) (f : Tag → Tag) : (s.updTag f).link = s.link := rfl
@[simp] theorem State.updTag_hrb (s : State) (f : Tag → Tag) : (s.updTag f).hrb = s.hrb := rfl
@[simp] theorem State.updTag_treor (s : State) (f : Tag → Tag) : (s.updTag f).treor = s.treor := rfl
@[simp] theorem State.updTag_tenants (s : State) (f : Tag → Tag) : (s.updTag f).tenants = s.tenants := rfl
@[simp] theorem State.updTag_kct (s : State) (f : Tag → Tag) : (s.updTag f).kct = s.kct := rfl
@[simp] theorem State.updTag_cipher (s : State) (f : Tag → Tag) : (s.updTag f).cipher = s.cipher := rfl
@[simp] theorem State.updTag_pke (s : State) (f : Tag → Tag) : (s.updTag f).pke = s.pke := rfl
@[simp] theorem State.updTag_mint (s : State) (f : Tag → Tag) : (s.updTag f).mint = s.mint := rfl
@[simp] theorem State.updTag_store (s : State) (f : Tag → Tag) : (s.updTag f).store = s.store := rfl
@[simp] theorem State.updTag_guard (s : State) (f : Tag → Tag) : (s.updTag f).guard = s.guard := rfl
@[simp] theorem State.updTag_lc (s : State) (f : Tag → Tag) : (s.updTag f).lc = s.lc := rfl
@[simp] theorem State.updTag_bay (s : State) (f : Tag → Tag) : (s.updTag f).bay = s.bay := rfl
@[simp] theorem State.updTag_bqt (s : State) (f : Tag → Tag) : (s.updTag f).bqt = s.bqt := rfl
@[simp] theorem State.updTag_free (s : State) (f : Tag → Tag) : (s.updTag f).free = s.free := rfl
@[simp] theorem State.updTag_pending (s : State) (f : Tag → Tag) : (s.updTag f).pending = s.pending := rfl

@[simp] theorem State.updGuard_guard (s : State) (f : Guard → Guard) : (s.updGuard f).guard = f s.guard := rfl
@[simp] theorem State.updGuard_power (s : State) (f : Guard → Guard) : (s.updGuard f).power = s.power := rfl
@[simp] theorem State.updGuard_sprig (s : State) (f : Guard → Guard) : (s.updGuard f).sprig = s.sprig := rfl
@[simp] theorem State.updGuard_link (s : State) (f : Guard → Guard) : (s.updGuard f).link = s.link := rfl
@[simp] theorem State.updGuard_hrb (s : State) (f : Guard → Guard) : (s.updGuard f).hrb = s.hrb := rfl
@[simp] theorem State.updGuard_treor (s : State) (f : Guard → Guard) : (s.updGuard f).treor = s.treor := rfl
@[simp] theorem State.updGuard_tenants (s : State) (f : Guard → Guard) : (s.updGuard f).tenants = s.tenants := rfl
@[simp] theorem State.updGuard_kct (s : State) (f : Guard → Guard) : (s.updGuard f).kct = s.kct := rfl
@[simp] theorem State.updGuard_cipher (s : State) (f : Guard → Guard) : (s.updGuard f).cipher = s.cipher := rfl
@[simp] theorem State.updGuard_pke (s : State) (f : Guard → Guard) : (s.updGuard f).pke = s.pke := rfl
@[simp] theorem State.updGuard_mint (s : State) (f : Guard → Guard) : (s.updGuard f).mint = s.mint := rfl
@[simp] theorem State.updGuard_store (s : State) (f : Guard → Guard) : (s.updGuard f).store = s.store := rfl
@[simp] theorem State.updGuard_lc (s : State) (f : Guard → Guard) : (s.updGuard f).lc = s.lc := rfl
@[simp] theorem State.updGuard_tag (s : State) (f : Guard → Guard) : (s.updGuard f).tag = s.tag := rfl
@[simp] theorem State.updGuard_bay (s : State) (f : Guard → Guard) : (s.updGuard f).bay = s.bay := rfl
@[simp] theorem State.updGuard_bqt (s : State) (f : Guard → Guard) : (s.updGuard f).bqt = s.bqt := rfl
@[simp] theorem State.updGuard_free (s : State) (f : Guard → Guard) : (s.updGuard f).free = s.free := rfl
@[simp] theorem State.updGuard_pending (s : State) (f : Guard → Guard) : (s.updGuard f).pending = s.pending := rfl

@[simp] theorem State.updTreor_treor (s : State) (f : Treor → Treor) : (s.updTreor f).treor = f s.treor := rfl
@[simp] theorem State.updTreor_power (s : State) (f : Treor → Treor) : (s.updTreor f).power = s.power := rfl
@[simp] theorem State.updTreor_sprig (s : State) (f : Treor → Treor) : (s.updTreor f).sprig = s.sprig := rfl
@[simp] theorem State.updTreor_link (s : State) (f : Treor → Treor) : (s.updTreor f).link = s.link := rfl
@[simp] theorem State.updTreor_hrb (s : State) (f : Treor → Treor) : (s.updTreor f).hrb = s.hrb := rfl
@[simp] theorem State.updTreor_tenants (s : State) (f : Treor → Treor) : (s.updTreor f).tenants = s.tenants := rfl
@[simp] theorem State.updTreor_kct (s : State) (f : Treor → Treor) : (s.updTreor f).kct = s.kct := rfl
@[simp] theorem State.updTreor_cipher (s : State) (f : Treor → Treor) : (s.updTreor f).cipher = s.cipher := rfl
@[simp] theorem State.updTreor_pke (s : State) (f : Treor → Treor) : (s.updTreor f).pke = s.pke := rfl
@[simp] theorem State.updTreor_mint (s : State) (f : Treor → Treor) : (s.updTreor f).mint = s.mint := rfl
@[simp] theorem State.updTreor_store (s : State) (f : Treor → Treor) : (s.updTreor f).store = s.store := rfl
@[simp] theorem State.updTreor_guard (s : State) (f : Treor → Treor) : (s.updTreor f).guard = s.guard := rfl
@[simp] theorem State.updTreor_lc (s : State) (f : Treor → Treor) : (s.updTreor f).lc = s.lc := rfl
@[simp] theorem State.updTreor_tag (s : State) (f : Treor → Treor) : (s.updTreor f).tag = s.tag := rfl
@[simp] theorem State.updTreor_bay (s : State) (f : Treor → Treor) : (s.updTreor f).bay = s.bay := rfl
@[simp] theorem State.updTreor_bqt (s : State) (f : Treor → Treor) : (s.updTreor f).bqt = s.bqt := rfl
@[simp] theorem State.updTreor_free (s : State) (f : Treor → Treor) : (s.updTreor f).free = s.free := rfl
@[simp] theorem State.updTreor_pending (s : State) (f : Treor → Treor) : (s.updTreor f).pending = s.pending := rfl

@[simp] theorem State.updSlot_same (s : State) (i : Fin 128) (f : Slot → Slot) : (s.updSlot i f).tenants.slots[i] = f s.tenants.slots[i] := modify_same _ _ _
theorem State.updSlot_ne (s : State) (i j : Fin 128) (f : Slot → Slot) (h : i ≠ j) : (s.updSlot i f).tenants.slots[j] = s.tenants.slots[j] := modify_ne _ _ _ _ h
@[simp] theorem State.updSlot_power (s : State) (i : Fin 128) (f : Slot → Slot) : (s.updSlot i f).power = s.power := rfl
@[simp] theorem State.updSlot_sprig (s : State) (i : Fin 128) (f : Slot → Slot) : (s.updSlot i f).sprig = s.sprig := rfl
@[simp] theorem State.updSlot_link (s : State) (i : Fin 128) (f : Slot → Slot) : (s.updSlot i f).link = s.link := rfl
@[simp] theorem State.updSlot_hrb (s : State) (i : Fin 128) (f : Slot → Slot) : (s.updSlot i f).hrb = s.hrb := rfl
@[simp] theorem State.updSlot_treor (s : State) (i : Fin 128) (f : Slot → Slot) : (s.updSlot i f).treor = s.treor := rfl
@[simp] theorem State.updSlot_kct (s : State) (i : Fin 128) (f : Slot → Slot) : (s.updSlot i f).kct = s.kct := rfl
@[simp] theorem State.updSlot_cipher (s : State) (i : Fin 128) (f : Slot → Slot) : (s.updSlot i f).cipher = s.cipher := rfl
@[simp] theorem State.updSlot_pke (s : State) (i : Fin 128) (f : Slot → Slot) : (s.updSlot i f).pke = s.pke := rfl
@[simp] theorem State.updSlot_mint (s : State) (i : Fin 128) (f : Slot → Slot) : (s.updSlot i f).mint = s.mint := rfl
@[simp] theorem State.updSlot_store (s : State) (i : Fin 128) (f : Slot → Slot) : (s.updSlot i f).store = s.store := rfl
@[simp] theorem State.updSlot_guard (s : State) (i : Fin 128) (f : Slot → Slot) : (s.updSlot i f).guard = s.guard := rfl
@[simp] theorem State.updSlot_lc (s : State) (i : Fin 128) (f : Slot → Slot) : (s.updSlot i f).lc = s.lc := rfl
@[simp] theorem State.updSlot_tag (s : State) (i : Fin 128) (f : Slot → Slot) : (s.updSlot i f).tag = s.tag := rfl
@[simp] theorem State.updSlot_bay (s : State) (i : Fin 128) (f : Slot → Slot) : (s.updSlot i f).bay = s.bay := rfl
@[simp] theorem State.updSlot_bqt (s : State) (i : Fin 128) (f : Slot → Slot) : (s.updSlot i f).bqt = s.bqt := rfl
@[simp] theorem State.updSlot_free (s : State) (i : Fin 128) (f : Slot → Slot) : (s.updSlot i f).free = s.free := rfl
@[simp] theorem State.updSlot_pending (s : State) (i : Fin 128) (f : Slot → Slot) : (s.updSlot i f).pending = s.pending := rfl

@[simp] theorem State.updCore_same (s : State) (i : Fin 8) (f : Core → Core) : (s.updCore i f).tenants.cores[i] = f s.tenants.cores[i] := modify_same _ _ _
theorem State.updCore_ne (s : State) (i j : Fin 8) (f : Core → Core) (h : i ≠ j) : (s.updCore i f).tenants.cores[j] = s.tenants.cores[j] := modify_ne _ _ _ _ h
@[simp] theorem State.updCore_power (s : State) (i : Fin 8) (f : Core → Core) : (s.updCore i f).power = s.power := rfl
@[simp] theorem State.updCore_sprig (s : State) (i : Fin 8) (f : Core → Core) : (s.updCore i f).sprig = s.sprig := rfl
@[simp] theorem State.updCore_link (s : State) (i : Fin 8) (f : Core → Core) : (s.updCore i f).link = s.link := rfl
@[simp] theorem State.updCore_hrb (s : State) (i : Fin 8) (f : Core → Core) : (s.updCore i f).hrb = s.hrb := rfl
@[simp] theorem State.updCore_treor (s : State) (i : Fin 8) (f : Core → Core) : (s.updCore i f).treor = s.treor := rfl
@[simp] theorem State.updCore_kct (s : State) (i : Fin 8) (f : Core → Core) : (s.updCore i f).kct = s.kct := rfl
@[simp] theorem State.updCore_cipher (s : State) (i : Fin 8) (f : Core → Core) : (s.updCore i f).cipher = s.cipher := rfl
@[simp] theorem State.updCore_pke (s : State) (i : Fin 8) (f : Core → Core) : (s.updCore i f).pke = s.pke := rfl
@[simp] theorem State.updCore_mint (s : State) (i : Fin 8) (f : Core → Core) : (s.updCore i f).mint = s.mint := rfl
@[simp] theorem State.updCore_store (s : State) (i : Fin 8) (f : Core → Core) : (s.updCore i f).store = s.store := rfl
@[simp] theorem State.updCore_guard (s : State) (i : Fin 8) (f : Core → Core) : (s.updCore i f).guard = s.guard := rfl
@[simp] theorem State.updCore_lc (s : State) (i : Fin 8) (f : Core → Core) : (s.updCore i f).lc = s.lc := rfl
@[simp] theorem State.updCore_tag (s : State) (i : Fin 8) (f : Core → Core) : (s.updCore i f).tag = s.tag := rfl
@[simp] theorem State.updCore_bay (s : State) (i : Fin 8) (f : Core → Core) : (s.updCore i f).bay = s.bay := rfl
@[simp] theorem State.updCore_bqt (s : State) (i : Fin 8) (f : Core → Core) : (s.updCore i f).bqt = s.bqt := rfl
@[simp] theorem State.updCore_free (s : State) (i : Fin 8) (f : Core → Core) : (s.updCore i f).free = s.free := rfl
@[simp] theorem State.updCore_pending (s : State) (i : Fin 8) (f : Core → Core) : (s.updCore i f).pending = s.pending := rfl

@[simp] theorem State.updPort_same (s : State) (i : Fin 512) (f : Port → Port) : (s.updPort i f).sprig.ports[i] = f s.sprig.ports[i] := modify_same _ _ _
theorem State.updPort_ne (s : State) (i j : Fin 512) (f : Port → Port) (h : i ≠ j) : (s.updPort i f).sprig.ports[j] = s.sprig.ports[j] := modify_ne _ _ _ _ h
@[simp] theorem State.updPort_power (s : State) (i : Fin 512) (f : Port → Port) : (s.updPort i f).power = s.power := rfl
@[simp] theorem State.updPort_link (s : State) (i : Fin 512) (f : Port → Port) : (s.updPort i f).link = s.link := rfl
@[simp] theorem State.updPort_hrb (s : State) (i : Fin 512) (f : Port → Port) : (s.updPort i f).hrb = s.hrb := rfl
@[simp] theorem State.updPort_treor (s : State) (i : Fin 512) (f : Port → Port) : (s.updPort i f).treor = s.treor := rfl
@[simp] theorem State.updPort_tenants (s : State) (i : Fin 512) (f : Port → Port) : (s.updPort i f).tenants = s.tenants := rfl
@[simp] theorem State.updPort_kct (s : State) (i : Fin 512) (f : Port → Port) : (s.updPort i f).kct = s.kct := rfl
@[simp] theorem State.updPort_cipher (s : State) (i : Fin 512) (f : Port → Port) : (s.updPort i f).cipher = s.cipher := rfl
@[simp] theorem State.updPort_pke (s : State) (i : Fin 512) (f : Port → Port) : (s.updPort i f).pke = s.pke := rfl
@[simp] theorem State.updPort_mint (s : State) (i : Fin 512) (f : Port → Port) : (s.updPort i f).mint = s.mint := rfl
@[simp] theorem State.updPort_store (s : State) (i : Fin 512) (f : Port → Port) : (s.updPort i f).store = s.store := rfl
@[simp] theorem State.updPort_guard (s : State) (i : Fin 512) (f : Port → Port) : (s.updPort i f).guard = s.guard := rfl
@[simp] theorem State.updPort_lc (s : State) (i : Fin 512) (f : Port → Port) : (s.updPort i f).lc = s.lc := rfl
@[simp] theorem State.updPort_tag (s : State) (i : Fin 512) (f : Port → Port) : (s.updPort i f).tag = s.tag := rfl
@[simp] theorem State.updPort_bay (s : State) (i : Fin 512) (f : Port → Port) : (s.updPort i f).bay = s.bay := rfl
@[simp] theorem State.updPort_bqt (s : State) (i : Fin 512) (f : Port → Port) : (s.updPort i f).bqt = s.bqt := rfl
@[simp] theorem State.updPort_free (s : State) (i : Fin 512) (f : Port → Port) : (s.updPort i f).free = s.free := rfl
@[simp] theorem State.updPort_pending (s : State) (i : Fin 512) (f : Port → Port) : (s.updPort i f).pending = s.pending := rfl

@[simp] theorem State.evA_power (i : Fin 6) (s : State) : (s.evA i).power = s.power := rfl
@[simp] theorem State.evA_sprig (i : Fin 6) (s : State) : (s.evA i).sprig = s.sprig := rfl
@[simp] theorem State.evA_link (i : Fin 6) (s : State) : (s.evA i).link = s.link := rfl
@[simp] theorem State.evA_treor (i : Fin 6) (s : State) : (s.evA i).treor = s.treor := rfl
@[simp] theorem State.evA_tenants (i : Fin 6) (s : State) : (s.evA i).tenants = s.tenants := rfl
@[simp] theorem State.evA_kct (i : Fin 6) (s : State) : (s.evA i).kct = s.kct := rfl
@[simp] theorem State.evA_cipher (i : Fin 6) (s : State) : (s.evA i).cipher = s.cipher := rfl
@[simp] theorem State.evA_pke (i : Fin 6) (s : State) : (s.evA i).pke = s.pke := rfl
@[simp] theorem State.evA_mint (i : Fin 6) (s : State) : (s.evA i).mint = s.mint := rfl
@[simp] theorem State.evA_store (i : Fin 6) (s : State) : (s.evA i).store = s.store := rfl
@[simp] theorem State.evA_guard (i : Fin 6) (s : State) : (s.evA i).guard = s.guard := rfl
@[simp] theorem State.evA_lc (i : Fin 6) (s : State) : (s.evA i).lc = s.lc := rfl
@[simp] theorem State.evA_tag (i : Fin 6) (s : State) : (s.evA i).tag = s.tag := rfl
@[simp] theorem State.evA_bay (i : Fin 6) (s : State) : (s.evA i).bay = s.bay := rfl
@[simp] theorem State.evA_bqt (i : Fin 6) (s : State) : (s.evA i).bqt = s.bqt := rfl
@[simp] theorem State.evA_free (i : Fin 6) (s : State) : (s.evA i).free = s.free := rfl
@[simp] theorem State.evA_pending (i : Fin 6) (s : State) : (s.evA i).pending = s.pending := rfl
@[simp] theorem State.evA_set (i : Fin 6) (s : State) : (s.evA i).hrb.evtA[i] = s.hrb.evtA[i].hit := modify_same _ _ _
theorem State.evA_ne (i j : Fin 6) (s : State) (h : i ≠ j) : (s.evA i).hrb.evtA[j] = s.hrb.evtA[j] := modify_ne _ _ _ _ h

@[simp] theorem State.evB_power (i : Fin 6) (s : State) : (s.evB i).power = s.power := rfl
@[simp] theorem State.evB_sprig (i : Fin 6) (s : State) : (s.evB i).sprig = s.sprig := rfl
@[simp] theorem State.evB_link (i : Fin 6) (s : State) : (s.evB i).link = s.link := rfl
@[simp] theorem State.evB_treor (i : Fin 6) (s : State) : (s.evB i).treor = s.treor := rfl
@[simp] theorem State.evB_tenants (i : Fin 6) (s : State) : (s.evB i).tenants = s.tenants := rfl
@[simp] theorem State.evB_kct (i : Fin 6) (s : State) : (s.evB i).kct = s.kct := rfl
@[simp] theorem State.evB_cipher (i : Fin 6) (s : State) : (s.evB i).cipher = s.cipher := rfl
@[simp] theorem State.evB_pke (i : Fin 6) (s : State) : (s.evB i).pke = s.pke := rfl
@[simp] theorem State.evB_mint (i : Fin 6) (s : State) : (s.evB i).mint = s.mint := rfl
@[simp] theorem State.evB_store (i : Fin 6) (s : State) : (s.evB i).store = s.store := rfl
@[simp] theorem State.evB_guard (i : Fin 6) (s : State) : (s.evB i).guard = s.guard := rfl
@[simp] theorem State.evB_lc (i : Fin 6) (s : State) : (s.evB i).lc = s.lc := rfl
@[simp] theorem State.evB_tag (i : Fin 6) (s : State) : (s.evB i).tag = s.tag := rfl
@[simp] theorem State.evB_bay (i : Fin 6) (s : State) : (s.evB i).bay = s.bay := rfl
@[simp] theorem State.evB_bqt (i : Fin 6) (s : State) : (s.evB i).bqt = s.bqt := rfl
@[simp] theorem State.evB_free (i : Fin 6) (s : State) : (s.evB i).free = s.free := rfl
@[simp] theorem State.evB_pending (i : Fin 6) (s : State) : (s.evB i).pending = s.pending := rfl
@[simp] theorem State.evB_set (i : Fin 6) (s : State) : (s.evB i).hrb.evtB[i] = s.hrb.evtB[i].hit := modify_same _ _ _
theorem State.evB_ne (i j : Fin 6) (s : State) (h : i ≠ j) : (s.evB i).hrb.evtB[j] = s.hrb.evtB[j] := modify_ne _ _ _ _ h

@[simp] theorem State.evC_power (i : Fin 6) (s : State) : (s.evC i).power = s.power := rfl
@[simp] theorem State.evC_sprig (i : Fin 6) (s : State) : (s.evC i).sprig = s.sprig := rfl
@[simp] theorem State.evC_link (i : Fin 6) (s : State) : (s.evC i).link = s.link := rfl
@[simp] theorem State.evC_treor (i : Fin 6) (s : State) : (s.evC i).treor = s.treor := rfl
@[simp] theorem State.evC_tenants (i : Fin 6) (s : State) : (s.evC i).tenants = s.tenants := rfl
@[simp] theorem State.evC_kct (i : Fin 6) (s : State) : (s.evC i).kct = s.kct := rfl
@[simp] theorem State.evC_cipher (i : Fin 6) (s : State) : (s.evC i).cipher = s.cipher := rfl
@[simp] theorem State.evC_pke (i : Fin 6) (s : State) : (s.evC i).pke = s.pke := rfl
@[simp] theorem State.evC_mint (i : Fin 6) (s : State) : (s.evC i).mint = s.mint := rfl
@[simp] theorem State.evC_store (i : Fin 6) (s : State) : (s.evC i).store = s.store := rfl
@[simp] theorem State.evC_guard (i : Fin 6) (s : State) : (s.evC i).guard = s.guard := rfl
@[simp] theorem State.evC_lc (i : Fin 6) (s : State) : (s.evC i).lc = s.lc := rfl
@[simp] theorem State.evC_tag (i : Fin 6) (s : State) : (s.evC i).tag = s.tag := rfl
@[simp] theorem State.evC_bay (i : Fin 6) (s : State) : (s.evC i).bay = s.bay := rfl
@[simp] theorem State.evC_bqt (i : Fin 6) (s : State) : (s.evC i).bqt = s.bqt := rfl
@[simp] theorem State.evC_free (i : Fin 6) (s : State) : (s.evC i).free = s.free := rfl
@[simp] theorem State.evC_pending (i : Fin 6) (s : State) : (s.evC i).pending = s.pending := rfl
@[simp] theorem State.evC_set (i : Fin 6) (s : State) : (s.evC i).hrb.evtC[i] = s.hrb.evtC[i].hit := modify_same _ _ _
theorem State.evC_ne (i j : Fin 6) (s : State) (h : i ≠ j) : (s.evC i).hrb.evtC[j] = s.hrb.evtC[j] := modify_ne _ _ _ _ h

@[simp] theorem State.wait_power (w : WaitKind) (r : Req) (op : BitVec 16) (s : State) : (s.wait w r op).power = s.power := rfl
@[simp] theorem State.wait_sprig (w : WaitKind) (r : Req) (op : BitVec 16) (s : State) : (s.wait w r op).sprig = s.sprig := rfl
@[simp] theorem State.wait_link (w : WaitKind) (r : Req) (op : BitVec 16) (s : State) : (s.wait w r op).link = s.link := rfl
@[simp] theorem State.wait_hrb (w : WaitKind) (r : Req) (op : BitVec 16) (s : State) : (s.wait w r op).hrb = s.hrb := rfl
@[simp] theorem State.wait_tenants (w : WaitKind) (r : Req) (op : BitVec 16) (s : State) : (s.wait w r op).tenants = s.tenants := rfl
@[simp] theorem State.wait_kct (w : WaitKind) (r : Req) (op : BitVec 16) (s : State) : (s.wait w r op).kct = s.kct := rfl
@[simp] theorem State.wait_cipher (w : WaitKind) (r : Req) (op : BitVec 16) (s : State) : (s.wait w r op).cipher = s.cipher := rfl
@[simp] theorem State.wait_pke (w : WaitKind) (r : Req) (op : BitVec 16) (s : State) : (s.wait w r op).pke = s.pke := rfl
@[simp] theorem State.wait_mint (w : WaitKind) (r : Req) (op : BitVec 16) (s : State) : (s.wait w r op).mint = s.mint := rfl
@[simp] theorem State.wait_store (w : WaitKind) (r : Req) (op : BitVec 16) (s : State) : (s.wait w r op).store = s.store := rfl
@[simp] theorem State.wait_guard (w : WaitKind) (r : Req) (op : BitVec 16) (s : State) : (s.wait w r op).guard = s.guard := rfl
@[simp] theorem State.wait_lc (w : WaitKind) (r : Req) (op : BitVec 16) (s : State) : (s.wait w r op).lc = s.lc := rfl
@[simp] theorem State.wait_tag (w : WaitKind) (r : Req) (op : BitVec 16) (s : State) : (s.wait w r op).tag = s.tag := rfl
@[simp] theorem State.wait_bay (w : WaitKind) (r : Req) (op : BitVec 16) (s : State) : (s.wait w r op).bay = s.bay := rfl
@[simp] theorem State.wait_bqt (w : WaitKind) (r : Req) (op : BitVec 16) (s : State) : (s.wait w r op).bqt = s.bqt := rfl
@[simp] theorem State.wait_free (w : WaitKind) (r : Req) (op : BitVec 16) (s : State) : (s.wait w r op).free = s.free := rfl
@[simp] theorem State.wait_pending (w : WaitKind) (r : Req) (op : BitVec 16) (s : State) : (s.wait w r op).pending = s.pending := rfl
@[simp] theorem State.wait_waiting (w : WaitKind) (r : Req) (op : BitVec 16) (s : State) :
    (s.wait w r op).treor.waiting = s.treor.waiting ++ [⟨w, r, op, s.major r⟩] := rfl

@[simp] theorem State.taken_power (r : Req) (s : State) : (s.taken r).power = s.power := by unfold State.taken; split <;> rfl
@[simp] theorem State.taken_sprig (r : Req) (s : State) : (s.taken r).sprig = s.sprig := by unfold State.taken; split <;> rfl
@[simp] theorem State.taken_link (r : Req) (s : State) : (s.taken r).link = s.link := by unfold State.taken; split <;> rfl
@[simp] theorem State.taken_treor (r : Req) (s : State) : (s.taken r).treor = s.treor := by unfold State.taken; split <;> rfl
@[simp] theorem State.taken_tenants (r : Req) (s : State) : (s.taken r).tenants = s.tenants := by unfold State.taken; split <;> rfl
@[simp] theorem State.taken_kct (r : Req) (s : State) : (s.taken r).kct = s.kct := by unfold State.taken; split <;> rfl
@[simp] theorem State.taken_cipher (r : Req) (s : State) : (s.taken r).cipher = s.cipher := by unfold State.taken; split <;> rfl
@[simp] theorem State.taken_pke (r : Req) (s : State) : (s.taken r).pke = s.pke := by unfold State.taken; split <;> rfl
@[simp] theorem State.taken_mint (r : Req) (s : State) : (s.taken r).mint = s.mint := by unfold State.taken; split <;> rfl
@[simp] theorem State.taken_store (r : Req) (s : State) : (s.taken r).store = s.store := by unfold State.taken; split <;> rfl
@[simp] theorem State.taken_guard (r : Req) (s : State) : (s.taken r).guard = s.guard := by unfold State.taken; split <;> rfl
@[simp] theorem State.taken_lc (r : Req) (s : State) : (s.taken r).lc = s.lc := by unfold State.taken; split <;> rfl
@[simp] theorem State.taken_tag (r : Req) (s : State) : (s.taken r).tag = s.tag := by unfold State.taken; split <;> rfl
@[simp] theorem State.taken_bay (r : Req) (s : State) : (s.taken r).bay = s.bay := by unfold State.taken; split <;> rfl
@[simp] theorem State.taken_bqt (r : Req) (s : State) : (s.taken r).bqt = s.bqt := by unfold State.taken; split <;> rfl
@[simp] theorem State.taken_free (r : Req) (s : State) : (s.taken r).free = s.free := by unfold State.taken; split <;> rfl
@[simp] theorem State.taken_pending (r : Req) (s : State) : (s.taken r).pending = s.pending := by unfold State.taken; split <;> rfl

end Sys2Proof.Machine
end

