-- ==== Sys2Proof/Laws/Symbols.lean ====
section
/-! SUPPORT. The 8b/10b code: decoding gives back what was coded, and so no symbol stands for two codes at one disparity. -/

namespace Sys2Proof.Machine

/-- Every data byte, at both disparities. -/
theorem decodeSym_data : ∀ (rd : Bool) (b : Fin 256),
    decodeSym rd (encodeSym rd ⟨false, BitVec.ofFin b⟩).1 = some (⟨false, BitVec.ofFin b⟩, (encodeSym rd ⟨false, BitVec.ofFin b⟩).2) := by
  decide +kernel

/-- Every control symbol that exists, at both disparities. -/
theorem decodeSym_ctrl : ∀ (rd : Bool) (b : Fin 256), (Code.mk true (BitVec.ofFin b)).exists_ = true →
    decodeSym rd (encodeSym rd ⟨true, BitVec.ofFin b⟩).1 = some (⟨true, BitVec.ofFin b⟩, (encodeSym rd ⟨true, BitVec.ofFin b⟩).2) := by
  decide +kernel

/-- Decoding gives back the code and the disparity after it. -/
theorem decodeSym_encodeSym (rd : Bool) (c : Code) (h : c.exists_ = true) :
    decodeSym rd (encodeSym rd c).1 = some (c, (encodeSym rd c).2) := by
  obtain ⟨_ | _, b⟩ := c
  · exact decodeSym_data rd b.toFin
  · exact decodeSym_ctrl rd b.toFin h

/-- A run of codes comes back whole. -/
theorem decodeSyms_encodeSyms (rd : Bool) (l : List Code) (h : ∀ c ∈ l, c.exists_ = true) :
    decodeSyms rd (encodeSyms rd l) = some l := by
  induction l generalizing rd with
  | nil => rfl
  | cons c r ih =>
    simp only [encodeSyms, decodeSyms, decodeSym_encodeSym rd c (h c (.head _)), ih _ fun x hx => h x (.tail _ hx), Option.map_some]

end Sys2Proof.Machine
end

