-- ==== Sys2Proof/WellFormed.lean ====
section
/-! DEFINITION. Which commands the outside world can send: the bounds that the spec puts on operands whose Lean
type is wider (log 2). The machine is total on the others too. -/

namespace Sys2Proof

open Machine

/-- A request as a message carries it (Table 08-1): LENGTH of 16 to 4,096 leaves a body of at most 4,080 bytes. -/
def Req.fits (r : Req) : Bool := decide (r.body.length ≤ 4080)

/-- A PORT_CTRL request whose ACTION is the row's own, or one that no row has (Table 08-8). -/
def Req.action (r : Req) (a : Nat) : Bool :=
  let n := fld r.body 4 1 % 128
  Req.fits r && (n == a || n == 0 || decide (7 < n))

/-- The INS of Table 05-16. -/
def tagIns : Bytes := [0xA4, 0xB0, 0xD6, 0x10, 0x12, 0x14, 0x20, 0x22]

/-- A short APDU (R148); the INS it may name in place of its row's is one that no row has. -/
def Apdu.fits (c : Apdu) : Bool :=
  decide (c.data.length ≤ 255) && decide (1 ≤ c.blocks) && (match c.ins with | none => true | some i => !tagIns.contains i)

/-- A cascade level of ISO/IEC 14443-3 (R123). -/
def levelOk (n : Nat) : Bool := decide (1 ≤ n) && decide (n ≤ 3)

/-- A trap of a memory access moves 1, 2 or 4 bytes (R261). -/
def TenantTrap.fits : TenantTrap → Bool
  | .access _ _ size => size == 1 || size == 2 || size == 4
  | .machine _ _ size => size == 1 || size == 2 || size == 4
  | .call _ => true
  | .illegal _ => true
  | .misaligned target => target.getLsbD 0 || target.getLsbD 1
  | .breakpoint _ => true

/-- A failed test of the health tests gives the count that reached its cutoff (Table 14-14). -/
def HealthFail.fits (f : HealthFail) : Bool :=
  if f.test = 2 then f.source == 0 else f.count != 0

/-- TAP instruction codes that select a register of their own (Table 19-13). -/
def tapKnown (ir : Byte) : Bool :=
  ir == 0x00 || ir == 0x01 || ir == 0x02 || ir == 0x03 || ir == 0x04 || ir == 0x20 || ir == 0x21 || ir == 0x22 ||
    ir == 0x30 || ir == 0x31 || ir == 0x32

/-- The command is one that the outside world can send. -/
def Instr.wellFormed : Instr → Bool
  | .uplinkBlock _ w => w.syms.length == 90
  | .linkBlock _ rx => decide (rx.length ≤ 4)
  | .tagAnticollision level known _ => levelOk level && decide (known.length < 40)
  | .tagSelect level uid _ => levelOk level && uid.length == 5
  | .selectByAid c => Apdu.fits c
  | .selectFile c => Apdu.fits c
  | .readBinary c => Apdu.fits c
  | .updateBinary c => Apdu.fits c
  | .getIdentity c => Apdu.fits c
  | .getSummary c => Apdu.fits c
  | .readLog c => Apdu.fits c
  | .putAck c _ => Apdu.fits c
  | .inboxStatus c => Apdu.fits c
  | .hello r => Req.fits r
  | .echo r => Req.fits r
  | .devInfo r => Req.fits r
  | .adminChallenge r => Req.fits r
  | .adminOpen r => Req.fits r
  | .adminLockout r => Req.fits r
  | .adminClose r => Req.fits r
  | .paramGet r => Req.fits r
  | .paramSet r => Req.fits r
  | .paramList r => Req.fits r
  | .slotStatus r => Req.fits r
  | .slotAssign r => Req.fits r
  | .slotApply r => Req.fits r
  | .slotDiscardStage r => Req.fits r
  | .slotQuiesce r => Req.fits r
  | .slotStart r => Req.fits r
  | .slotReset r => Req.fits r
  | .slotRemove r => Req.fits r
  | .imageWrite r => Req.fits r
  | .imageCommit r => Req.fits r
  | .mbxSend r => Req.fits r
  | .storeStatus r => Req.fits r
  | .logRead r => Req.fits r
  | .mintStatus r => Req.fits r
  | .portStatus r => Req.fits r
  | .portCtrlEnable r => Req.action r 1
  | .portCtrlDisable r => Req.action r 2
  | .portCtrlRetrain r => Req.action r 3
  | .portCtrlGenLimitSet r => Req.action r 4
  | .portCtrlGenLimitClear r => Req.action r 5
  | .portCtrlAutoRetrainSet r => Req.action r 6
  | .portCtrlAutoRetrainClr r => Req.action r 7
  | .tagwRead r => Req.fits r
  | .tagwUpdate r => Req.fits r
  | .tagwStatus r => Req.fits r
  | .lcStatus r => Req.fits r
  | .lcTransitionRequest r _ => Req.fits r
  | .adminKeyList r => Req.fits r
  | .debugToken r => Req.fits r
  | .rtcSet r => Req.fits r
  | .bbkRekey r => Req.fits r
  | .tamperLogRead r => Req.fits r
  | .bayStatus r => Req.fits r
  | .bqtStatus r => Req.fits r
  | .bqtJoin r => Req.fits r
  | .bqtLeave r => Req.fits r
  | .bqtRevoke r => Req.fits r
  | .envDeliver r => Req.fits r
  | .envPart r => Req.fits r
  | .envConfirm r => Req.fits r
  | .envRefuse r => Req.fits r
  | .envCancel r => Req.fits r
  | .migrateExport r => Req.fits r
  | .bayRequest r => Req.fits r
  | .tenantTrap _ _ t => TenantTrap.fits t
  | .cipherSegmentEnd kind core => kind == .aes || decide (core.val < 2)
  | .mintBlockReady words => words.length == 32
  | .mintStartupTestEnd fail _ => fail.all HealthFail.fits
  | .healthFailure f => HealthFail.fits f
  | .bypass ir => !tapKnown ir
  | .otpw unitId uid mfg img => unitId.length == 16 && uid.length == 7 && mfg.length == 32 && img.length == 32
  | .lcmb _ payload _ _ => decide (payload.length ≤ 4096)
  | .mainResetRelease _ => true
  | .supplyLoss _ => true
  | .resetNAssert => true
  | .supervisorImageStart => true
  | .mainRecallDone _ lost => lost.all fun n => decide (n < 29)
  | .slotColdStart _ => true
  | .tagwRecallDone _ _ _ => true
  | .startSeedRefresh => true
  | .hourlySave => true
  | .powerFailSave => true
  | .backstopSave => true
  | .saveDone _ => true
  | .storeRefresh => true
  | .nvWpRise _ _ => true
  | .frameBoundary => true
  | .trainingComplete _ => true
  | .trainingTimeout _ => true
  | .dataBlockUndelivered _ => true
  | .uplinkLoss _ => true
  | .autoRetrainDelay _ => true
  | .ping _ => true
  | .portEnable _ _ => true
  | .retrain _ => true
  | .wake _ => true
  | .release _ => true
  | .holdActive _ _ => true
  | .thymeSlice _ => true
  | .receiveTimeout _ => true
  | .cmdPoll _ => true
  | .cmdActivate _ => true
  | .cmdExchange _ => true
  | .cmdRaw _ => true
  | .cmdHalt _ => true
  | .cmdDeselect _ => true
  | .cmdAbort _ => true
  | .fieldGuardEnd _ => true
  | .techGapEnd _ => true
  | .resetOffEnd _ => true
  | .profileEnd _ => true
  | .evqRdWrite _ _ => true
  | .applyBoundary _ => true
  | .pageMapNewOwner _ => true
  | .islandStart _ => true
  | .islandReset _ => true
  | .fieldDetected => true
  | .fieldLossTimeout => true
  | .tagReqa => true
  | .tagWupa => true
  | .tagHlta => true
  | .tagRats _ _ _ _ => true
  | .tagPps _ _ _ _ _ => true
  | .tagSDeselect _ _ _ => true
  | .tagWtxTimer _ _ => true
  | .granuleEnd _ _ => true
  | .latchIdleExpiry => true
  | .latchMaxExpiry => true
  | .windowUpdateStart => true
  | .windowUpdateCommit bad _ => bad.all fun i => decide (i < 703)
  | .tagwDeferTimeout => true
  | .inboxAckAnswer => true
  | .linkTrainingSet _ _ set count => set.syms.length == 16 && decide (1 ≤ count)
  | .linkTrainingTimeout _ => true
  | .linkRateTimeout _ => true
  | .regBlock => true
  | .enumBlock => true
  | .lcwAck _ rx => decide (rx.length ≤ 4)
  | .lcwNak _ rx => decide (rx.length ≤ 4)
  | .resendTimer _ => true
  | .lcwSendTimer _ => true
  | .blockSent _ _ _ => true
  | .laneErrorRetrain _ _ => true
  | .laneFail _ _ => true
  | .hostOrderedRetrain _ _ => true
  | .w1cClear _ _ _ => true
  | .clearingRead _ => true
  | .hrbIenWrite _ _ => true
  | .rtcLoRead => true
  | .carrierRead _ => true
  | .registerWrite _ _ => true
  | .adminLockoutEnd => true
  | .adminIdleTimeout => true
  | .quiesceComplete _ _ => true
  | .quiesceJobTimeout _ => true
  | .slotRemoveDone _ => true
  | .mbxInRdWrite _ _ => true
  | .mbxOutWrWrite _ _ => true
  | .debugSessionExpiry => true
  | .baySummary => true
  | .bayIdentity => true
  | .bayRead => true
  | .bayConfirm => true
  | .bayNonce => true
  | .baySeal => true
  | .bayStage => true
  | .bayConfigCommit => true
  | .bayFwCommit => true
  | .bayApp => true
  | .bayAppTimeout => true
  | .bayAck => true
  | .bayResetRelease _ _ => true
  | .bayPowerLow _ => true
  | .bayPeriodicBank => true
  | .bayBridgeStart _ => true
  | .bayRecordArrival => true
  | .baySummaryInterval => true
  | .bayWait _ _ => true
  | .measure _ _ => true
  | .recdone => true
  | .bayTotal _ => true
  | .bayTime => true
  | .appRecv _ _ => true
  | .appReply _ _ => true
  | .cfgRead _ _ _ => true
  | .bayFwStop _ _ _ _ => true
  | .bayFwRestart => true
  | .meterPulse _ _ _ => true
  | .meterUartByte _ _ _ => true
  | .freqGateEnd _ => true
  | .mpTxWrite _ _ => true
  | .totalInterval => true
  | .baySignDone => true
  | .bayTimeCheck _ => true
  | .sealPinChange _ => true
  | .bayStoreRefresh => true
  | .wait _ _ _ => true
  | .tenantWake _ _ => true
  | .waitTimeout _ => true
  | .yield _ => true
  | .regionSet _ _ _ _ _ => true
  | .quantumEnd _ _ _ => true
  | .tenantWatchdog _ _ => true
  | .mpuRegionWrite _ _ _ _ => true
  | .recPut _ _ _ _ => true
  | .recGet _ _ _ _ => true
  | .recDel _ _ => true
  | .storeUse _ => true
  | .valAdd _ _ _ => true
  | .valGet _ _ => true
  | .generate _ => true
  | .unwrap _ => true
  | .wrap _ => true
  | .derive _ => true
  | .delete _ => true
  | .restrict _ => true
  | .info _ => true
  | .ctrCreate _ => true
  | .ctrIncr _ => true
  | .ctrRead _ => true
  | .dukptLoad _ => true
  | .dukptNext _ => true
  | .kctOpDone _ => true
  | .loadKey _ _ => true
  | .cipherRun _ _ => true
  | .cipherClear _ _ => true
  | .cipherAbort _ _ => true
  | .cipherRunDone _ _ => true
  | .cmGeneratorReseed => true
  | .ecSign _ _ => true
  | .ecVerify _ _ => true
  | .ecAgree _ _ => true
  | .edSign _ _ => true
  | .edVerify _ _ => true
  | .rsaPublic _ _ => true
  | .rsaPrivate _ _ => true
  | .extGenerate _ _ => true
  | .extImport _ _ => true
  | .publicKey _ _ => true
  | .pkeAbort _ => true
  | .pkeSliceEnd _ _ => true
  | .hashInit _ _ => true
  | .hmacInit _ _ => true
  | .hashUpdate _ => true
  | .hashFinal _ _ => true
  | .hashAbort _ => true
  | .hashOpDone _ => true
  | .mintRestartTimer => true
  | .drbgGenerate _ _ _ _ _ => true
  | .drbgReseed _ _ _ => true
  | .drbgAbort _ _ => true
  | .drbgWaitServed => true
  | .drbgWaitTimeout => true
  | .testSrcEnable _ => true
  | .testSrcDisable _ => true
  | .mintRawRead _ => true
  | .tamperAlarm _ _ => true
  | .batteryModeAlarm _ _ => true
  | .builtinTest _ _ => true
  | .batterySourceSwitch _ => true
  | .batteryDomainLoss => true
  | .carrierLockLoss => true
  | .carrierRelock => true
  | .coreLockLoss => true
  | .coreRelock => true
  | .tapReset => true
  | .extest _ => true
  | .idcode => true
  | .samplePreload _ _ => true
  | .clamp => true
  | .highz => true
  | .imageLoad _ _ => true
  | .dbg _ => true
  | .scan => true
  | .enrol => true
  | .lcprog _ => true
  | .tamperFilterRelease _ _ => true
  | .batteryDomainPowerOn _ => true
  | .baySupplyLoss _ => true
  | .drbgRequestDone => true
  | .storeCommitDone _ => true
  | .tagRBlock _ _ _ _ _ => true

end Sys2Proof
end

