-- ==== Sys2Proof/Tests/Slice0.lean ====
section
/-! SUPPORT. Tests: values that the spec and its standards print, ill-formed commands that WellFormed refuses, and for
every obligation a state and operands that meet the hypotheses of each of its clauses (theorem `witness_n` in the
obligation's own namespace is for clause `n`, counted from 0). -/

open Sys2Proof Sys2Proof.Machine

namespace Sys2Proof.Tests

set_option maxRecDepth 8000
set_option Elab.async false
set_option linter.unusedVariables false

/-! ### Small states -/

/-- A running, recalled device in DEPLOYED. -/
def run : State := { ({} : State) with
  power := { ({} : Power) with
    levels := { core := 800, phy := 1000, io := 1800 }, bayMv := 1000, vbatMv := 3000, pwrFailN := true, run := .running, phase := 7
    fell := false, carLock := true, coreLock := true, mainPwr := true }
  hrb := { ({} : Hrb) with rclMain := 2, rclTagw := 2, rclBay := 2, uptime := 7200 }
  sprig := { ({} : Sprig) with frame := 70000 }
  treor := { ({} : Treor) with verMaj := 2 }
  mint := { ({} : Mint) with state := .ready }
  guard := { ({} : Guard) with powered := true, rtc := 5000, rtcSet := true, bbk := .valid, arm := true }
  lc := { ({} : Lc) with state := .deployed }
  bay := { ({} : Bay) with running := true, recalled := true, bridge := 1, clock := true, firstBridge := false } }
/-- A slot runs on core 0. -/
def slotRun (i : Fin 128) (s : State) : State :=
  let s := s.updSlot i fun k => { k with
    state := .running, tenantId := 77, role := 2, image := some [1, 2, 3]
    run := { k.run with weight := 10, sram := 4, store := 4, kct := 64, cipher := 2, drbg := 2, pke := 10, class0 := 4 } }
  { s with tenants := { s.tenants with cores := s.tenants.cores.set 0 { s.tenants.cores[0] with slot := some i } } }
/-- The host has every capability. -/
def caps (s : State) : State := { s with treor := { s.treor with hostCaps := 0x1FFF } }
/-- A request has arrived. -/
def req (op : BitVec 16) (r : Req) (s : State) : State := { s with link := { s.link with delivered := [.message op r] } }
/-- Every port at once. -/
def allPorts (f : Nat → Port → Port) (s : State) : State :=
  { s with sprig := { s.sprig with ports := s.sprig.ports.mapFinIdx fun n p _ => f n p } }
/-- With an administrator's session. -/
def adm : State := { run with treor := { run.treor with session := some 1 } }
/-- Requests to the device, to slot 7, to the Bay. -/
def q0 : Req := { tag := 7 }
def q1 : Req := { tag := 7, kind := 1, index := 7, epoch := 1 }
def q2 : Req := { tag := 7, kind := 2, index := 1, epoch := 1 }
def slot7 (f : Slot → Slot) (s : State) : State := s.updSlot 7 f
/-- The public key of a test's signer. -/
def pub : Bytes := beN 64 0x26efcebd0ee9e34a669187e18b3a9122b2f733945b649cc9f9f921e9f9dad81290238bde9cc7bb330d150c67704dd25ae7055205744b6f31bf4070745872d0e6
/-- A key table with these entries, and one line of the cache for each. -/
def entriesOf (es : List (KIdx × Entry)) : Vector Entry 32768 :=
  es.foldl (fun v x => v.set x.1.val x.2 x.1.isLt) (Vector.replicate 32768 {})
def SK (es : List (KIdx × Entry)) : State :=
  let s := slotRun 7 run
  { s with kct := { s.kct with fresh := 200, lru := s.kct.lru.set 7 (es.map (·.1.val)), entries := entriesOf es } }
def KP (f : KcPage → KcPage) (s : State) : State := { s with kct := { s.kct with pages := s.kct.pages.set 7 (f s.kct.pages[7]) } }

theorem count_entriesOf (p : Entry → Bool) (h : p {} = false) (es : List (KIdx × Entry)) :
    (entriesOf es).toList.countP p ≤ es.length := by
  suffices h2 : ∀ (es : List (KIdx × Entry)) (v : Vector Entry 32768),
      (es.foldl (fun v x => v.set x.1.val x.2 x.1.isLt) v).toList.countP p ≤ v.toList.countP p + es.length by
    have h3 := h2 es (Vector.replicate 32768 {})
    have h4 : (Vector.replicate 32768 ({} : Entry)).toList.countP p = 0 := by
      rw [Vector.toList_replicate, List.countP_replicate, h]; rfl
    rw [h4, Nat.zero_add] at h3
    exact h3
  intro es
  induction es with
  | nil => intro v; simp
  | cons x es ih =>
    intro v
    have h1 := ih (v.set x.1.val x.2 x.1.isLt)
    have h2 : (v.set x.1.val x.2 x.1.isLt).toList.countP p ≤ v.toList.countP p + 1 := by
      rw [Vector.toList_set, List.countP_set (by simp)]
      split <;> split <;> omega
    simp only [List.foldl_cons, List.length_cons]
    omega

theorem used_le {s : State} {es : List (KIdx × Entry)} (h : s.kct.entries = entriesOf es) : s.kctUsed 7 ≤ es.length := by
  unfold State.kctUsed; rw [h]; exact count_entriesOf _ (by decide) es

theorem vol_le {s : State} {es : List (KIdx × Entry)} (h : s.kct.entries = entriesOf es) : s.kctVol 7 ≤ es.length := by
  unfold State.kctVol; rw [h]; exact count_entriesOf _ (by decide) es

theorem bitmap_zero (j : Nat) : bitmapBit (List.replicate 2048 0) j = false := by
  unfold bitmapBit byteAt
  rw [List.getD_eq_getElem?_getD, List.getElem?_replicate]
  split <;> simp

theorem all_mem {α : Type} {l : List α} {p : α → Prop} [DecidablePred p] (h : l.all (fun x => decide (p x)) = true) :
    ∀ x ∈ l, p x := fun x hx => of_decide_eq_true (List.all_eq_true.1 h x hx)

theorem step_refresh {s : State} {rest : List Instr} (h : s.pending = .storeRefresh :: rest) : ∃ t, step s = .next t := by
  unfold step; rw [h]; exact ⟨_, rfl⟩

theorem piece_whole (b : Bytes) (n : Nat) (h : b.length = n) : b = pieceBytes [(0, b)] n := by
  unfold pieceBytes
  apply List.ext_getElem
  · simp [h]
  · intro i h1 h2
    simp only [List.getElem_map, List.getElem_range]
    unfold pieceByte
    simp [h1, byteAt, List.getD_eq_getElem?_getD]

/-! ### Values that the spec or the standards it names print -/

/-- R37: the CRC of a sprig block over "123456789". -/
theorem test_crc16 : (ascii "123456789").foldl crc16Byte 0xFFFF = 0x29B1 := by decide +kernel
/-- R30: K28.5 at negative disparity is 001111 1010, bit a first, and D21.5 after it 101010 1010. -/
theorem test_comma : encodeSyms false [k28_5, dataCode 0xB5] = [0x17C, 0x155] := by decide +kernel
/-- R241: `addi a0, x0, 10`, and the compressed `c.li a0, 0`. -/
theorem test_rv32 : rvDecode 0x00A00513 = some (.opImm 0 false 10 0 10) ∧ rvcDecode 0x4501 = some (.opImm 0 false 10 0 0) := by decide +kernel
/-- R159: CRC-32C over "123456789". -/
theorem test_crc32c : crc32c (ascii "123456789") = 0xE3069283 := by decide +kernel
/-- Chapter 2: an interval of 250 ms is 13,248 frames. -/
theorem test_ping_interval : pingInterval 250 = 13248 := by decide +kernel
/-- Chapter 7: RECALL and LINK_D set, LINK_D twice more. -/
theorem test_evt_word : evtWord #v[⟨false, 0⟩, ⟨true, 2⟩, ⟨false, 0⟩, ⟨true, 0⟩, ⟨false, 0⟩, ⟨false, 0⟩] = 0x0000080A := by decide +kernel
/-- R18: epoch 0x0000 is never issued. -/
theorem test_epoch_wraps : nextEpoch 0xFFFF = 1 := by decide +kernel
/-- R179: a count saturates. -/
theorem test_count_saturates : sat16 0xFFFF = 0xFFFF := by decide +kernel
/-- FIPS 197, appendix C.1. -/
theorem test_aes128 : cipherOf 1 (beN 16 0x000102030405060708090a0b0c0d0e0f) false (beN 16 0x00112233445566778899aabbccddeeff) =
    beN 16 0x69c4e0d86a7b0430d8cdb78070b4c55a := by decide +kernel
/-- FIPS 197, appendix C.3, in decryption. -/
theorem test_aes256 : cipherOf 1 (beN 32 0x000102030405060708090a0b0c0d0e0f101112131415161718191a1b1c1d1e1f) true
    (beN 16 0x8ea2b7ca516745bfeafc49904b496089) = beN 16 0x00112233445566778899aabbccddeeff := by decide +kernel
/-- FIPS 180-4: SHA-256 of "abc". -/
theorem test_sha256 : sha (ascii "abc") = beN 32 0xba7816bf8f01cfea414140de5dae2223b00361a396177a9cb410ff61f20015ad := by decide +kernel
/-- FIPS 180-4: SHA-512 of "abc". -/
theorem test_sha512 : sha512 (ascii "abc") =
    0xddaf35a193617abacc417349ae20413112e6fa4e89a97ea20a9eeee64b55d39a2192992a274fc1a836ba3c23a3feebbd454d4423643ce80e2a9ac94fa54ca49f := by
  decide +kernel
/-- FIPS 202: SHA3-256 of the empty string. -/
theorem test_sha3 : digest 4 [] = beN 32 0xa7ffc6f8bf1ed76651c14756a061d662f580ff4de43b49fa82d80a4b80f8434a := by decide +kernel
/-- RFC 4231, case 2. -/
theorem test_hmac : hmac 1 (ascii "Jefe") (ascii "what do ya want for nothing?") =
    beN 32 0x5bdcc146bf60754e6a042426089575c75a003f089d2739839dec58b964ec3843 := by decide +kernel
/-- RFC 6979, A.2.5: the public key, and the signature of "sample" with SHA-256. -/
theorem test_ecdsa : ecdsaVerify (pubKey 0xC9AFA9D845BA75166B5C215767B1D6934E50C3DB36E89B127B8A622B120F6721) (ascii "sample")
    (beN 32 0xEFD48B2AACB6A8FD1140DD9CD45E81D69D2C877B56AAF991C34D0EA84EAF3716 ++
      beN 32 0xF7CB1C942D657C41D436C7A1B6E29F65F3E900DBB9AFF4064DC4AB2F843ACDA8) = true := by decide +kernel
/-- Chapter 11, Table 11-16: VALUE 41,215, RSV 41,216 and a step of 256; one increment commits 41,472. -/
theorem test_counter_reserves : ∃ t u, execCtrIncr 7 (KP (fun p => { p with handle := 0x10064, arg := 1 }) (SK [(100,
      { gen := 1, owner := 7, cls := 6, live := 41215, secret := leN 6 41216 ++ leN 6 0xFFFFFFFFFFFF ++ zeros 20 })])) = .next t ∧
    execKctOpDone 7 t = .next u ∧ (u.kct.entries[(100 : KIdx)]).live = 41216 ∧ (u.kct.entries[(100 : KIdx)]).ctrRsv = 41472 ∧
    (u.kct.pages[(7 : Fin 128)]).out0 = 0x0000A100 ∧ (u.kct.pages[(7 : Fin 128)]).out1 = 0 :=
  ⟨_, _, rfl, rfl, by decide +kernel, by decide +kernel, by decide +kernel, by decide +kernel⟩

/-- Chapter 22: SP300 lies at AK31 and AK32, MP47 at W41 and W42. -/
theorem test_balls : sprigBalls 300 = (29, 31, 32) ∧ rowLetters[28]? = some "AK" ∧ meterBalls 47 = (18, 41, 42) ∧ allBalls.length = 1764 := by decide +kernel
/-- R407: a timeout of half a second ends a WAIT of Bay's firmware within the second, with cause 8. -/
theorem test_bay_wait_ends : (BayFw.second { running := true, waiting := some (8, 500000) }).waiting = none ∧
    (BayFw.second { running := true, waiting := some (8, 500000) }).regs[10] = 8 := by decide +kernel

/-! ### Steps -/

/-- The front command runs first, with the rest behind it. -/
theorem test_front_first : ∃ t, step { run with pending := [.resetNAssert, .storeRefresh] } = .next t ∧ t.pending = [.storeRefresh] :=
  ⟨_, rfl, by decide +kernel⟩
/-- The table gives no row any bits (log 3). -/
theorem test_no_words : decodeTableWord 32 0 = none := rfl
/-- A request on an empty device is not taken: no version has been negotiated, and it is no HELLO. -/
theorem test_reset_is_dark : State.reset.live = false ∧ State.reset.pending = [] ∧ Memory.wf State.reset.tag.mem = true := by decide +kernel

/-! ### Ill-formed commands, one for each check of WellFormed -/

theorem test_short_uplink_block : Instr.wellFormed (.uplinkBlock 3 { syms := List.replicate 89 0 }) = false := by decide +kernel
theorem test_fifth_lane : Instr.wellFormed (.linkBlock .u (List.replicate 5 {})) = false := by decide +kernel
theorem test_anticollision_level : Instr.wellFormed (.tagAnticollision 4 [] true) = false := by decide +kernel
theorem test_anticollision_known : Instr.wellFormed (.tagAnticollision 1 (List.replicate 40 true) true) = false := by decide +kernel
theorem test_select_level : Instr.wellFormed (.tagSelect 0 [1, 2, 3, 4, 5] true) = false := by decide +kernel
theorem test_select_bytes : Instr.wellFormed (.tagSelect 1 [1, 2, 3, 4] true) = false := by decide +kernel
theorem test_long_apdu : Instr.wellFormed (.putAck { data := List.replicate 256 0 } 500) = false := by decide +kernel
theorem test_apdu_without_blocks : Instr.wellFormed (.readBinary { blocks := 0 }) = false := by decide +kernel
theorem test_known_ins : Instr.wellFormed (.getSummary { ins := some 0xB0 }) = false := by decide +kernel
theorem test_thirtieth_param_row : Instr.wellFormed (.mainRecallDone 0 [29]) = false := by decide +kernel
theorem test_long_request : Instr.wellFormed (.echo { body := List.replicate 4081 0 }) = false := by decide +kernel
theorem test_other_action : Instr.wellFormed (.portCtrlEnable { body := [0, 0, 0, 0, 2, 0, 0, 0] }) = false := by decide +kernel
theorem test_access_of_three_bytes : Instr.wellFormed (.tenantTrap 3 0x100 (.access .load 0 3)) = false := by decide +kernel
theorem test_aligned_target : Instr.wellFormed (.tenantTrap 3 0x100 (.misaligned 8)) = false := by decide +kernel
theorem test_third_tdea_core : Instr.wellFormed (.cipherSegmentEnd .tdea 2) = false := by decide +kernel
theorem test_short_mint_block : Instr.wellFormed (.mintBlockReady (List.replicate 31 0)) = false := by decide +kernel
theorem test_combined_test_source : Instr.wellFormed (.healthFailure ⟨2, 1, 5⟩) = false := by decide +kernel
theorem test_failure_without_count : Instr.wellFormed (.mintStartupTestEnd (some ⟨0, 1, 0⟩) 5) = false := by decide +kernel
theorem test_known_tap_code : Instr.wellFormed (.bypass 0x20) = false := by decide +kernel
theorem test_short_uid : Instr.wellFormed (.otpw (zeros 16) (zeros 6) (zeros 32) (zeros 32)) = false := by decide +kernel
theorem test_long_mailbox : Instr.wellFormed (.lcmb 1 (List.replicate 4097 0) none {}) = false := by decide +kernel

/-! ### Witnesses -/

namespace MainSideIsHeldAndReleased
def s0 : State := run
theorem witness_0 : ∃ (lv : Levels) (s : State), (lv.core < 720 ∨ lv.phy < 900 ∨ lv.io < 1600) :=
  ⟨{ core := 719, phy := 1000, io := 1800 }, s0, by decide +kernel⟩
def s1 : State := run
theorem witness_1 : ∃ (lv : Levels) (s : State), 720 ≤ lv.core ∧ 900 ≤ lv.phy ∧ 1600 ≤ lv.io :=
  ⟨{ core := 720, phy := 900, io := 1600 }, s1, by decide +kernel⟩
def s2 : State := run
theorem witness_2 : ∃ (s : State), s.live = true :=
  ⟨s2, by decide +kernel⟩
def s3 : State := {run with power := {run.power with run := .saving}}
theorem witness_3 : ∃ (s : State), (s.power.run = .saving ∨ s.power.run = .held) :=
  ⟨s3, by decide +kernel⟩
def s4 : State := {run with power := {run.power with run := .held}}
theorem witness_4 : ∃ (pins : PowerUp) (b : BitVec 48) (s : State), 765 ≤ pins.levels.core ∧ 950 ≤ pins.levels.phy ∧ 1680 ≤ pins.levels.io ∧ pins.pwrFailN = true ∧ pins.resetN = true ∧ pins.cellOk = true ∧ s.power.run = .held ∧ s.store.bootRec = some b :=
  ⟨{ levels := { core := 765, phy := 950, io := 1680 } }, 0, s4, by decide +kernel⟩
end MainSideIsHeldAndReleased

namespace SupervisorStartsAndRecalls
def B (a b : SupImage) : State := {run with power := {run.power with run := .bootRom, imgA := a, imgB := b}}
def im : Bytes := [0x41] ++ List.replicate 199 3
def s0 : State := B ⟨2,true,true⟩ ⟨2,true,true⟩
theorem witness_0 : ∃ (s : State), s.power.run = .bootRom ∧ s.lc.state ≠ .blank ∧ s.power.imgA.header = true ∧ s.power.imgA.body = true ∧ ((s.power.imgB.header = false ∨ s.power.imgB.version ≤ s.power.imgA.version)) :=
  ⟨s0, by decide +kernel⟩
def s1 : State := B ⟨2,true,true⟩ ⟨3,true,true⟩
theorem witness_1 : ∃ (s : State), s.power.run = .bootRom ∧ s.lc.state ≠ .blank ∧ s.power.imgB.header = true ∧ s.power.imgB.body = true ∧ ((s.power.imgA.header = false ∨ s.power.imgA.version < s.power.imgB.version)) :=
  ⟨s1, by decide +kernel⟩
def s2 : State := B ⟨3,true,false⟩ ⟨2,true,true⟩
theorem witness_2 : ∃ (s : State), s.power.run = .bootRom ∧ s.lc.state ≠ .blank ∧ s.power.imgA.header = true ∧ s.power.imgA.body = false ∧ s.power.imgB.header = true ∧ s.power.imgB.body = true ∧ s.power.imgB.version ≤ s.power.imgA.version :=
  ⟨s2, by decide +kernel⟩
def s3 : State := B ⟨3,true,true⟩ ⟨4,true,false⟩
theorem witness_3 : ∃ (s : State), s.power.run = .bootRom ∧ s.lc.state ≠ .blank ∧ s.power.imgB.header = true ∧ s.power.imgB.body = false ∧ s.power.imgA.header = true ∧ s.power.imgA.body = true ∧ s.power.imgA.version < s.power.imgB.version :=
  ⟨s3, by decide +kernel⟩
def s4 : State := B ⟨3,true,false⟩ ⟨2,false,true⟩
theorem witness_4 : ∃ (s : State), s.power.run = .bootRom ∧ s.lc.state ≠ .blank ∧ ((s.power.imgA.header = false ∨ s.power.imgA.body = false)) ∧ ((s.power.imgB.header = false ∨ s.power.imgB.body = false)) :=
  ⟨s4, by decide +kernel⟩
def s5 : State := {run with lc := {run.lc with state := .blank}}
theorem witness_5 : ∃ (s : State), (s.power.run ≠ .bootRom ∨ s.lc.state = .blank) :=
  ⟨s5, by decide +kernel⟩
def s6 : State := {run with hrb := {run.hrb with rclMain := 1}}
theorem witness_6 : ∃ (ms : Nat) (lost : List Nat) (s : State), s.supervisor = true ∧ s.hrb.rclMain = 1 :=
  ⟨48, [], s6, by decide +kernel⟩
def s7 : State := {run with hrb := {run.hrb with rclMain := 1}}
theorem witness_7 : ∃ (ms : Nat) (lost : List Nat) (s : State), s.supervisor = true ∧ s.hrb.rclMain = 1 ∧ s.store.zeroDue = false ∧ s.lc.state = .deployed ∧ s.guard.bbk = .valid :=
  ⟨48, [], s7, by decide +kernel⟩
def s8 : State := {run with hrb := {run.hrb with rclMain := 1}, store := {run.store with bankA := ⟨4, true, [7]⟩}}
theorem witness_8 : ∃ (b : SaveBank) (ms : Nat) (lost : List Nat) (s : State), s.supervisor = true ∧ s.hrb.rclMain = 1 ∧ s.store.zeroDue = false ∧ s.store.newestBank = some b ∧ ((∀ i : Fin 128, s.tenants.slots[i].removing = false)) :=
  ⟨⟨4, true, [7]⟩, 48, [2], s8, by decide +kernel⟩
def s9 : State := {run with hrb := {run.hrb with rclMain := 1}, guard := {run.guard with bbk := .lost}}
theorem witness_9 : ∃ (ms : Nat) (lost : List Nat) (s : State), s.supervisor = true ∧ s.hrb.rclMain = 1 ∧ s.store.zeroDue = false ∧ s.lc.state = .deployed ∧ s.guard.bbk ≠ .valid ∧ s.guard.rekey = none :=
  ⟨48, [], s9, by decide +kernel⟩
def s10 : State := run
theorem witness_10 : ∃ (ms : Nat) (lost : List Nat) (s : State), (s.supervisor = false ∨ s.hrb.rclMain ≠ 1) :=
  ⟨48, [], s10, by decide +kernel⟩
def s11 : State := ({run with power := {run.power with coldStarts := [5, 6]}} : State).updSlot 5 fun k => {k with state := .quiesced, restart := true, image := some im, run := {k.run with weight := 3, sram := 2}}
theorem witness_11 : ∃ (i : Fin 128) (r : List (Fin 128)) (m : Bytes) (s : State), s.power.coldStarts = i :: r ∧ s.supervisor = true ∧ s.hrb.rclMain = 2 ∧ s.tenants.slots[i].restart = true ∧ s.tenants.slots[i].removing = false ∧ s.tenants.slots[i].state = .quiesced ∧ s.tenants.slots[i].image = some m ∧ s.tenants.slots[i].imageOk = true ∧ s.lc.state = .deployed ∧ s.guard.tampered = false ∧ s.mint.state ≠ .failed :=
  ⟨5, [6], im, s11, by decide +kernel⟩
end SupervisorStartsAndRecalls

namespace SavesAreWritten
def s0 : State := run
theorem witness_0 : ∃ (s : State), s.supervisor = true ∧ s.hrb.rclMain = 2 ∧ s.mint.state = .ready ∧ s.power.seedDone = false ∧ s.commits = true :=
  ⟨s0, by decide +kernel⟩
def s1 : State := {run with power := {run.power with seedDone := true}}
theorem witness_1 : ∃ (s : State), s.power.seedDone = true :=
  ⟨s1, by decide +kernel⟩
def s2 : State := run
theorem witness_2 : ∃ (s : State), s.supervisor = true ∧ s.hrb.rclMain = 2 ∧ s.hrb.uptime ≠ 0 ∧ s.hrb.uptime.toNat % 3600 = 0 ∧ s.commits = true ∧ ((∀ b, s.store.newestBank = some b → b.seq ≠ 0xFFFFFFFFFFFF)) :=
  ⟨s2, by decide +kernel⟩
def s3 : State := run
theorem witness_3 : ∃ (s : State), s.live = true :=
  ⟨s3, by decide +kernel⟩
def s4 : State := {run with power := {run.power with run := .held}}
theorem witness_4 : ∃ (s : State), s.live = false :=
  ⟨s4, by decide +kernel⟩
def s5 : State := run
theorem witness_5 : ∃ (s : State), s.live = true ∧ s.power.pwrFailN = true :=
  ⟨s5, by decide +kernel⟩
def s6 : State := {run with power := {run.power with run := .saving}}
theorem witness_6 : ∃ (dur : BitVec 16) (s : State), s.power.run = .saving ∧ s.power.limited = false ∧ s.power.resetN = true ∧ s.commits = true ∧ ((∀ b, s.store.newestBank = some b → b.seq ≠ 0xFFFFFFFFFFFF)) :=
  ⟨33, s6, by decide +kernel⟩
def s7 : State := {run with power := {run.power with run := .saving, limited := true}}
theorem witness_7 : ∃ (dur : BitVec 16) (s : State), s.power.run = .saving ∧ s.power.limited = true ∧ s.power.resetN = true :=
  ⟨33, s7, by decide +kernel⟩
end SavesAreWritten

namespace RefreshPinsAndLocks
def s0 : State := run
theorem witness_0 : ∃ (s : State), s.live = true :=
  ⟨s0, by decide +kernel⟩
def s1 : State := run
theorem witness_1 : ∃ (rows : Bool) (table : Bool) (s : State), (s.supervisor = false ∨ (s.tag.rowsAwait = false ∧ s.store.ptableAwait = false)) :=
  ⟨true, true, s1, by decide +kernel⟩
def s2 : State := {run with store := {run.store with ptable := .lost, ptableAwait := true}}
theorem witness_2 : ∃ (rows : Bool) (s : State), s.supervisor = true ∧ s.tag.rowsAwait = false ∧ s.store.ptableAwait = true :=
  ⟨true, s2, by decide +kernel⟩
def s3 : State := {run with store := {run.store with ptable := .lost, ptableAwait := true}}
theorem witness_3 : ∃ (rows : Bool) (s : State), s.supervisor = true ∧ s.tag.rowsAwait = false ∧ s.store.ptableAwait = true :=
  ⟨true, s3, by decide +kernel⟩
def s4 : State := {run with tag := {run.tag with rowsAwait := true, holder := .none, job := none}}
theorem witness_4 : ∃ (rows : Bool) (table : Bool) (s : State), s.supervisor = true ∧ s.tag.rowsAwait = true ∧ s.tag.job = none :=
  ⟨true, true, s4, by decide +kernel⟩
def s5 : State := run
theorem witness_5 : ∃ (s : State), s.live = true ∧ s.power.carLock = true :=
  ⟨s5, by decide +kernel⟩
def s6 : State := {run with power := {run.power with carLock := false, lostPorts := [3, 5]}}
theorem witness_6 : ∃ (s : State), s.live = true ∧ s.power.carLock = false :=
  ⟨s6, by decide +kernel⟩
def s7 : State := run
theorem witness_7 : ∃ (s : State), s.live = true :=
  ⟨s7, by decide +kernel⟩
def s8 : State := run
theorem witness_8 : ∃ (s : State), s.live = true :=
  ⟨s8, by decide +kernel⟩
end RefreshPinsAndLocks

namespace FrameBoundaryMovesPorts
def s0 : State := allPorts (fun n p => if n = 3 then {p with en := true} else if n = 4 then {p with en := true, state := .active, gotUp := true, fails := 16} else if n = 5 then {p with en := true, state := .idleSense, gotUp := true, askWake := true} else if n = 6 then {p with en := true, state := .idleSense, gotUp := true, askRetrain := true} else if n = 7 then {p with en := true, state := .fault, cause := 2, delayOver := true} else p) run
theorem witness_0 : ∃ (s : State), s.live = true ∧ s.power.carLock = true :=
  ⟨s0, by decide +kernel⟩
def s1 : State := {run with power := {run.power with carLock := false}}
theorem witness_1 : ∃ (s : State), (s.live = false ∨ s.power.carLock = false) :=
  ⟨s1, by decide +kernel⟩
end FrameBoundaryMovesPorts

namespace UplinkBlockIsJudged
def P : State := run.updPort 9 fun p => {p with state := .active, en := true, expect := 5}
def pay : Bytes := List.replicate 80 0
def s0 : State := P
theorem witness_0 : ∃ (p : Fin 512) (w : UpWindow) (s : State), s.live = true ∧ s.power.carLock = true ∧ (s.sprig.ports[p].state = .idleSense ∨ s.sprig.ports[p].state = .active) ∧ s.sprig.ports[p].gotUp = false ∧ s.sprig.ports[p].askPing = false ∧ (w.coded = false ∨ w.crc ≠ windowCrc w.hdr w.payload) ∧ s.sprig.ports[p].dropped = 0 :=
  ⟨9, { syms := [] }, s0, by decide +kernel⟩
def s1 : State := P
theorem witness_1 : ∃ (p : Fin 512) (hdr : Word) (pay : Bytes) (d : Int) (s : State), s.live = true ∧ s.power.carLock = true ∧ (s.sprig.ports[p].state = .idleSense ∨ s.sprig.ports[p].state = .active) ∧ s.sprig.ports[p].gotUp = false ∧ s.sprig.ports[p].pendCause = 0 ∧ pay.length = 80 ∧ s.sprig.ports[p].dropped = 0 ∧ hdr.extractLsb' 26 6 ≠ s.sprig.frame.extractLsb' 0 6 :=
  ⟨9, 0x04000000, pay, 0, s1, by decide +kernel⟩
def s2 : State := P
theorem witness_2 : ∃ (p : Fin 512) (hdr : Word) (pay : Bytes) (d : Int) (s : State), s.live = true ∧ s.power.carLock = true ∧ (s.sprig.ports[p].state = .idleSense ∨ s.sprig.ports[p].state = .active) ∧ s.sprig.ports[p].gotUp = false ∧ s.sprig.ports[p].pendCause = 0 ∧ s.sprig.ports[p].out = none ∧ pay.length = 80 ∧ s.sprig.ports[p].dropped = 0 ∧ hdr.extractLsb' 26 6 = s.sprig.frame.extractLsb' 0 6 ∧ hdr.extractLsb' 21 3 = 0 ∧ (hdr.extractLsb' 14 7).toNat ≤ 80 ∧ d = s.sprig.ports[p].delay0 :=
  ⟨9, ((BitVec.ofNat 32 ((70000 % 64) * 2^26 + 10 * 2^14))), pay, 0, s2, by decide +kernel⟩
def s3 : State := P
theorem witness_3 : ∃ (p : Fin 512) (hdr : Word) (pay : Bytes) (d : Int) (s : State), s.live = true ∧ s.power.carLock = true ∧ (s.sprig.ports[p].state = .idleSense ∨ s.sprig.ports[p].state = .active) ∧ s.sprig.ports[p].gotUp = false ∧ s.sprig.ports[p].pendCause = 0 ∧ s.sprig.ports[p].out = none ∧ pay.length = 80 ∧ s.sprig.ports[p].dropped = 0 ∧ hdr.extractLsb' 26 6 = s.sprig.frame.extractLsb' 0 6 ∧ hdr.extractLsb' 21 3 = 1 ∧ (hdr.extractLsb' 14 7).toNat ≤ 80 ∧ hdr.extractLsb' 24 2 = 0 ∧ hdr.extractLsb' 4 4 ≠ s.sprig.ports[p].expect ∧ hdr.extractLsb' 4 4 + 1 ≠ s.sprig.ports[p].expect ∧ d = s.sprig.ports[p].delay0 :=
  ⟨9, ((BitVec.ofNat 32 ((70000 % 64) * 2^26 + 1 * 2^21 + 10 * 2^14 + 7*16))), pay, 0, s3, by decide +kernel⟩
def s4 : State := P.updPort 9 (fun p => {p with gotUp := true})
theorem witness_4 : ∃ (p : Fin 512) (w : UpWindow) (s : State), s.sprig.ports[p].gotUp = true :=
  ⟨9, {}, s4, by decide +kernel⟩
end UplinkBlockIsJudged

namespace PortsFollowEventsAndOrders
def P (f : Port → Port) : State := run.updPort 9 fun p => f {p with state := .active, en := true, expect := 5}
def s0 : State := P (fun p => {p with state := .training, trainStep := 1, good := 8})
theorem witness_0 : ∃ (p : Fin 512) (s : State), s.live = true ∧ s.power.carLock = true ∧ s.sprig.ports[p].state = .training ∧ s.sprig.ports[p].trainStep = 1 ∧ 8 ≤ s.sprig.ports[p].good :=
  ⟨9, s0, by decide +kernel⟩
def s1 : State := P (fun p => {p with state := .training, trainStart := 65904})
theorem witness_1 : ∃ (p : Fin 512) (s : State), s.live = true ∧ s.power.carLock = true ∧ s.sprig.ports[p].state = .training ∧ s.sprig.ports[p].pendCause = 0 ∧ s.sprig.ports[p].trainStart + 4096 ≤ s.sprig.frame.toNat ∧ s.sprig.ports[p].trained = false ∧ (s.sprig.ports[p].trainStep ≠ 1 ∨ s.sprig.ports[p].good < 8) :=
  ⟨9, s1, by decide +kernel⟩
def s2 : State := P (fun p => {p with gotUp := true, out := some { seq := 3, tries := 3, items := [.can] }})
theorem witness_2 : ∃ (p : Fin 512) (d : DownData) (s : State), s.live = true ∧ s.power.carLock = true ∧ (s.sprig.ports[p].state = .idleSense ∨ s.sprig.ports[p].state = .active) ∧ s.sprig.ports[p].gotUp = true ∧ s.sprig.ports[p].out = some d ∧ d.tries = 3 ∧ s.sprig.ports[p].pendCause = 0 :=
  ⟨9, { seq := 3, tries := 3, items := [.can] }, s2, by decide +kernel⟩
def s3 : State := P (fun p => {p with fails := 16})
theorem witness_3 : ∃ (p : Fin 512) (s : State), s.live = true ∧ s.power.carLock = true ∧ (s.sprig.ports[p].state = .idleSense ∨ s.sprig.ports[p].state = .active) ∧ 16 ≤ s.sprig.ports[p].fails ∧ s.sprig.ports[p].pendCause = 0 :=
  ⟨9, s3, by decide +kernel⟩
def s4 : State := P (fun p => {p with state := .fault, faultFrame := 68976})
theorem witness_4 : ∃ (p : Fin 512) (s : State), s.live = true ∧ s.power.carLock = true ∧ s.sprig.ports[p].state = .fault ∧ s.sprig.ports[p].autoRetrain = true ∧ s.sprig.ports[p].faultFrame + (if s.sprig.ports[p].badTrain < 8 then 1024 else 65536) ≤ s.sprig.frame.toNat :=
  ⟨9, s4, by decide +kernel⟩
def s5 : State := P (fun p => {p with state := .idleSense, seeding := 3, lastPing := 69900})
theorem witness_5 : ∃ (p : Fin 512) (f : Nat) (s : State), s.live = true ∧ s.power.carLock = true ∧ s.sprig.ports[p].state = .idleSense ∧ s.sprig.ports[p].wakeOn = true ∧ 0 < s.sprig.ports[p].seeding ∧ s.sprig.ports[p].lastPing < f ∧ s.sprig.frame.toNat + 5 ≤ f ∧ f ≤ s.sprig.frame.toNat + 16 ∧ f % 32 = p.val / 16 % 32 :=
  ⟨9, 70016, s5, by decide +kernel⟩
def s6 : State := P (fun p => {p with state := .idleSense, seeding := 0, lastPing := 69900, ping := {p.ping with interval := 1}})
theorem witness_6 : ∃ (p : Fin 512) (f : Nat) (n : Nat) (s : State), s.live = true ∧ s.power.carLock = true ∧ s.sprig.ports[p].state = .idleSense ∧ s.sprig.ports[p].wakeOn = true ∧ s.sprig.ports[p].seeding = 0 ∧ n = pingInterval s.sprig.ports[p].ping.interval ∧ s.sprig.ports[p].lastPing < f ∧ s.sprig.frame.toNat + 5 ≤ f ∧ f ≤ s.sprig.frame.toNat + 16 ∧ f % n = p.val / 16 % n :=
  ⟨9, 70016, 64, s6, by decide +kernel⟩
def s7 : State := run
theorem witness_7 : ∃ (p : Fin 512) (b : Bool) (s : State), s.live = true :=
  ⟨9, true, s7, by decide +kernel⟩
end PortsFollowEventsAndOrders

namespace TenantCommandsAreTaken
def P (f : Port → Port) : State := ({(slotRun 7 run) with store := { run.store with portEpoch := run.store.portEpoch.set 9 4 }} : State).updPort 9 fun p => f {p with state := .active, en := true, owner := some 7, ctx := {p.ctx with owner := 7, epoch := 4, phase := .found, tech := .a, sak := 0x20, step := .none}}
def s0 : State := P (fun p => {p with state := .idleSense, ctx := {p.ctx with phase := .idle}, page := {p.page with cmdArg := 0x30000}})
theorem witness_0 : ∃ (p : Fin 512) (s : State), s.mayCommand p ∧ s.sprig.ports[p].state = .idleSense ∧ s.sprig.ports[p].ctx.phase = .idle ∧ s.sprig.ports[p].ctx.owner = s.sprig.ports[p].ownerByte ∧ s.sprig.ports[p].ctx.epoch = s.store.portEpoch[p] ∧ (s.sprig.ports[p].page.cmdArg.extractLsb' 16 16).toNat ≤ 3 :=
  ⟨9, s0, by unfold State.mayCommand; decide +kernel, by decide +kernel⟩
def s1 : State := P (fun p => {p with page := {p.page with cmdArg := 0x10A0640}})
theorem witness_1 : ∃ (p : Fin 512) (s : State), s.mayCommand p ∧ s.working p ∧ s.sprig.ports[p].ctx.phase = .found ∧ s.sprig.ports[p].ctx.tech = .a ∧ s.sprig.ports[p].ctx.sak.getLsbD 5 = true ∧ (s.sprig.ports[p].page.cmdArg.extractLsb' 16 16).toNat % 16 ≤ 10 :=
  ⟨9, s1, by unfold State.mayCommand; decide +kernel, by unfold State.working; decide +kernel, by decide +kernel⟩
def s2 : State := P (fun p => {p with ctx := {p.ctx with phase := .ready}, page := {p.page with cmdArg := 0x640}})
theorem witness_2 : ∃ (p : Fin 512) (s : State), s.mayCommand p ∧ s.working p ∧ s.sprig.ports[p].ctx.phase = .ready :=
  ⟨9, s2, by unfold State.mayCommand; decide +kernel, by unfold State.working; decide +kernel, by decide +kernel⟩
def s3 : State := P (fun p => {p with page := {p.page with cmdArg := 0x640}})
theorem witness_3 : ∃ (p : Fin 512) (s : State), s.mayCommand p ∧ s.working p ∧ (s.sprig.ports[p].ctx.phase = .found ∨ s.sprig.ports[p].ctx.phase = .ready) :=
  ⟨9, s3, by unfold State.mayCommand; decide +kernel, by unfold State.working; decide +kernel, by decide +kernel⟩
def s4 : State := P (fun p => p)
theorem witness_4 : ∃ (p : Fin 512) (s : State), s.mayCommand p ∧ s.working p ∧ s.sprig.ports[p].ctx.phase = .found :=
  ⟨9, s4, by unfold State.mayCommand; decide +kernel, by unfold State.working; decide +kernel, by decide +kernel⟩
def s5 : State := P (fun p => {p with ctx := {p.ctx with phase := .ready, iso4 := true}})
theorem witness_5 : ∃ (p : Fin 512) (s : State), s.mayCommand p ∧ s.working p ∧ s.sprig.ports[p].ctx.phase = .ready :=
  ⟨9, s5, by unfold State.mayCommand; decide +kernel, by unfold State.working; decide +kernel, by decide +kernel⟩
def s6 : State := P (fun p => {p with page := {p.page with busy := true, op := 3, cmdArg := 5}, ctx := {p.ctx with phase := .exchange}})
theorem witness_6 : ∃ (p : Fin 512) (s : State), s.ownerCalls p = true ∧ s.working p ∧ s.sprig.ports[p].page.busy = true ∧ s.sprig.ports[p].page.op ≠ 1 ∧ (s.sprig.ports[p].page.cmdArg.extractLsb' 0 16).toNat ≤ 1600 :=
  ⟨9, s6, by decide +kernel, by unfold State.working; decide +kernel, by decide +kernel⟩
def s7 : State := P (fun p => p)
theorem witness_7 : ∃ (p : Fin 512) (s : State), s.mayCommand p ∧ s.working p ∧ s.sprig.ports[p].ctx.phase ≠ .ready :=
  ⟨9, s7, by unfold State.mayCommand; decide +kernel, by unfold State.working; decide +kernel, by decide +kernel⟩
end TenantCommandsAreTaken

namespace ThymeMovesOn
def P (f : Port → Port) : State := ({(slotRun 7 run) with store := { run.store with portEpoch := run.store.portEpoch.set 9 4 }} : State).updPort 9 fun p => f {p with state := .active, en := true, owner := some 7, ctx := {p.ctx with owner := 7, epoch := 4, phase := .found, tech := .a, sak := 0x20, step := .none}}
def s0 : State := P (fun p => {p with ctx := {p.ctx with step := .fieldOn, phase := .polling}})
theorem witness_0 : ∃ (p : Fin 512) (s : State), s.working p ∧ s.sprig.ports[p].sliceDone ≠ some s.sprig.frame.toNat ∧ s.sprig.ports[p].upq = [] ∧ s.sprig.ports[p].downq = [] ∧ s.sprig.ports[p].canDue = false ∧ s.sprig.ports[p].page.cmd.getLsbD 15 = false ∧ s.sprig.ports[p].ctx.step = .fieldOn :=
  ⟨9, s0, by unfold State.working; decide +kernel, by decide +kernel⟩
def s1 : State := P (fun p => {p with sliceDone := some 70000})
theorem witness_1 : ∃ (p : Fin 512) (s : State), s.portsRun = true ∧ s.sprig.ports[p].sliceDone = some s.sprig.frame.toNat ∧ s.sprig.ports[p].ctx.tick = 0 :=
  ⟨9, s1, by decide +kernel⟩
def s2 : State := P (fun p => {p with page := {p.page with busy := true, op := 5}, ctx := {p.ctx with phase := .closing, step := .hltA false, sent := true, e := BitVec.ofNat 32 (256*69000), tClose := BitVec.ofNat 32 (256*69100)}})
theorem witness_2 : ∃ (p : Fin 512) (s : State), s.working p ∧ s.sprig.ports[p].ctx.step = .hltA false ∧ s.sprig.ports[p].ctx.tech = .a ∧ s.sprig.ports[p].ctx.sent = true ∧ s.sprig.ports[p].ctx.tsof = none ∧ s.sprig.ports[p].page.busy = true ∧ notEarlier (BitVec.ofNat 32 (256 * s.sprig.frame.toNat)) s.sprig.ports[p].ctx.giveUp = true :=
  ⟨9, s2, by unfold State.working; decide +kernel, by decide +kernel⟩
def s3 : State := P (fun p => {p with ctx := {p.ctx with phase := .polling, step := .guard, named := some 2}})
theorem witness_3 : ∃ (p : Fin 512) (s : State), s.working p ∧ s.sprig.ports[p].ctx.step = .guard ∧ s.sprig.ports[p].ctx.named = some 2 ∧ s.sprig.ports[p].ctx.repoll = false :=
  ⟨9, s3, by unfold State.working; decide +kernel, by decide +kernel⟩
def s4 : State := P (fun p => {p with ctx := {p.ctx with phase := .polling, step := .gap, passes := [.b, .v]}})
theorem witness_4 : ∃ (p : Fin 512) (r : List Tech) (s : State), s.working p ∧ s.sprig.ports[p].ctx.step = .gap ∧ s.sprig.ports[p].ctx.passes = .b :: r :=
  ⟨9, [.v], s4, by unfold State.working; decide +kernel, by decide +kernel⟩
def s5 : State := P (fun p => {p with ctx := {p.ctx with phase := .closing, step := .resetOff, sent := true}})
theorem witness_5 : ∃ (p : Fin 512) (s : State), s.working p ∧ s.sprig.ports[p].ctx.step = .resetOff ∧ s.sprig.ports[p].ctx.sent = true ∧ s.sprig.ports[p].downq = [] ∧ s.sprig.ports[p].canDue = false :=
  ⟨9, s5, by unfold State.working; decide +kernel, by decide +kernel⟩
def s6 : State := P (fun p => {p with ctx := {p.ctx with phase := .polling, step := .endDue, endStatus := 0x0105}})
theorem witness_6 : ∃ (p : Fin 512) (s : State), s.working p ∧ s.sprig.ports[p].ctx.step = .endDue :=
  ⟨9, s6, by unfold State.working; decide +kernel, by decide +kernel⟩
def s7 : State := P (fun p => {p with page := {p.page with evqWr := 20, evqRd := 4}})
theorem witness_7 : ∃ (p : Fin 512) (v : BitVec 16) (s : State), s.ownerCalls p = true ∧ (s.sprig.ports[p].page.evqWr - v).toNat ≤ 16 :=
  ⟨9, 4, s7, by decide +kernel⟩
def s8 : State := P (fun p => {p with page := {p.page with evqWr := 20, evqRd := 4}})
theorem witness_8 : ∃ (p : Fin 512) (v : BitVec 16) (s : State), s.ownerCalls p = true ∧ 16 < (s.sprig.ports[p].page.evqWr - v).toNat :=
  ⟨9, 3, s8, by decide +kernel⟩
end ThymeMovesOn

namespace AppliesTakeEffect
def A (f : Bool) : Apply := ⟨f, { weight := 9, sram := 3, ports := Vector.replicate 16 0 }⟩
def S (f : Bool) : State := slotRun 7 (run.updSlot 7 fun k => {k with apply := some (A f), run := {k.run with ports := (Vector.replicate 16 0).set 0 0x200}})
def m : PortMove := ⟨none, true, 5, 66, 2⟩
def s0 : State := (S true).updPort 9 (fun p => {p with owner := some 7})
theorem witness_0 : ∃ (i : Fin 128) (a : Apply) (s : State), s.live = true ∧ s.tenants.slots[i].apply = some a ∧ (s.portBusy i a.target = false ∨ a.force = true) :=
  ⟨7, (A true), s0, by decide +kernel, by decide +kernel, (.inr rfl)⟩
def s1 : State := (S false).updPort 9 (fun p => {p with owner := some 7, state := .active, en := true, page := {p.page with busy := true}, ctx := {p.ctx with phase := .exchange}})
theorem witness_1 : ∃ (i : Fin 128) (a : Apply) (s : State), s.live = true ∧ s.tenants.slots[i].apply = some a ∧ s.portBusy i a.target = true ∧ a.force = false :=
  ⟨7, (A false), s1, by decide +kernel⟩
def s2 : State := run
theorem witness_2 : ∃ (i : Fin 128) (s : State), s.tenants.slots[i].apply = none :=
  ⟨7, s2, by decide +kernel⟩
def s3 : State := run.updPort 9 (fun p => {p with moved := some ⟨some 7, true, 5, 66, 2⟩, owner := some 8})
theorem witness_3 : ∃ (p : Fin 512) (m : PortMove) (s : State), s.live = true ∧ s.sprig.ports[p].moved = some m :=
  ⟨9, ⟨some 7, true, 5, 66, 2⟩, s3, by decide +kernel⟩
def s4 : State := caps (run.updPort 9 fun p => {p with moved := some m})
theorem witness_4 : ∃ (p : Fin 512) (m : PortMove) (s : State), s.live = true ∧ s.sprig.ports[p].moved = some m ∧ m.old = none ∧ s.sprig.ports[p].owner = none ∧ s.accepts 0x0C = true ∧ s.devEvents < 256 :=
  ⟨9, m, s4, by decide +kernel⟩
def s5 : State := run
theorem witness_5 : ∃ (p : Fin 512) (s : State), s.sprig.ports[p].moved = none :=
  ⟨9, s5, by decide +kernel⟩
end AppliesTakeEffect

namespace TagSessionsAndLayer3
def T (f : Tag → Tag) : State := {run with tag := f {run.tag with running := true, vst := 330, field := true, session := true, mem := Memory.ofBytes 0xF000 ([0x02,1,2,3,4,5,6,0] ++ List.replicate 24 0x5A)}}
def s0 : State := run
theorem witness_0 : ∃ (v : Nat) (s : State), s.tag.running = false ∧ 205 < v :=
  ⟨206, s0, by decide +kernel⟩
def s1 : State := T (fun t => t)
theorem witness_1 : ∃ (rows : Nat) (s : State), s.tag.running = true ∧ (s.tag.job = none ∨ s.tag.holder ≠ .field) :=
  ⟨3, s1, by decide +kernel⟩
def s2 : State := T (fun t => {t with session := false, field := false})
theorem witness_2 : ∃ (s : State), s.tag.running = true ∧ s.tag.session = false :=
  ⟨s2, by decide +kernel⟩
def s3 : State := T (fun t => t)
theorem witness_3 : ∃ (s : State), s.tag.session = true :=
  ⟨s3, by decide +kernel⟩
def s4 : State := T (fun t => t)
theorem witness_4 : ∃ (s : State), s.tagL3 = true ∧ s.tag.l3 = .idle :=
  ⟨s4, by decide +kernel⟩
def s5 : State := T (fun t => {t with l3 := .halt})
theorem witness_5 : ∃ (s : State), s.tagL3 = true ∧ s.tag.l3 = .halt :=
  ⟨s5, by decide +kernel⟩
def s6 : State := T (fun t => {t with l3 := .halt})
theorem witness_6 : ∃ (s : State), s.tagL3 = true ∧ (s.tag.l3 = .idle ∨ s.tag.l3 = .halt) :=
  ⟨s6, by decide +kernel⟩
def s7 : State := T (fun t => {t with l3 := .ready, random := true, rid := 0x123456})
theorem witness_7 : ∃ (known : List Bool) (one : Bool) (u : Bytes) (s : State), s.tagL3 = true ∧ s.tag.l3 = .ready ∧ s.tag.uidCl s.tag.level = some u ∧ known = (airBits u).take known.length ∧ known.length < 40 :=
  ⟨((airBits [0x08, 0x56])), true, ((s7.tag.uidCl s7.tag.level).getD []), s7, by decide +kernel⟩
def s8 : State := T (fun t => {t with l3 := .ready})
theorem witness_8 : ∃ (one : Bool) (u : Bytes) (s : State), s.tagL3 = true ∧ s.tag.l3 = .ready ∧ s.tag.level = 1 ∧ s.tag.uidCl 1 = some u ∧ s.tag.random = false :=
  ⟨true, ((s8.tag.uidCl 1).getD []), s8, by decide +kernel⟩
def s9 : State := T (fun t => {t with l3 := .ready, level := 2})
theorem witness_9 : ∃ (one : Bool) (u : Bytes) (s : State), s.tagL3 = true ∧ s.tag.l3 = .ready ∧ s.tag.uidCl s.tag.level = some u ∧ (s.tag.random = true ∨ s.tag.level = 2) :=
  ⟨true, ((s9.tag.uidCl 2).getD []), s9, by decide +kernel⟩
def s10 : State := T (fun t => {t with l3 := .ready})
theorem witness_10 : ∃ (n : Nat) (u : Bytes) (v : Bytes) (one : Bool) (s : State), s.tagL3 = true ∧ s.tag.l3 = .ready ∧ s.tag.uidCl s.tag.level = some v ∧ u ≠ v :=
  ⟨1, [1,2,3,4,5], ((s10.tag.uidCl 1).getD []), true, s10, by decide +kernel⟩
def s11 : State := T (fun t => {t with l3 := .active})
theorem witness_11 : ∃ (s : State), s.tagL3 = true ∧ (s.tag.l3 = .ready ∨ s.tag.l3 = .active) :=
  ⟨s11, by decide +kernel⟩
def s12 : State := T (fun t => {t with l3 := .ready, star := true})
theorem witness_12 : ∃ (s : State), s.tagL3 = true ∧ (s.tag.l3 = .ready ∨ s.tag.l3 = .active) :=
  ⟨s12, by decide +kernel⟩
end TagSessionsAndLayer3

namespace TagLayer4
def T (f : Tag → Tag) : State := {run with tag := f {run.tag with running := true, vst := 330, field := true, session := true, l3 := .active}}
def s0 : State := T (fun t => t)
theorem witness_0 : ∃ (fsdi : BitVec 4) (cid : BitVec 4) (one : Bool) (n : Nat) (s : State), s.tagL3 = true ∧ s.tag.l3 = .active :=
  ⟨8, 3, true, 9, s0, by decide +kernel⟩
def s1 : State := T (fun t => {t with iso4 := true, ppsDue := true, cid := 3, ppsMax := 1})
theorem witness_1 : ∃ (d : BitVec 4) (one : Bool) (n : Nat) (s : State), s.tagL4 = true ∧ s.tag.ppsDue = true ∧ d.toNat ≤ s.tag.ppsMax ∧ 9 ≤ n :=
  ⟨0, true, 9, s1, by decide +kernel⟩
def s2 : State := T (fun t => {t with iso4 := true, cid := 3})
theorem witness_2 : ∃ (one : Bool) (n : Nat) (s : State), s.tagL4 = true ∧ s.tag.holder ≠ .field :=
  ⟨true, 9, s2, by decide +kernel⟩
def s3 : State := T (fun t => {t with iso4 := true, cid := 3, job := some (.read [] 0 3)})
theorem witness_3 : ∃ (j : FieldJob) (one : Bool) (n : Nat) (s : State), s.tagL4 = true ∧ s.tag.job = some j ∧ s.tag.jobCid = none :=
  ⟨(.read [] 0 3), true, 9, s3, by decide +kernel⟩
def s4 : State := T (fun t => {t with iso4 := true, lastBlock := [2,3]})
theorem witness_4 : ∃ (nak : Bool) (one : Bool) (n : Nat) (s : State), s.tagL4 = true ∧ s.tag.cid = 0 ∧ s.tag.lastBlock ≠ [] ∧ 9 ≤ n :=
  ⟨true, true, 9, s4, by decide +kernel⟩
def s5 : State := T (fun t => {t with iso4 := true})
theorem witness_5 : ∃ (one : Bool) (n : Nat) (s : State), s.tagL4 = true ∧ s.tag.cid = 0 ∧ 9 ≤ n :=
  ⟨true, 9, s5, by decide +kernel⟩
def s6 : State := T (fun t => {t with iso4 := true, cid := 3, holder := .field, job := some (.read [] 0 3)})
theorem witness_6 : ∃ (j : FieldJob) (one : Bool) (n : Nat) (s : State), s.tagL4 = true ∧ s.tag.holder = .field ∧ s.tag.job = some j :=
  ⟨(.read [] 0 3), true, 9, s6, by decide +kernel⟩
end TagLayer4

namespace TagFiles
def T (f : Tag → Tag) : State := {run with tag := f {run.tag with running := true, vst := 330, field := true, session := true, l3 := .active, iso4 := true}}
def s0 : State := T (fun t => t)
theorem witness_0 : ∃ (c : Apdu) (s : State), s.takesApdu c ∧ c.cla = 0x00 ∧ c.p1 = 0x04 ∧ c.p2 = 0x00 ∧ c.data = [0xF0, 0x41, 0x45, 0x4C, 0x4B, 0x49, 0x4E, 0x31] ∧ s.tag.app ≠ .inspector :=
  ⟨{cla := 0, p1 := 4, data := [0xF0, 0x41, 0x45, 0x4C, 0x4B, 0x49, 0x4E, 0x31]}, s0, by unfold State.takesApdu; decide +kernel, by decide +kernel⟩
def s1 : State := T (fun t => t)
theorem witness_1 : ∃ (c : Apdu) (s : State), s.takesApdu c ∧ c.cla = 0x00 ∧ (c.p1 ≠ 0x04 ∨ c.p2 ≠ 0x00) :=
  ⟨{cla := 0, p1 := 4, p2 := 1, data := [0xF0]}, s1, by unfold State.takesApdu; decide +kernel, by decide +kernel⟩
def s2 : State := T (fun t => {t with app := .ndef})
theorem witness_2 : ∃ (c : Apdu) (s : State), s.takesApdu c ∧ c.cla = 0x00 ∧ s.tag.app = .ndef ∧ c.p1 = 0x00 ∧ c.p2 = 0x0C ∧ c.data = [0xE1, 0x03] :=
  ⟨{cla := 0, p2 := 0x0C, data := [0xE1, 3]}, s2, by unfold State.takesApdu; decide +kernel, by decide +kernel⟩
def s3 : State := T (fun t => {t with app := .ndef})
theorem witness_3 : ∃ (c : Apdu) (s : State), s.takesApdu c ∧ c.cla = 0x00 ∧ s.tag.app = .ndef ∧ c.p1 = 0x00 ∧ c.p2 = 0x0C ∧ c.data = [0xE1, 0x04] :=
  ⟨{cla := 0, p2 := 0x0C, data := [0xE1, 4]}, s3, by unfold State.takesApdu; decide +kernel, by decide +kernel⟩
def s4 : State := T (fun t => {t with app := .ndef, file := .cc})
theorem witness_4 : ∃ (c : Apdu) (s : State), s.takesApdu c ∧ c.cla = 0x00 ∧ s.tag.app = .ndef ∧ s.tag.file = .cc ∧ c.data = [] ∧ c.p1 = 0 ∧ c.p2 = 0 ∧ c.le = some 15 :=
  ⟨{cla := 0, le := some 15}, s4, by unfold State.takesApdu; decide +kernel, by decide +kernel⟩
def s5 : State := T (fun t => {t with app := .ndef, file := .ndef})
theorem witness_5 : ∃ (c : Apdu) (s : State), s.takesApdu c ∧ c.cla = 0x00 ∧ s.tag.app = .ndef ∧ s.tag.file = .ndef ∧ c.data = [] ∧ 256 ≤ c.p1.toNat * 256 + c.p2.toNat :=
  ⟨{cla := 0, p1 := 1, le := some 15}, s5, by unfold State.takesApdu; decide +kernel, by decide +kernel⟩
def s6 : State := T (fun t => {t with app := .ndef, file := .ndef, latch := some (some true)})
theorem witness_6 : ∃ (c : Apdu) (b : Bool) (s : State), s.takesApdu c ∧ c.cla = 0x00 ∧ s.tag.app = .ndef ∧ s.tag.file = .ndef ∧ c.data = [] ∧ c.p1 = 0 ∧ c.le = some 1 ∧ s.tag.latch = some (some b) ∧ s.tag.holder = .none ∧ s.tag.mainJobs = [] :=
  ⟨{cla := 0, p2 := 255, le := some 1}, true, s6, by unfold State.takesApdu; decide +kernel, by decide +kernel⟩
def s7 : State := T (fun t => {t with app := .ndef, file := .ndef})
theorem witness_7 : ∃ (c : Apdu) (s : State), s.takesApdu c ∧ c.cla = 0x00 :=
  ⟨{cla := 0, p2 := 255, le := some 1}, s7, by unfold State.takesApdu; decide +kernel, by decide +kernel⟩
def s8 : State := T (fun t => {t with app := .inspector})
theorem witness_8 : ∃ (c : Apdu) (s : State), s.takesApdu c ∧ c.cla = 0x80 ∧ s.tag.app = .inspector ∧ c.p1 = 0 ∧ c.p2 = 0 ∧ c.data = [] :=
  ⟨{}, s8, by unfold State.takesApdu; decide +kernel, by decide +kernel⟩
def s9 : State := T (fun t => {t with app := .ndef, file := .ndef})
theorem witness_9 : ∃ (c : Apdu) (s : State), s.takesApdu c ∧ c.cla = 0x00 ∧ s.tag.app = .ndef ∧ c.data ≠ [] :=
  ⟨{cla := 0, data := [1]}, s9, by unfold State.takesApdu; decide +kernel, by decide +kernel⟩
end TagFiles

namespace TagInspection
def T (f : Tag → Tag) : State := {run with tag := f {run.tag with running := true, vst := 330, field := true, session := true, l3 := .active, iso4 := true, app := .inspector}}
def s0 : State := T (fun t => {t with latch := some (some true), mem := Memory.ofBytes 0xF000 (run.identityRows)})
theorem witness_0 : ∃ (c : Apdu) (b : Bool) (s : State), s.takesApdu c ∧ c.cla = 0x80 ∧ s.tag.app = .inspector ∧ c.p1 = 0 ∧ c.p2 = 0 ∧ c.data = [] ∧ s.tag.uidValid = true ∧ s.tag.rowsAwait = false ∧ s.tag.latch = some (some b) ∧ s.tag.holder = .none ∧ s.tag.mainJobs = [] :=
  ⟨{}, true, s0, by unfold State.takesApdu; decide +kernel, by decide +kernel⟩
def s1 : State := T (fun t => t)
theorem witness_1 : ∃ (c : Apdu) (s : State), s.takesApdu c ∧ c.cla = 0x80 ∧ s.tag.app = .inspector ∧ c.p1 = 0 ∧ c.p2 = 0 ∧ c.data = [] ∧ (s.tag.uidValid = false ∨ s.tag.rowsAwait = true) :=
  ⟨{}, s1, by unfold State.takesApdu; decide +kernel, by decide +kernel⟩
def s2 : State := T (fun t => {t with latch := some (some true)})
theorem witness_2 : ∃ (c : Apdu) (b : Bool) (s : State), s.takesApdu c ∧ c.cla = 0x80 ∧ s.tag.app = .inspector ∧ c.p1 = 1 ∧ c.p2 = 0 ∧ c.data = [] ∧ s.tag.latch = some (some b) ∧ s.tag.holder = .none ∧ s.tag.mainJobs = [] :=
  ⟨{p1 := 1}, true, s2, by unfold State.takesApdu; decide +kernel, by decide +kernel⟩
def s3 : State := T (fun t => {t with latch := some (some true)})
theorem witness_3 : ∃ (c : Apdu) (b : Bool) (s : State), s.takesApdu c ∧ c.cla = 0x80 ∧ s.tag.app = .inspector ∧ c.p2 = 2 ∧ c.p1.toNat ≤ 62 ∧ c.data = [] ∧ s.tag.latch = some (some b) ∧ s.tag.holder = .none ∧ s.tag.mainJobs = [] :=
  ⟨{p1 := 62, p2 := 2}, true, s3, by unfold State.takesApdu; decide +kernel, by decide +kernel⟩
def s4 : State := T (fun t => t)
theorem witness_4 : ∃ (c : Apdu) (s : State), s.takesApdu c ∧ c.cla = 0x80 ∧ s.tag.app = .inspector ∧ c.p1.toNat + c.p2.toNat > 64 :=
  ⟨{p1 := 62, p2 := 3}, s4, by unfold State.takesApdu; decide +kernel, by decide +kernel⟩
def s5 : State := T (fun t => t)
theorem witness_5 : ∃ (c : Apdu) (v : Nat) (s : State), s.takesApdu c ∧ c.cla = 0x80 ∧ s.tag.app = .inspector ∧ c.p1 = 0 ∧ c.p2 = 0 ∧ 104 ≤ c.data.length ∧ c.data.length ≤ 224 ∧ (s.tag.sessionCfg 2).getLsbD 1 = false ∧ s.tag.ackOk c.data = true ∧ s.tag.newest = none ∧ s.tag.slotFree 0 = true ∧ s.tag.holder = .none ∧ s.tag.mainJobs = [] ∧ 280 ≤ v :=
  ⟨{data := [1] ++ List.replicate 103 0}, 280, s5, by unfold State.takesApdu; decide +kernel, by decide +kernel⟩
def s6 : State := T (fun t => t)
theorem witness_6 : ∃ (c : Apdu) (v : Nat) (s : State), s.takesApdu c ∧ c.cla = 0x80 ∧ s.tag.app = .inspector ∧ c.p1 = 0 ∧ c.p2 = 0 ∧ (c.data.length < 104 ∨ 224 < c.data.length) :=
  ⟨{data := List.replicate 103 1}, 280, s6, by unfold State.takesApdu; decide +kernel, by decide +kernel⟩
def s7 : State := {T (fun t => {t with vst := 205}) with power := {run.power with levels := {run.power.levels with io := 0}}}
theorem witness_7 : ∃ (c : Apdu) (v : Nat) (s : State), s.takesApdu c ∧ c.cla = 0x80 ∧ s.tag.app = .inspector ∧ c.p1 = 0 ∧ c.p2 = 0 ∧ 104 ≤ c.data.length ∧ c.data.length ≤ 224 ∧ (s.tag.sessionCfg 2).getLsbD 1 = false ∧ s.tag.ackOk c.data = true ∧ s.tag.newest = none ∧ s.tag.slotFree 0 = true ∧ s.tag.holder = .none ∧ s.tag.mainJobs = [] ∧ s.tagVio = false ∧ v ≤ 205 :=
  ⟨{data := [1] ++ List.replicate 103 0}, 205, s7, by unfold State.takesApdu; decide +kernel, by decide +kernel⟩
end TagInspection

namespace TagGranules
def T (f : Tag → Tag) : State := {run with tag := f {run.tag with running := true, vst := 330, field := true, session := true, l3 := .active, iso4 := true, app := .inspector, holder := .field}}
def s0 : State := T (fun t => {t with job := some (.read [1] 0xF000 250)})
theorem witness_0 : ∃ (pre : Bytes) (off : Nat) (len : Nat) (waited : Nat) (s : State), s.tag.holder = .field ∧ s.tag.job = some (.read pre off len) ∧ s.tag.jobCid = none ∧ s.tag.jobQuiet = false ∧ s.tag.mainJobs = [] ∧ s.tag.fsd = 256 ∧ pre.length + len ≤ 251 ∧ 9 ≤ s.tag.jobN :=
  ⟨[1], 0xF000, 250, 3, s0, by decide +kernel⟩
def s1 : State := T (fun t => {t with job := some (.putAck 15 4 (List.replicate 224 1))})
theorem witness_1 : ∃ (i : Nat) (q : BitVec 48) (a : Bytes) (waited : Nat) (s : State), i < 16 ∧ a.length ≤ 224 ∧ s.tagOk ∧ s.tag.holder = .field ∧ s.tag.job = some (.putAck i q a) :=
  ⟨15, 4, (List.replicate 224 1), 3, s1, by decide +kernel, by decide +kernel, by unfold State.tagOk; decide +kernel, by decide +kernel⟩
def s2 : State := T (fun t => {t with latch := some (some true)})
theorem witness_2 : ∃ (b : Option Bool) (s : State), s.tag.latch = some b :=
  ⟨(some true), s2, by decide +kernel⟩
def s3 : State := T (fun t => t)
theorem witness_3 : ∃ (s : State), s.tag.latch = none :=
  ⟨s3, by decide +kernel⟩
def s4 : State := T (fun t => {t with inboxBusy := some 5, inboxAnswer := some 1, holder := .none})
theorem witness_4 : ∃ (q : BitVec 48) (o : Byte) (s : State), s.supervisor = true ∧ s.tag.inboxBusy = some q ∧ s.tag.inboxAnswer = some o :=
  ⟨5, 1, s4, by decide +kernel⟩
def s5 : State := T (fun t => {t with inboxBusy := some 5, holder := .main, mainJobs := [.marker 5, .update]}) |> (fun s => {s with bay := {s.bay with bridge := 0}})
theorem witness_5 : ∃ (q : BitVec 48) (l : List MainJob) (fails : List RowFail) (waited : Nat) (s : State), s.tagOk ∧ s.tag.holder = .main ∧ s.tag.mainJobs = .marker q :: l ∧ s.bay.bridge = 0 :=
  ⟨5, [.update], [], 3, s5, by unfold State.tagOk; decide +kernel, by decide +kernel⟩
def s6 : State := (fun s => {s with power := {s.power with nvWpN := true}}) (T (fun t => {t with rowsAwait := true, holder := .main, mainJobs := [.identity true]}))
theorem witness_6 : ∃ (l : List MainJob) (fails : List RowFail) (waited : Nat) (s : State), s.tagOk ∧ s.tag.holder = .main ∧ s.tag.mainJobs = .identity true :: l ∧ s.tag.rowsAwait = true ∧ s.power.nvWpN = true :=
  ⟨[], [], 3, s6, by unfold State.tagOk; decide +kernel, by decide +kernel⟩
def s7 : State := (fun s => {s with treor := {s.treor with waiting := [⟨.tagRead, { tag := 7 }, 0x0A01, 2⟩]}}) (T (fun t => {t with holder := .main, mainJobs := [.read 0xF000 200 []]}))
theorem witness_7 : ∃ (r : Req) (m : Byte) (off : Nat) (len : Nat) (l : List MainJob) (fails : List RowFail) (waited : Nat) (s : State), s.live = true ∧ s.tag.holder = .main ∧ s.tag.mainJobs = .read off len [] :: l ∧ len ≤ 256 - off % 16 ∧ s.treor.waiting = [⟨.tagRead, r, 0x0A01, m⟩] :=
  ⟨{ tag := 7 }, 2, 0xF000, 200, [], [], 3, s7, by decide +kernel⟩
def s8 : State := T (fun t => {t with holder := .main, mainJobs := [.update], update := some {bank := true, gen := 5, step := 44, image := List.replicate 11248 7}})
theorem witness_8 : ∃ (u : TagUpdate) (l : List MainJob) (fails : List RowFail) (waited : Nat) (s : State), s.tagOk ∧ s.tag.holder = .main ∧ s.tag.mainJobs = .update :: l ∧ s.tag.update = some u ∧ 1 ≤ u.step ∧ u.step ≤ 44 :=
  ⟨{bank := true, gen := 5, step := 44, image := List.replicate 11248 7}, [], [], 3, s8, by unfold State.tagOk; decide +kernel, by decide +kernel⟩
def s9 : State := T (fun t => {t with holder := .main, mainJobs := [.update], update := some {bank := true, gen := 5, step := 0, image := [1,2,3]}})
theorem witness_9 : ∃ (u : TagUpdate) (l : List MainJob) (fails : List RowFail) (waited : Nat) (s : State), s.tagOk ∧ s.tag.holder = .main ∧ s.tag.mainJobs = .update :: l ∧ s.tag.update = some u ∧ u.step = 0 :=
  ⟨{bank := true, gen := 5, step := 0, image := [1,2,3]}, [], [], 3, s9, by unfold State.tagOk; decide +kernel, by decide +kernel⟩
end TagGranules

namespace TagWindowUpdates
def T (f : Tag → Tag) : State := {run with tag := f {run.tag with running := true, vst := 330}}
def r : Req := { tag := 7 }
def R (op : BitVec 16) (q : Req) : State := req op q (T id)
def r6 : Req := { r with body := leN 2 63488 ++ leN 2 2048 }
def r7 : Req := { r with body := leN 2 63489 ++ leN 2 2048 }
def r8 : Req := { r with body := [1,2,3, 0] ++ leN 2 3 ++ [0, 0] ++ [7,8,9] }
def r9 : Req := { r with body := [1,3,3, 0] ++ leN 2 3 ++ [0, 0] ++ [7,8,9] }
def bank : List Host.Cell := Memory.ofBytes 0 (List.replicate 4 1)
def s0 : State := T (fun t => {t with due := true})
theorem witness_0 : ∃ (gen : Word) (s : State), s.supervisor = true ∧ 2 ≤ s.hrb.rclTagw ∧ s.tag.update = none ∧ s.tag.due = true ∧ s.tag.latch = none ∧ gen = (if s.tag.committed = none then 1 else s.tag.gen + 1) :=
  ⟨1, s0, by decide +kernel⟩
def s1 : State := T (fun t => {t with holder := .main, mainJobs := [.update], update := some {bank := true, gen := 5, image := [1,2,3], step := 89}})
theorem witness_1 : ∃ (u : TagUpdate) (l : List MainJob) (waited : Nat) (s : State), s.tagOk ∧ s.tag.update = some u ∧ u.gen.getLsbD 0 = u.bank ∧ s.tag.holder = .main ∧ s.tag.mainJobs = .update :: l ∧ 89 ≤ u.step :=
  ⟨{bank := true, gen := 5, image := [1,2,3], step := 89}, [], 3, s1, by unfold State.tagOk; decide +kernel, by decide +kernel⟩
def s2 : State := T (fun t => {t with holder := .main, mainJobs := [.update], update := some {bank := true, gen := 5, image := [1,2,3], step := 89, again := true}})
theorem witness_2 : ∃ (u : TagUpdate) (l : List MainJob) (bad : List Nat) (waited : Nat) (s : State), s.tagOk ∧ s.tag.update = some u ∧ s.tag.mainJobs = .update :: l ∧ 89 ≤ u.step ∧ bad ≠ [] ∧ u.again = true :=
  ⟨{bank := true, gen := 5, image := [1,2,3], step := 89, again := true}, [], [702], 3, s2, by unfold State.tagOk; decide +kernel, by decide +kernel⟩
def s3 : State := T (fun t => {t with hostDue := some {cfg := [0,0,0], site := []}, latch := some (some true)})
theorem witness_3 : ∃ (h : HostUpdate) (gen : Word) (s : State), s.tag.hostDue = some h ∧ h.deferred = false ∧ gen = (if s.tag.committed = none then 1 else s.tag.gen + 1) ∧ s.tag.latch = some (some (gen.getLsbD 0)) :=
  ⟨{cfg := [0,0,0], site := []}, 1, s3, by decide +kernel⟩
def s4 : State := {run with hrb := {run.hrb with rclTagw := 1}}
theorem witness_4 : ∃ (rows : Bool) (ms : Nat) (s : State), s.supervisor = true ∧ s.hrb.rclTagw = 1 :=
  ⟨true, 9, s4, by decide +kernel⟩
def s5 : State := {run with hrb := {run.hrb with rclTagw := 1}}
theorem witness_5 : ∃ (rows : Bool) (ms : Nat) (s : State), s.supervisor = true ∧ s.hrb.rclTagw = 1 :=
  ⟨true, 9, s5, by decide +kernel⟩
def s6 : State := R 0x0A01 r6
theorem witness_6 : ∃ (r : Req) (off : BitVec 16) (len : BitVec 16) (s : State), s.takes 0x0A01 r true ∧ r.body = leN 2 off.toNat ++ leN 2 len.toNat ∧ len ≠ 0 ∧ len.toNat ≤ 2048 ∧ off.toNat + len.toNat ≤ 65536 :=
  ⟨r6, 63488, 2048, s6, by unfold State.takes; decide +kernel, by decide +kernel⟩
def s7 : State := R 0x0A01 r7
theorem witness_7 : ∃ (r : Req) (off : BitVec 16) (len : BitVec 16) (s : State), s.takes 0x0A01 r true ∧ r.body = leN 2 off.toNat ++ leN 2 len.toNat ∧ (2048 < len.toNat ∨ (len ≠ 0 ∧ 65536 < off.toNat + len.toNat)) :=
  ⟨r7, 63489, 2048, s7, by unfold State.takes; decide +kernel, by decide +kernel⟩
def s8 : State := req 0x0A02 r8 {adm with tag := (T id).tag}
theorem witness_8 : ∃ (r : Req) (a : Byte) (b : Byte) (c : Byte) (site : Bytes) (s : State), s.takes 0x0A02 r true ∧ r.body = [a, b, c, 0] ++ leN 2 site.length ++ [0, 0] ++ site ∧ site.length ≤ 2048 ∧ a.toNat ≤ 1 ∧ b.toNat ≤ 2 ∧ c.toNat ≤ 3 ∧ s.tag.hostDue = none :=
  ⟨r8, 1, 2, 3, [7,8,9], s8, by unfold State.takes; decide +kernel, by decide +kernel⟩
def s9 : State := req 0x0A02 r9 {adm with tag := (T id).tag}
theorem witness_9 : ∃ (r : Req) (a : Byte) (b : Byte) (c : Byte) (site : Bytes) (s : State), s.takes 0x0A02 r true ∧ r.body = [a, b, c, 0] ++ leN 2 site.length ++ [0, 0] ++ site ∧ site.length ≤ 2048 ∧ (1 < a.toNat ∨ 2 < b.toNat ∨ 3 < c.toNat) :=
  ⟨r9, 1, 3, 3, [7,8,9], s9, by unfold State.takes; decide +kernel, by decide +kernel⟩
def s10 : State := req 0x0A03 r (T (fun t => {t with mem := Memory.ofBytes 0 (leN 4 2 ++ zeros 4 ++ leN 4 (crc32c (leN 4 2 ++ zeros 4)).toNat ++ commitBytes)}))
theorem witness_10 : ∃ (r : Req) (b : Bool) (s : State), s.takes 0x0A03 r true ∧ r.body = [] ∧ s.tag.committed = some b ∧ s.tag.latch = none :=
  ⟨r, false, s10, by unfold State.takes; decide +kernel, by decide +kernel⟩
def s11 : State := T (fun t => {t with holder := .main, mainJobs := [.update], update := some {bank := true, gen := 5, image := [1,2,3], step := 89}})
theorem witness_11 : ∃ (u : TagUpdate) (l : List MainJob) (bad : List Nat) (waited : Nat) (s : State), s.tag.update = some u ∧ s.tag.mainJobs = .update :: l ∧ 89 ≤ u.step ∧ bad ≠ [] ∧ u.again = false :=
  ⟨{bank := true, gen := 5, image := [1,2,3], step := 89}, [], [702], 3, s11, by decide +kernel⟩
def s12 : State := T (fun t => {t with latch := some (some true)})
theorem witness_12 : ∃ (gen : Word) (s : State), gen = (if s.tag.committed = none then 1 else s.tag.gen + 1) ∧ s.tag.latch = some (some (gen.getLsbD 0)) :=
  ⟨1, s12, by decide +kernel⟩
def s13 : State := T (fun t => {t with latch := some (some false)})
theorem witness_13 : ∃ (gen : Word) (s : State), gen = (if s.tag.committed = none then 1 else s.tag.gen + 1) ∧ s.tag.latch ≠ some (some (gen.getLsbD 0)) :=
  ⟨1, s13, by decide +kernel⟩
end TagWindowUpdates

namespace LinkTrains
def U (f : LinkPort → LinkPort) : State := {run with link := {run.link with u := f {run.link.u with state := 2, used := 15, laneMask := 15, width := 4}}}
def L (f : LinkPort → LinkPort) : State := {run with link := {run.link with u := f {run.link.u with state := 2, used := 15, laneMask := 15, width := 4}, d := f {run.link.d with state := 2, used := 3, laneMask := 3, width := 2}}}
def s0 : State := U (fun l => {l with state := 1, step := 0, laneMask := 0})
theorem witness_0 : ∃ (ts : TrainSet) (rd : Bool) (count : Nat) (s : State), s.released = true ∧ s.link.u.state = 1 ∧ s.link.u.step = 0 ∧ s.link.u.failed = 0 ∧ ts.step = 0 ∧ ts.lane = 0 ∧ ts.ordered = false ∧ 8 ≤ count :=
  ⟨{}, false, 8, s0, by decide +kernel⟩
def s1 : State := L (fun l => {l with state := 1, step := 3, used := 1, width := 1})
theorem witness_1 : ∃ (side : LinkSide) (lane : Fin 4) (ts : TrainSet) (rd : Bool) (count : Nat) (s : State), s.released = true ∧ (s.linkPort side).state = 1 ∧ (s.linkPort side).step = 3 ∧ ts.step = 3 ∧ ts.ordered = false ∧ ts.lane.toNat = (s.linkPort side).laneNo lane 3 ∧ 8 ≤ count ∧ ((s.linkPort side).hearSets lane ts.bytes count).allAccept 3 = true :=
  ⟨.d, 0, {step := 3, laneMask := 3}, true, 8, s1, by decide +kernel⟩
def s2 : State := L (fun l => {l with state := 1, step := 1})
theorem witness_2 : ∃ (side : LinkSide) (s : State), s.released = true ∧ (s.linkPort side).state = 1 :=
  ⟨.u, s2, by decide +kernel⟩
def s3 : State := L (fun l => {l with state := 1, step := 2, lsel := 2})
theorem witness_3 : ∃ (side : LinkSide) (s : State), s.released = true ∧ (s.linkPort side).state = 1 ∧ (s.linkPort side).step = 2 :=
  ⟨.d, s3, by decide +kernel⟩
def s4 : State := L id
theorem witness_4 : ∃ (side : LinkSide) (n : Fin 4) (s : State), s.released = true ∧ (s.linkPort side).state = 2 ∧ (s.linkPort side).used.getLsbD n = true :=
  ⟨.d, 1, s4, by decide +kernel⟩
def s5 : State := L id
theorem witness_5 : ∃ (side : LinkSide) (n : Fin 4) (s : State), s.released = true ∧ (s.linkPort side).state = 2 ∧ (s.linkPort side).used.getLsbD n = true :=
  ⟨.u, 3, s5, by decide +kernel⟩
def s6 : State := L (fun l => {l with orderPend := true})
theorem witness_6 : ∃ (side : LinkSide) (late : Bool) (s : State), s.released = true ∧ (s.linkPort side).state = 2 ∧ (s.linkPort side).orderPend = true ∧ (late = true ∨ (s.linkPort side).orderAcked = true) :=
  ⟨.d, true, s6, by decide +kernel⟩
def s7 : State := L id
theorem witness_7 : ∃ (side : LinkSide) (late : Bool) (s : State), ((s.linkPort side).orderPend = false ∨ (late = false ∧ (s.linkPort side).orderAcked = false)) :=
  ⟨.d, false, s7, by decide +kernel⟩
def s8 : State := L id
theorem witness_8 : ∃ (side : LinkSide) (n : Fin 4) (s : State), s.released = true ∧ (s.linkPort side).used.getLsbD n = false :=
  ⟨.d, 3, s8, by decide +kernel⟩
end LinkTrains

namespace LinkBlocksArrive
def L (f : LinkPort → LinkPort) : State := {run with link := {run.link with addr := 3, u := f {run.link.u with state := 2, used := 15, laneMask := 15, width := 4, expect := 9}, d := f {run.link.d with state := 2, used := 3, laneMask := 3, width := 2, expect := 9}}}
def bl (seq : BitVec 12) (ad : BitVec 6) (k : BitVec 3) (n : Nat) : LinkBlock := { hdr := blockHdr seq ad false 2 k true true n, payload := List.replicate 256 5 }
def rx (w : Nat) (e : List Code) (m : Bytes) : List LaneSyms := (stripe w [sobCode] e m).map fun c => ⟨false, encodeSyms false c⟩
def s0 : State := L id
theorem witness_0 : ∃ (side : LinkSide) (m : Bytes) (rx : List LaneSyms) (s : State), allCodes rx = some (stripe (s.linkPort side).width.toNat [sobCode] [ebdCode] m) :=
  ⟨.d, [1,2,3], (rx 2 [ebdCode] [1,2,3]), s0, by decide +kernel⟩
def s1 : State := L id
theorem witness_1 : ∃ (side : LinkSide) (m : Bytes) (rx : List LaneSyms) (w : Nat) (s : State), s.released = true ∧ (s.linkPort side).state = 2 ∧ w = (s.linkPort side).width.toNat ∧ (w = 1 ∨ w = 2 ∨ w = 4) ∧ m.length = 268 ∧ (allCodes rx = none ∨ (allCodes rx = some (stripe w [sobCode] [eobCode] m) ∧ (fld m 264 4 ≠ (crc32c (m.take 264)).toNat ∨ fld m 3 2 / 32 % 512 = 0 ∨ 256 < fld m 3 2 / 32 % 512 ∨ fld m 0 4 % 2 ^ 29 ≠ 0))) :=
  ⟨.d, (List.replicate 268 0), (rx 2 [eobCode] (List.replicate 268 0)), 2, s1, by decide +kernel⟩
def s2 : State := L id
theorem witness_2 : ∃ (side : LinkSide) (b : LinkBlock) (rx : List LaneSyms) (w : Nat) (s : State), s.released = true ∧ (s.linkPort side).state = 2 ∧ w = (s.linkPort side).width.toNat ∧ (w = 1 ∨ w = 2 ∨ w = 4) ∧ b.payload.length = 256 ∧ allCodes rx = some (stripe w [sobCode] [eobCode] b.bytes) ∧ 0 < (b.hdr.extractLsb' 29 9).toNat ∧ (b.hdr.extractLsb' 29 9).toNat ≤ 256 ∧ b.hdr.extractLsb' 0 29 = 0 ∧ b.hdr.extractLsb' 52 12 ≠ (s.linkPort side).expect ∧ ((s.linkPort side).expect - b.hdr.extractLsb' 52 12).toNat ≤ 32 :=
  ⟨.d, (bl 8 3 1 256), (rx 2 [eobCode] (bl 8 3 1 256).bytes), 2, s2, by decide +kernel⟩
def s3 : State := L id
theorem witness_3 : ∃ (b : LinkBlock) (rx : List LaneSyms) (w : Nat) (s : State), s.released = true ∧ s.link.u.state = 2 ∧ w = s.link.u.width.toNat ∧ (w = 1 ∨ w = 2 ∨ w = 4) ∧ b.payload.length = 256 ∧ allCodes rx = some (stripe w [sobCode] [eobCode] b.bytes) ∧ 0 < (b.hdr.extractLsb' 29 9).toNat ∧ (b.hdr.extractLsb' 29 9).toNat ≤ 256 ∧ b.hdr.extractLsb' 0 29 = 0 ∧ b.hdr.extractLsb' 52 12 = s.link.u.expect ∧ b.hdr.extractLsb' 40 3 = 1 ∧ b.hdr.getLsbD 45 = false ∧ b.hdr.extractLsb' 46 6 = s.link.addr ∧ s.link.u.taken[b.cls.toNat] < 8 :=
  ⟨(bl 9 3 1 256), (rx 4 [eobCode] (bl 9 3 1 256).bytes), 4, s3, by decide +kernel⟩
def s4 : State := L id
theorem witness_4 : ∃ (b : LinkBlock) (rx : List LaneSyms) (w : Nat) (s : State), s.released = true ∧ s.link.d.state = 2 ∧ w = s.link.d.width.toNat ∧ (w = 1 ∨ w = 2 ∨ w = 4) ∧ b.payload.length = 256 ∧ allCodes rx = some (stripe w [sobCode] [eobCode] b.bytes) ∧ 0 < (b.hdr.extractLsb' 29 9).toNat ∧ (b.hdr.extractLsb' 29 9).toNat ≤ 256 ∧ b.hdr.extractLsb' 0 29 = 0 ∧ b.hdr.extractLsb' 52 12 = s.link.d.expect ∧ (b.hdr.extractLsb' 40 3).toNat ≤ 3 ∧ b.hdr.getLsbD 45 = false ∧ s.link.addr < b.hdr.extractLsb' 46 6 ∧ s.link.d.taken[b.cls.toNat] < 8 :=
  ⟨(bl 9 5 3 256), (rx 2 [eobCode] (bl 9 5 3 256).bytes), 2, s4, by decide +kernel⟩
def s5 : State := L (fun l => {l with taken := Vector.replicate 4 24})
theorem witness_5 : ∃ (side : LinkSide) (b : LinkBlock) (rx : List LaneSyms) (w : Nat) (s : State), s.released = true ∧ (s.linkPort side).state = 2 ∧ w = (s.linkPort side).width.toNat ∧ (w = 1 ∨ w = 2 ∨ w = 4) ∧ b.payload.length = 256 ∧ allCodes rx = some (stripe w [sobCode] [eobCode] b.bytes) ∧ b.hdr.extractLsb' 0 29 = 0 ∧ 0 < (b.hdr.extractLsb' 29 9).toNat ∧ (b.hdr.extractLsb' 29 9).toNat ≤ 256 ∧ b.hdr.extractLsb' 52 12 = (s.linkPort side).expect ∧ 24 ≤ (s.linkPort side).taken[b.cls.toNat] :=
  ⟨.u, (bl 9 3 1 256), (rx 4 [eobCode] (bl 9 3 1 256).bytes), 4, s5, by decide +kernel⟩
end LinkBlocksArrive

namespace LinkAcknowledges
def L (f : LinkPort → LinkPort) : State := {run with link := {run.link with addr := 3, u := f {run.link.u with state := 2, used := 15, laneMask := 15, width := 4, expect := 9}, d := f {run.link.d with state := 2, used := 3, laneMask := 3, width := 2, expect := 9}}}
def bl (seq : BitVec 12) (ad : BitVec 6) (k : BitVec 3) (n : Nat) : LinkBlock := { hdr := blockHdr seq ad false 2 k true true n, payload := List.replicate 256 5 }
def sb (n : Nat) (seq : BitVec 12) : SentBlock := { blk := bl seq 3 1 200, sends := n }
def rl (w : Nat) (m : Bytes) : List LaneSyms := (stripe w [lcwCode] [] m).map fun c => ⟨true, encodeSyms true c⟩
def lc (k : Bool) : Lcw := { nak := k, aseq := 5, free := #v[1,2,3,4] }
def ms : OutMsg := {src := .response, cls := 0, bytes := List.replicate 500 1, sent := 256, begun := true}
def s0 : State := L (fun l => {l with unacked := [sb 1 5, sb 1 6]})
theorem witness_0 : ∃ (side : LinkSide) (b : SentBlock) (r : List SentBlock) (c : Lcw) (rx : List LaneSyms) (w : Nat) (s : State), s.released = true ∧ (s.linkPort side).state = 2 ∧ w = (s.linkPort side).width.toNat ∧ (w = 1 ∨ w = 2 ∨ w = 4) ∧ allCodes rx = some (stripe w [lcwCode] [] c.bytes) ∧ c.nak = false ∧ c.aseq = b.blk.hdr.extractLsb' 52 12 ∧ (s.linkPort side).unacked = b :: r ∧ b.slot = false ∧ (s.linkPort side).goBack = none :=
  ⟨.d, (sb 1 5), [sb 1 6], (lc false), (rl 2 (lc false).bytes), 2, s0, by decide +kernel⟩
def s1 : State := L id
theorem witness_1 : ∃ (side : LinkSide) (c : Lcw) (rx : List LaneSyms) (w : Nat) (s : State), s.released = true ∧ (s.linkPort side).state = 2 ∧ w = (s.linkPort side).width.toNat ∧ (w = 1 ∨ w = 2 ∨ w = 4) ∧ allCodes rx = some (stripe w [lcwCode] [] c.bytes) ∧ c.nak = false ∧ (s.linkPort side).unacked = [] :=
  ⟨.u, (lc false), (rl 4 (lc false).bytes), 4, s1, by decide +kernel⟩
def s2 : State := L (fun l => {l with unacked := [sb 7 5, sb 1 6]})
theorem witness_2 : ∃ (side : LinkSide) (b : SentBlock) (r : List SentBlock) (c : Lcw) (rx : List LaneSyms) (w : Nat) (s : State), s.released = true ∧ (s.linkPort side).state = 2 ∧ w = (s.linkPort side).width.toNat ∧ (w = 1 ∨ w = 2 ∨ w = 4) ∧ allCodes rx = some (stripe w [lcwCode] [] c.bytes) ∧ c.nak = true ∧ c.aseq = b.blk.hdr.extractLsb' 52 12 ∧ (s.linkPort side).unacked = b :: r ∧ b.sends < 8 ∧ (s.linkPort side).goBack = none :=
  ⟨.d, (sb 7 5), [sb 1 6], (lc true), (rl 2 (lc true).bytes), 2, s2, by decide +kernel⟩
def s3 : State := L (fun l => {l with unacked := [sb 7 5, sb 1 6]})
theorem witness_3 : ∃ (side : LinkSide) (b : SentBlock) (r : List SentBlock) (s : State), s.released = true ∧ (s.linkPort side).state = 2 ∧ (s.linkPort side).unacked = b :: r ∧ b.sends < 8 :=
  ⟨.d, (sb 7 5), [sb 1 6], s3, by decide +kernel⟩
def s4 : State := L (fun l => {l with unacked := [sb 8 5, sb 1 6]})
theorem witness_4 : ∃ (side : LinkSide) (b : SentBlock) (r : List SentBlock) (s : State), s.released = true ∧ (s.linkPort side).state = 2 ∧ (s.linkPort side).unacked = b :: r ∧ 8 ≤ b.sends :=
  ⟨.d, (sb 8 5), [sb 1 6], s4, by decide +kernel⟩
def s5 : State := L id
theorem witness_5 : ∃ (side : LinkSide) (s : State), s.released = true ∧ (s.linkPort side).state = 2 :=
  ⟨.u, s5, by decide +kernel⟩
def s6 : State := L (fun l => {l with ackDue := true})
theorem witness_6 : ∃ (side : LinkSide) (c : Lcw) (n : Nat) (s : State), s.released = true ∧ (s.linkPort side).state = 2 ∧ (s.linkPort side).wire = none ∧ (s.linkPort side).nakDue = false ∧ (s.linkPort side).ackDue = true ∧ c = ⟨false, (s.linkPort side).expect - 1, (s.linkPort side).freed⟩ :=
  ⟨.d, ⟨false, 8, #v[0,0,0,0]⟩, 9, s6, by decide +kernel⟩
def s7 : State := L (fun l => {l with ackDue := true, wire := some {blk := bl 5 3 1 200}, own := (Vector.replicate 4 []).set 2 [{src := .response, cls := 2, bytes := List.replicate 500 1, sent := 256, begun := true}]})
theorem witness_7 : ∃ (w : WireBlock) (m : OutMsg) (r : List OutMsg) (n : Nat) (s : State), s.released = true ∧ s.link.u.state = 2 ∧ s.link.u.wire = some w ∧ w.first = true ∧ w.forwarded = false ∧ s.link.u.nakDue = false ∧ s.link.u.ackDue = true ∧ s.link.u.own[w.blk.cls.toNat] = m :: r ∧ m.bytes.length ≤ m.sent + 256 :=
  ⟨{blk := bl 5 3 1 200}, {src := .response, cls := 2, bytes := List.replicate 500 1, sent := 256, begun := true}, [], 9, s7, by decide +kernel⟩
def s8 : State := {run with link := {run.link with delivered := [.enumer {hdr := blockHdr 0 0 true 3 5 true true 16, payload := List.replicate 256 1}]}}
theorem witness_8 : ∃ (b : LinkBlock) (r : List Delivered) (s : State), s.released = true ∧ s.link.delivered = .enumer b :: r :=
  ⟨{hdr := blockHdr 0 0 true 3 5 true true 16, payload := List.replicate 256 1}, [], s8, by decide +kernel⟩
def s9 : State := L (fun l => {l with nakDue := true, ackDue := true})
theorem witness_9 : ∃ (side : LinkSide) (c : Lcw) (n : Nat) (s : State), s.released = true ∧ (s.linkPort side).state = 2 ∧ (s.linkPort side).wire = none ∧ (s.linkPort side).nakDue = true ∧ c = ⟨true, (s.linkPort side).expect, (s.linkPort side).freed⟩ :=
  ⟨.d, ⟨true, 9, #v[0,0,0,0]⟩, 9, s9, by decide +kernel⟩
def s10 : State := L (fun l => {l with free := #v[1,0,0,0], own := (Vector.replicate 4 []).set 0 [ms]})
theorem witness_10 : ∃ (m : OutMsg) (r : List OutMsg) (b : LinkBlock) (n : Nat) (s : State), s.released = true ∧ s.link.u.state = 2 ∧ s.link.u.wire = none ∧ s.link.u.nakDue = false ∧ s.link.u.ackDue = false ∧ s.link.u.goBack = none ∧ s.link.u.own[0] = m :: r ∧ m.begun = true ∧ s.link.u.fwd[0] = [] ∧ s.link.u.nullified = none ∧ s.link.u.free[0] ≠ s.link.u.sent[0] ∧ s.link.u.unacked.length < 32 ∧ b = { hdr := blockHdr s.link.u.seq s.link.addr false m.cls m.kind (m.sent == 0) (m.bytes.length ≤ m.sent + 256) (slice m.bytes m.sent 256).length, payload := padTo 256 (slice m.bytes m.sent 256) } :=
  ⟨ms, [], { hdr := blockHdr 0 3 false 0 0 false true 244, payload := padTo 256 (List.replicate 244 1) }, 9, s10, by decide +kernel⟩
end LinkAcknowledges

namespace RegistersAreReadAndWritten
def PP : State := (slotRun 7 run).updPort 9 fun p => {p with owner := some 7, evWake := ⟨true,3⟩, evFault := ⟨true,2⟩}
def rb (x : Bytes) : LinkBlock := { hdr := blockHdr 5 0 false 3 4 true true 16, payload := [1, 2, 3, 4, 1, 0, 0, 0] ++ x }
def s0 : State := {run with hrb := {run.hrb with evtA := Vector.replicate 6 ⟨true, 3⟩}}
theorem witness_0 : ∃ (v : Word) (s : State), s.released = true :=
  ⟨0x0A, s0, by decide +kernel⟩
def s1 : State := {run with hrb := {run.hrb with evtC := Vector.replicate 6 ⟨true, 3⟩}}
theorem witness_1 : ∃ (v : Word) (w : Word) (i : Fin 6) (s : State), s.released = true ∧ w.getLsbD i = true :=
  ⟨0x0A, 2, 1, s1, by decide +kernel⟩
def s2 : State := PP
theorem witness_2 : ∃ (p : Fin 512) (v : Word) (s : State), s.ownerCalls p = true :=
  ⟨9, 0x25, s2, by decide +kernel⟩
def s3 : State := run
theorem witness_3 : ∃ (s : State), s.released = true :=
  ⟨s3, by decide +kernel⟩
def s4 : State := run
theorem witness_4 : ∃ (s : State), s.released = true :=
  ⟨s4, by decide +kernel⟩
def s5 : State := run
theorem witness_5 : ∃ (s : State), s.released = true :=
  ⟨s5, by decide +kernel⟩
def s6 : State := run
theorem witness_6 : ∃ (b : Fin 3) (v : Word) (s : State), s.released = true :=
  ⟨2, 0xFFFFFFFF, s6, by decide +kernel⟩
def s7 : State := run
theorem witness_7 : ∃ (s : State), s.released = true :=
  ⟨s7, by decide +kernel⟩
def s8 : State := slotRun 7 run
theorem witness_8 : ∃ (c : Fin 8) (i : Fin 128) (s : State), s.tenants.cores[c].slot = some i ∧ s.calls i = true :=
  ⟨0, 7, s8, by decide +kernel⟩
def s9 : State := run
theorem witness_9 : ∃ (v : Word) (s : State), s.released = true :=
  ⟨0x12345678, s9, by decide +kernel⟩
def s10 : State := run
theorem witness_10 : ∃ (v : Word) (s : State), s.released = true :=
  ⟨0x12345678, s10, by decide +kernel⟩
def s11 : State := PP
theorem witness_11 : ∃ (p : Fin 512) (v : Word) (s : State), s.ownerCalls p = true ∧ s.sprig.ports[p].page.busy = false :=
  ⟨9, 0x00030000, s11, by decide +kernel⟩
def s12 : State := PP.updPort 9 (fun p => {p with page := {p.page with busy := true}})
theorem witness_12 : ∃ (p : Fin 512) (v : Word) (s : State), s.ownerCalls p = true ∧ s.sprig.ports[p].page.busy = true :=
  ⟨9, 0x00030000, s12, by decide +kernel⟩
def s13 : State := run
theorem witness_13 : ∃ (v : Word) (s : State), s.live = true ∧ s.guard.powered = true :=
  ⟨0x10003, s13, by decide +kernel⟩
def s14 : State := run
theorem witness_14 : ∃ (c : Fin 8) (n : Fin 16) (v : Word) (s : State), s.live = true ∧ s.tenants.cores[c].mpu.en = false :=
  ⟨3, 15, 0x12345, s14, by decide +kernel⟩
def s15 : State := {run with tenants := {run.tenants with cores := run.tenants.cores.map fun c => {c with mpu := {c.mpu with en := true}}}}
theorem witness_15 : ∃ (c : Fin 8) (n : Fin 16) (lim : Bool) (v : Word) (s : State), s.live = true ∧ s.tenants.cores[c].mpu.en = true :=
  ⟨3, 15, true, 0x12345, s15, by decide +kernel⟩
def s16 : State := {run with link := {run.link with delivered := [.reg (rb ([0x1C,0,1,0] ++ leN 4 0x77))]}}
theorem witness_16 : ∃ (b : LinkBlock) (r : List Delivered) (v : Word) (s : State), s.released = true ∧ s.link.delivered = .reg b :: r ∧ b.data = [1, 2, 3, 4, 1, 0, 0, 0] ++ ([0x1C, 0, 1, 0] ++ leN 4 v.toNat) :=
  ⟨(rb ([0x1C,0,1,0] ++ leN 4 0x77)), [], 0x77, s16, by decide +kernel⟩
def s17 : State := {run with link := {run.link with delivered := [.reg (rb [2,0,0,0,0,0,0,0])]}}
theorem witness_17 : ∃ (b : LinkBlock) (r : List Delivered) (s : State), s.released = true ∧ s.link.delivered = .reg b :: r ∧ b.data = [1, 2, 3, 4, 1, 0, 0, 0, 0x02, 0, 0, 0, 0, 0, 0, 0] :=
  ⟨(rb [2,0,0,0,0,0,0,0]), [], s17, by decide +kernel⟩
end RegistersAreReadAndWritten

namespace HelloNegotiates
def h (b : Bytes) : Req := { q0 with body := b }
def s0 : State := req 1 (h ([1, 0, 2, 0] ++ zeros 12)) run
theorem witness_0 : ∃ (r : Req) (a : Byte) (b : Byte) (c : Byte) (s : State), s.supervisor = true ∧ s.turn 0x0001 r = true ∧ s.admitHead 0x0001 r = none ∧ s.outAll < 256 ∧ s.treor.waiting = [] ∧ a.toNat ≤ 1 ∧ r.body = [a, b, 2, c] ++ zeros 12 :=
  ⟨(h ([1, 0, 2, 0] ++ zeros 12)), 1, 0, 0, s0, by decide +kernel⟩
def s1 : State := req 1 (h ([1, 1, 1, 1] ++ leN 4 0x1FFF ++ zeros 8)) run
theorem witness_1 : ∃ (r : Req) (a : Byte) (b : Byte) (caps : Word) (s : State), s.supervisor = true ∧ s.turn 0x0001 r = true ∧ s.admitHead 0x0001 r = none ∧ s.outAll < 256 ∧ s.treor.waiting = [] ∧ (a.toNat = 0 ∨ a = 1 ∧ b.toNat ≤ 1) ∧ r.body = [a, b, 1, 1] ++ leN 4 caps.toNat ++ zeros 8 :=
  ⟨(h ([1, 1, 1, 1] ++ leN 4 0x1FFF ++ zeros 8)), 1, 1, 0x1FFF, s1, by decide +kernel⟩
def s2 : State := req 1 (h ([1, 1, 1, 0] ++ leN 4 0x1FFF ++ zeros 8)) run
theorem witness_2 : ∃ (r : Req) (caps : Bytes) (lo : Nat) (hi : Nat) (s : State), s.supervisor = true ∧ s.turn 0x0001 r = true ∧ s.admitHead 0x0001 r = none ∧ s.outAll < 256 ∧ s.treor.waiting = [] ∧ caps.length = 4 ∧ hi < lo ∧ lo < 65536 ∧ r.body = [BitVec.ofNat 8 (lo / 256), BitVec.ofNat 8 lo, BitVec.ofNat 8 (hi / 256), BitVec.ofNat 8 hi] ++ caps ++ zeros 8 :=
  ⟨(h ([1, 1, 1, 0] ++ leN 4 0x1FFF ++ zeros 8)), (leN 4 0x1FFF), 0x101, 0x100, s2, by decide +kernel⟩
def s3 : State := req 1 (h ([1, 2, 1, 0xFF] ++ leN 4 0x1FFF ++ zeros 8)) run
theorem witness_3 : ∃ (r : Req) (caps : Bytes) (lo : Nat) (hi : Nat) (s : State), s.supervisor = true ∧ s.turn 0x0001 r = true ∧ s.admitHead 0x0001 r = none ∧ s.outAll < 256 ∧ s.treor.waiting = [] ∧ caps.length = 4 ∧ lo ≤ hi ∧ (hi < 0x100 ∨ (0x101 < lo ∧ hi < 0x200) ∨ 0x200 < lo) ∧ hi < 65536 ∧ r.body = [BitVec.ofNat 8 (lo / 256), BitVec.ofNat 8 lo, BitVec.ofNat 8 (hi / 256), BitVec.ofNat 8 hi] ++ caps ++ zeros 8 :=
  ⟨(h ([1, 2, 1, 0xFF] ++ leN 4 0x1FFF ++ zeros 8)), (leN 4 0x1FFF), 0x102, 0x1FF, s3, by decide +kernel⟩
def s4 : State := req 1 {(h []) with cls := 0, wire := 0} run
theorem witness_4 : ∃ (r : Req) (s : State), s.supervisor = true ∧ s.turn 0x0001 r = true ∧ r.rsp = false ∧ r.evt = false ∧ r.rsvd = 0 ∧ r.status = 0 ∧ r.cls = r.wire ∧ r.kind = 0 ∧ r.index = 0 ∧ r.epoch = 0 ∧ r.cls = 0 :=
  ⟨{(h []) with cls := 0, wire := 0}, s4, by decide +kernel⟩
def s5 : State := req 2 (h [1,2,3]) run
theorem witness_5 : ∃ (r : Req) (s : State), s.takes 0x0002 r true ∧ r.body.length ≤ 4080 :=
  ⟨(h [1,2,3]), s5, by unfold State.takes; decide +kernel, by decide +kernel⟩
def s6 : State := req 3 (h []) run
theorem witness_6 : ∃ (r : Req) (s : State), s.takes 0x0003 r true ∧ r.body = [] ∧ s.bqt.member = none :=
  ⟨(h []), s6, by unfold State.takes; decide +kernel, by decide +kernel⟩
def s7 : State := {req 1 (h []) run with treor := {run.treor with waiting := [⟨.nonceDraw, q0, 0x101, 2⟩]}}
theorem witness_7 : ∃ (r : Req) (s : State), s.supervisor = true ∧ s.turn 0x0001 r = true ∧ s.admitHead 0x0001 r = none ∧ s.treor.waiting ≠ [] :=
  ⟨(h []), s7, by decide +kernel⟩
end HelloNegotiates

namespace AdminSession
def h (b : Bytes) : Req := { q0 with body := b }
def T (f : Treor → Treor) : State := {run with treor := f run.treor}
def M (f : Mint → Mint) : State := {run with mint := f run.mint}
def sg : Bytes := beN 64 0x100effdbc0e5a386048b0931a3a3bc9949d3875670819d1bf7c43440fa16ea8f9c3fc2c9b2bbff651043ddfeb497896e6ed0670410e9ffe7f7fa269d38066714
def ob : Bytes := pub ++ sg
def s0 : State := req 0x101 (h []) (T fun t => {t with lockout := true})
theorem witness_0 : ∃ (r : Req) (s : State), s.takes 0x0101 r true ∧ r.body = [] ∧ s.treor.lockout = true :=
  ⟨(h []), s0, by unfold State.takes; decide +kernel, by decide +kernel⟩
def s1 : State := req 0x101 (h []) (M fun m => {m with insts := m.insts.set 147 {inst := true, uses := 4, since := 17920000}})
theorem witness_1 : ∃ (r : Req) (s : State), s.takes 0x0101 r true ∧ r.body = [] ∧ s.treor.lockout = false ∧ (s.mint.insts[(147 : Fin 160)]).inst = true ∧ (s.mint.insts[(147 : Fin 160)]).reseedReq = false ∧ s.reseedDue s.mint.insts[(147 : Fin 160)] = false ∧ s.mint.waitq = [] :=
  ⟨(h []), s1, by unfold State.takes; decide +kernel, by decide +kernel⟩
def s2 : State := req 0x101 (h []) (M fun m => {m with state := .failed})
theorem witness_2 : ∃ (r : Req) (s : State), s.takes 0x0101 r true ∧ r.body = [] ∧ s.treor.lockout = false ∧ (s.mint.insts[(147 : Fin 160)]).inst = false ∧ s.mint.state = .failed :=
  ⟨(h []), s2, by unfold State.takes; decide +kernel, by decide +kernel⟩
def s3 : State := req 0x101 (h []) (M fun m => {m with state := .startup})
theorem witness_3 : ∃ (r : Req) (s : State), s.takes 0x0101 r true ∧ r.body = [] ∧ s.treor.lockout = false ∧ (s.mint.insts[(147 : Fin 160)]).inst = false ∧ s.mint.state = .startup :=
  ⟨(h []), s3, by unfold State.takes; decide +kernel, by decide +kernel⟩
def s4 : State := let s := req 0x102 (h ob) (T fun t => {t with nonce := some [1,2], fails := 2}); {s with lc := {s.lc with admins := (Vector.replicate 4 (zeros 32)).set 2 (sha pub)}}
theorem witness_4 : ∃ (r : Req) (pub : Bytes) (sig : Bytes) (n : Bytes) (i : Fin 4) (s : State), s.takes 0x0102 r true ∧ r.body = pub ++ sig ∧ pub.length = 64 ∧ sig.length = 64 ∧ s.treor.lockout = false ∧ s.treor.nonce = some n ∧ s.lc.admins[i] = sha pub ∧ ((∀ j : Fin 4, j < i → s.lc.admins[j] ≠ sha pub)) ∧ ecdsaVerify pub (ascii "TREOR-ADMIN" ++ padTo 16 s.lc.unitId ++ leN 2 s.bootEpoch.toNat ++ n) sig = true :=
  ⟨(h ob), pub, sg, [1,2], 2, s4, by unfold State.takes; decide +kernel, by decide +kernel⟩
def s5 : State := req 0x102 (h (zeros 128)) run
theorem witness_5 : ∃ (r : Req) (s : State), s.takes 0x0102 r true ∧ r.body.length = 128 ∧ s.treor.lockout = false ∧ s.treor.nonce = none ∧ s.treor.fails < 3 :=
  ⟨(h (zeros 128)), s5, by unfold State.takes; decide +kernel, by decide +kernel⟩
def s6 : State := req 0x102 (h (zeros 128)) (T fun t => {t with lockout := true, nonce := some [1]})
theorem witness_6 : ∃ (r : Req) (n : Bytes) (s : State), s.takes 0x0102 r true ∧ r.body.length = 128 ∧ s.treor.lockout = true ∧ s.treor.nonce = some n :=
  ⟨(h (zeros 128)), [1], s6, by unfold State.takes; decide +kernel, by decide +kernel⟩
def s7 : State := req 0x102 (h (zeros 128)) (T fun t => {t with fails := 3})
theorem witness_7 : ∃ (r : Req) (s : State), s.takes 0x0102 r true ∧ r.body.length = 128 ∧ s.treor.lockout = false ∧ s.treor.nonce = none ∧ s.treor.fails = 3 :=
  ⟨(h (zeros 128)), s7, by unfold State.takes; decide +kernel, by decide +kernel⟩
def s8 : State := T (fun t => {t with lockout := true})
theorem witness_8 : ∃ (s : State), s.live = true ∧ s.treor.lockout = true :=
  ⟨s8, by decide +kernel⟩
def s9 : State := req 0x103 (h []) adm
theorem witness_9 : ∃ (r : Req) (s : State), s.takes 0x0103 r true ∧ r.body = [] :=
  ⟨(h []), s9, by unfold State.takes; decide +kernel, by decide +kernel⟩
def s10 : State := adm
theorem witness_10 : ∃ (s : State), s.live = true :=
  ⟨s10, by decide +kernel⟩
end AdminSession

namespace ParametersAreKept
def h (b : Bytes) : Req := { q0 with body := b }
def g (n i : Nat) : Req := h (leN 2 n ++ leN 2 i)
def st (n i v : Nat) : Req := h (leN 2 n ++ leN 2 i ++ zeros 4 ++ leN 4 v)
def s0 : State := req 0x201 (g 0x0003 0) run
theorem witness_0 : ∃ (r : Req) (n : BitVec 16) (i : BitVec 16) (s : State), s.takes 0x0201 r true ∧ r.body = leN 2 n.toNat ++ leN 2 i.toNat ∧ param? n.toNat = none :=
  ⟨(g 0x0003 0), 3, 0, s0, by unfold State.takes; decide +kernel, by decide +kernel⟩
def s1 : State := req 0x201 (g 0x0101 512) run
theorem witness_1 : ∃ (r : Req) (n : BitVec 16) (i : BitVec 16) (p : Param) (s : State), s.takes 0x0201 r true ∧ r.body = leN 2 n.toNat ++ leN 2 i.toNat ∧ param? n.toNat = some p ∧ p.inScope i.toNat = false :=
  ⟨(g 0x0101 512), 0x101, 512, ((param? 0x101).getD {type := 0, ranges := [], reset := 0}), s1, by unfold State.takes; decide +kernel, by decide +kernel⟩
def s2 : State := req 0x201 (g 0x0101 511) run
theorem witness_2 : ∃ (r : Req) (n : BitVec 16) (i : BitVec 16) (p : Param) (s : State), s.takes 0x0201 r true ∧ r.body = leN 2 n.toNat ++ leN 2 i.toNat ∧ param? n.toNat = some p ∧ p.inScope i.toNat = true ∧ p.staged = false :=
  ⟨(g 0x0101 511), 0x101, 511, ((param? 0x101).getD {type := 0, ranges := [], reset := 0}), s2, by unfold State.takes; decide +kernel, by decide +kernel⟩
def s3 : State := req 0x202 (st 0x0101 511 1024) adm
theorem witness_3 : ∃ (r : Req) (n : BitVec 16) (i : BitVec 16) (v : Word) (p : Param) (s : State), s.takes 0x0202 r true ∧ r.body = leN 2 n.toNat ++ leN 2 i.toNat ++ zeros 4 ++ leN 4 v.toNat ∧ param? n.toNat = some p ∧ p.inScope i.toNat = true ∧ p.staged = false ∧ p.readOnly = false ∧ p.allows v = true ∧ p.scope ≠ 1 ∧ isTamperParam n.toNat = false ∧ s.commits = true :=
  ⟨(st 0x0101 511 1024), 0x101, 511, 1024, ((param? 0x101).getD {type := 0, ranges := [], reset := 0}), s3, by unfold State.takes; decide +kernel, by decide +kernel⟩
def s4 : State := req 0x202 (st 0x0101 511 1025) adm
theorem witness_4 : ∃ (r : Req) (n : BitVec 16) (i : BitVec 16) (v : Word) (p : Param) (st : BitVec 16) (s : State), s.takes 0x0202 r true ∧ r.body = leN 2 n.toNat ++ leN 2 i.toNat ++ zeros 4 ++ leN 4 v.toNat ∧ param? n.toNat = some p ∧ p.inScope i.toNat = true ∧ ((p.readOnly = true ∧ st = 0x0312) ∨ (p.readOnly = false ∧ p.allows v = false ∧ st = 0x0311) ∨ (p.readOnly = false ∧ p.allows v = true ∧ p.scope ≠ 1 ∧ s.commits = false ∧ st = 0x0501)) :=
  ⟨(st 0x0101 511 1025), 0x101, 511, 1025, ((param? 0x101).getD {type := 0, ranges := [], reset := 0}), 0x0311, s4, by unfold State.takes; decide +kernel, by decide +kernel⟩
def s5 : State := req 0x202 (h ([0,7] ++ leN 2 127 ++ zeros 4 ++ [64,0,0,0])) (slot7 (fun k => {k with state := .running}) adm)
theorem witness_5 : ∃ (r : Req) (i : Fin 128) (v : Byte) (s : State), s.takes 0x0202 r true ∧ r.body = [0x00, 0x07] ++ leN 2 i.val ++ zeros 4 ++ [v, 0, 0, 0] ∧ v.toNat ≤ 64 ∧ (s.tenants.slots[i]).removing = false ∧ s.commits = true :=
  ⟨(h ([0,7] ++ leN 2 127 ++ zeros 4 ++ [64,0,0,0])), 127, 64, s5, by unfold State.takes; decide +kernel, by decide +kernel⟩
def s6 : State := req 0x202 (h ([0,8] ++ zeros 10)) adm
theorem witness_6 : ∃ (r : Req) (s : State), s.takes 0x0202 r true ∧ r.body = [0x00, 0x08] ++ zeros 10 ∧ s.param 0x0800 0 = 1 ∧ s.commits = true ∧ s.lc.state = .deployed ∧ s.guard.powered = true :=
  ⟨(h ([0,8] ++ zeros 10)), s6, by unfold State.takes; decide +kernel, by decide +kernel⟩
def s7 : State := req 0x203 (h [0, 0x0D, 5, 0]) run
theorem witness_7 : ∃ (r : Req) (s : State), s.takes 0x0203 r true ∧ r.body = [0x00, 0x0D, 5, 0] :=
  ⟨(h [0, 0x0D, 5, 0]), s7, by unfold State.takes; decide +kernel, by decide +kernel⟩
def s8 : State := req 0x203 (h [3, 0x0C, 1, 0]) run
theorem witness_8 : ∃ (r : Req) (s : State), s.takes 0x0203 r true ∧ r.body = [0x03, 0x0C, 1, 0] :=
  ⟨(h [3, 0x0C, 1, 0]), s8, by unfold State.takes; decide +kernel, by decide +kernel⟩
def s9 : State := req 0x203 (h (leN 2 0xD01 ++ [1,0])) run
theorem witness_9 : ∃ (r : Req) (n : BitVec 16) (s : State), s.takes 0x0203 r true ∧ r.body = leN 2 n.toNat ++ [1, 0] ∧ 0x0D00 < n.toNat :=
  ⟨(h (leN 2 0xD01 ++ [1,0])), 0xD01, s9, by unfold State.takes; decide +kernel, by decide +kernel⟩
end ParametersAreKept

namespace RefusedRequestsChangeNothing
def s0 : State := req 0x202 q0 run
theorem witness_0 : ∃ (c : Instr) (op : BitVec 16) (r : Req) (st : BitVec 16) (p : Bytes) (s : State), asRequest c = some (op, r) ∧ s.supervisor = true ∧ s.turn op r = true ∧ s.admitHead op r = some (st, p) :=
  ⟨(.paramSet q0), 0x202, q0, 0x205, [], s0, by decide +kernel⟩
end RefusedRequestsChangeNothing

namespace RequestsAreCheckedInOrder
def s0 : State := req 0x202 {q0 with rsvd := 1} run
theorem witness_0 : ∃ (c : Instr) (op : BitVec 16) (r : Req) (s : State), asRequest c = some (op, r) ∧ s.supervisor = true ∧ s.turn op r = true ∧ (r.rsp = true ∨ r.evt = true ∨ r.rsvd ≠ 0 ∨ r.status ≠ 0 ∨ r.cls ≠ r.wire) :=
  ⟨(.paramSet {q0 with rsvd := 1}), 0x202, {q0 with rsvd := 1}, s0, by decide +kernel⟩
def s1 : State := req 0x202 {q0 with major := 1} run
theorem witness_1 : ∃ (c : Instr) (op : BitVec 16) (r : Req) (s : State), asRequest c = some (op, r) ∧ s.supervisor = true ∧ s.turn op r = true ∧ op ≠ 0x0001 ∧ r.rsp = false ∧ r.evt = false ∧ r.rsvd = 0 ∧ r.status = 0 ∧ r.cls = r.wire ∧ (s.treor.verMaj = 0 ∨ r.major.toNat ≠ s.treor.verMaj) :=
  ⟨(.paramSet {q0 with major := 1}), 0x202, {q0 with major := 1}, s1, by decide +kernel⟩
def s2 : State := req 0x202 {q0 with epoch := 1} run
theorem witness_2 : ∃ (c : Instr) (op : BitVec 16) (r : Req) (s : State), asRequest c = some (op, r) ∧ s.supervisor = true ∧ s.turn op r = true ∧ op ≠ 0x0001 ∧ r.rsp = false ∧ r.evt = false ∧ r.rsvd = 0 ∧ r.status = 0 ∧ r.cls = r.wire ∧ s.treor.verMaj ≠ 0 ∧ r.major.toNat = s.treor.verMaj ∧ r.kind = 0 ∧ r.index = 0 ∧ r.epoch ≠ s.unitEpoch 0 0 :=
  ⟨(.paramSet {q0 with epoch := 1}), 0x202, {q0 with epoch := 1}, s2, by decide +kernel⟩
def s3 : State := req 0x202 q0 run
theorem witness_3 : ∃ (r : Req) (s : State), s.supervisor = true ∧ s.turn 0x0202 r = true ∧ r.rsp = false ∧ r.evt = false ∧ r.rsvd = 0 ∧ r.status = 0 ∧ r.cls = r.wire ∧ s.treor.verMaj ≠ 0 ∧ r.major.toNat = s.treor.verMaj ∧ r.kind = 0 ∧ r.index = 0 ∧ r.epoch = s.unitEpoch 0 0 ∧ r.cls ≠ 0 ∧ s.treor.session = none :=
  ⟨q0, s3, by decide +kernel⟩
def s4 : State := req 0x202 q0 {adm with lc := {adm.lc with state := .invalid}}
theorem witness_4 : ∃ (c : Instr) (op : BitVec 16) (r : Req) (s : State), asRequest c = some (op, r) ∧ s.supervisor = true ∧ s.turn op r = true ∧ s.lc.state = .invalid ∧ servedInvalid op = false ∧ r.rsp = false ∧ r.evt = false ∧ r.rsvd = 0 ∧ r.status = 0 ∧ r.cls = r.wire ∧ s.treor.verMaj = 2 ∧ r.major = 2 ∧ r.kind = 0 ∧ r.index = 0 ∧ r.epoch = s.unitEpoch 0 0 ∧ r.cls ≠ 0 ∧ s.treor.session ≠ none ∧ (opTarget op).map Prod.fst = some 0 :=
  ⟨(.paramSet q0), 0x202, q0, s4, by decide +kernel⟩
def s5 : State := req 0x202 q0 {adm with power := {adm.power with run := .serviceOnly}}
theorem witness_5 : ∃ (c : Instr) (op : BitVec 16) (r : Req) (s : State), asRequest c = some (op, r) ∧ s.power.run = .serviceOnly ∧ s.turn op r = true :=
  ⟨(.paramSet q0), 0x202, q0, s5, by decide +kernel⟩
def s6 : State := req 0x202 q0 {adm with power := {adm.power with run := .bootRom}}
theorem witness_6 : ∃ (c : Instr) (op : BitVec 16) (r : Req) (s : State), asRequest c = some (op, r) ∧ s.power.run = .bootRom ∧ s.turn op r = true :=
  ⟨(.paramSet q0), 0x202, q0, s6, by decide +kernel⟩
def s7 : State := req 0x202 q0 {adm with power := {adm.power with run := .held}}
theorem witness_7 : ∃ (c : Instr) (op : BitVec 16) (r : Req) (s : State), asRequest c = some (op, r) ∧ s.live = false :=
  ⟨(.paramSet q0), 0x202, q0, s7, by decide +kernel⟩
def s8 : State := {run with link := {run.link with delivered := [.message 0x202 {q0 with cls := 1, wire := 1}, .message 0x203 {q0 with cls := 1, wire := 1}]}}
theorem witness_8 : ∃ (c : Instr) (op : BitVec 16) (r : Req) (s : State), asRequest c = some (op, r) ∧ s.live = true ∧ s.turn op r = false :=
  ⟨(.paramList {q0 with cls := 1, wire := 1}), 0x203, {q0 with cls := 1, wire := 1}, s8, by decide +kernel⟩
def s9 : State := {run with link := {run.link with delivered := [.message 0x202 {q0 with cls := 1, wire := 1}, .message 2 {q0 with cls := 0, wire := 0}]}}
theorem witness_9 : ∃ (op : BitVec 16) (q : BitVec 16) (r : Req) (m : Req) (s : State), s.link.delivered = [.message q m, .message op r] ∧ q ≠ 0x0001 ∧ r.wire = 0 ∧ m.wire ≠ 0 :=
  ⟨2, 0x202, {q0 with cls := 0, wire := 0}, {q0 with cls := 1, wire := 1}, s9, by decide +kernel⟩
end RequestsAreCheckedInOrder

namespace SlotsLive
def h (b : Bytes) : Req := { q0 with body := b }
def S (f : Slot → Slot) : State := slot7 (fun k => f {k with tenantId := 77, role := 2, run := {k.run with weight := 3, sram := 2}, stage := {k.stage with weight := 3, sram := 2}}) adm
def b1 (b : Bytes) : Req := { q1 with body := b }
def s0 : State := req 0x301 (h [7,0,0,0]) (S fun k => {k with state := .running})
theorem witness_0 : ∃ (r : Req) (i : Fin 128) (s : State), s.takes 0x0301 r true ∧ r.body = [BitVec.ofNat 8 i.val, 0, 0, 0] ∧ (s.tenants.slots[i]).retired = none :=
  ⟨(h [7,0,0,0]), 7, s0, by unfold State.takes; decide +kernel, by decide +kernel⟩
def s1 : State := req 0x302 (h ([7,3,0,0] ++ leN 8 99 ++ List.replicate 32 1)) adm
theorem witness_1 : ∃ (r : Req) (i : Fin 128) (role : Fin 4) (id : BitVec 64) (hash : Bytes) (s : State), s.takes 0x0302 r true ∧ r.body = [BitVec.ofNat 8 i.val, BitVec.ofNat 8 role.val, 0, 0] ++ leN 8 id.toNat ++ hash ∧ hash.length = 32 ∧ id ≠ 0 ∧ ((∀ j : Fin 128, j ≠ i → (s.tenants.slots[j]).state = .free ∨ (s.tenants.slots[j]).state = .retired ∨ (s.tenants.slots[j]).tenantId ≠ id)) ∧ ((s.tenants.slots[i]).state = .free ∨ (s.tenants.slots[i]).state = .retired) ∧ s.commits = true :=
  ⟨(h ([7,3,0,0] ++ leN 8 99 ++ List.replicate 32 1)), 7, 3, 99, (List.replicate 32 1), s1, by unfold State.takes; decide +kernel, by decide +kernel⟩
def s2 : State := req 0x302 (h ([7,3,0,0] ++ leN 8 99 ++ List.replicate 32 1)) (S fun k => {k with state := .running})
theorem witness_2 : ∃ (r : Req) (s : State), s.takes 0x0302 r true ∧ r.body.length = 44 ∧ fld r.body 0 1 < 128 ∧ fld r.body 1 1 ≤ 3 ∧ fld r.body 2 1 ≤ 1 ∧ byteAt r.body 3 = 0 ∧ BitVec.ofNat 64 (fld r.body 4 8) ≠ 0 ∧ ((∀ j : Fin 128, j.val ≠ fld r.body 0 1 → (s.tenants.slots[j]).tenantId ≠ BitVec.ofNat 64 (fld r.body 4 8))) ∧ (s.tenants.slots[(Fin.ofNat 128 (fld r.body 0 1))]).state = .running :=
  ⟨(h ([7,3,0,0] ++ leN 8 99 ++ List.replicate 32 1)), s2, by unfold State.takes; decide +kernel, by decide +kernel⟩
def s3 : State := req 0x303 (b1 [1,0,0,0]) (S fun k => {k with state := .running, stage := {k.stage with weight := 4}})
theorem witness_3 : ∃ (r : Req) (force : Bool) (s : State), s.takes 0x0303 r true ∧ r.body = [if force then 1 else 0, 0, 0, 0] ∧ (s.tenants.slots[r.slot]).removing = false ∧ s.applyCheck r.slot force = none ∧ s.commits = true :=
  ⟨(b1 [1,0,0,0]), true, s3, by unfold State.takes; decide +kernel, by decide +kernel, by decide +kernel, (by
    unfold State.applyCheck
    simp only [Bool.not_true, Bool.false_eq_true, and_false, if_false]
    decide +kernel), by decide +kernel⟩
def s4 : State := req 0x303 (b1 [0,0,0,0]) (S fun k => {k with state := .running, stage := {k.stage with weight := 65}})
theorem witness_4 : ∃ (r : Req) (st : BitVec 16) (s : State), s.takes 0x0303 r true ∧ r.body = [0, 0, 0, 0] ∧ (s.tenants.slots[r.slot]).removing = false ∧ ((s.tenants.slots[r.slot].state = .free ∨ s.tenants.slots[r.slot].state = .quiescing ∨ s.tenants.slots[r.slot].state = .retired) ∧ st = 0x030A ∨ (s.tenants.slots[r.slot].state = .assigned ∧ s.tenants.slots[r.slot].apply = none ∧ s.exported r.slot = false ∧ s.tenants.slots[r.slot].stage = s.tenants.slots[r.slot].run ∧ st = 0x030B) ∨ (s.tenants.slots[r.slot].state = .running ∧ s.tenants.slots[r.slot].apply = none ∧ s.exported r.slot = false ∧ s.tenants.slots[r.slot].stage ≠ s.tenants.slots[r.slot].run ∧ 64 < s.tenants.slots[r.slot].stage.weight ∧ st = 0x0301)) :=
  ⟨(b1 [0,0,0,0]), 0x301, s4, by unfold State.takes; decide +kernel, by decide +kernel⟩
def s5 : State := req 0x304 q1 (S fun k => {k with state := .running, stage := {k.stage with weight := 65}})
theorem witness_5 : ∃ (r : Req) (s : State), s.takes 0x0304 r true ∧ r.body = [] ∧ (s.tenants.slots[r.slot]).removing = false ∧ s.commits = true ∧ ((s.tenants.slots[r.slot]).state = .assigned ∨ (s.tenants.slots[r.slot]).state = .running ∨ (s.tenants.slots[r.slot]).state = .quiesced) :=
  ⟨q1, s5, by unfold State.takes; decide +kernel, by decide +kernel⟩
def s6 : State := req 0x305 q1 (S fun k => {k with state := .running})
theorem witness_6 : ∃ (r : Req) (s : State), s.takes 0x0305 r true ∧ r.body = [] ∧ (s.tenants.slots[r.slot]).removing = false ∧ (s.tenants.slots[r.slot]).state = .running :=
  ⟨q1, s6, by unfold State.takes; decide +kernel, by decide +kernel⟩
def s7 : State := req 0x305 q1 (S fun k => {k with state := .assigned})
theorem witness_7 : ∃ (r : Req) (s : State), s.takes 0x0305 r true ∧ r.body = [] ∧ (s.tenants.slots[r.slot]).removing = false ∧ (s.tenants.slots[r.slot]).state ≠ .running :=
  ⟨q1, s7, by unfold State.takes; decide +kernel, by decide +kernel⟩
def s8 : State := {(S fun k => {k with state := .quiescing, cold := false, quiesce := some {jobs := 2, ports := 1}}) with treor := {adm.treor with waiting := [⟨.quiesce 7, q1, 0x305, 2⟩]}}
theorem witness_8 : ∃ (i : Fin 128) (us : Word) (q : Quiesce) (r : Req) (m : Byte) (s : State), s.live = true ∧ (s.tenants.slots[i]).state = .quiescing ∧ s.slotBusy i = false ∧ s.activePorts i = 0 ∧ (s.tenants.slots[i]).quiesce = some q ∧ (s.tenants.slots[i]).cold = false ∧ s.treor.waiting = [⟨.quiesce i, r, 0x0305, m⟩] :=
  ⟨7, 5000, {jobs := 2, ports := 1}, q1, 2, s8, by decide +kernel⟩
def s9 : State := S (fun k => {k with state := .quiescing})
theorem witness_9 : ∃ (i : Fin 128) (s : State), s.live = true ∧ (s.tenants.slots[i]).state = .quiescing ∧ (s.pke.pages[i]).job.all (·.ending.isNone) = true :=
  ⟨7, s9, by decide +kernel⟩
def s10 : State := req 0x306 q1 (S fun k => {k with state := .assigned, image := some (List.replicate 300 2)})
theorem witness_10 : ∃ (r : Req) (b : Bytes) (s : State), s.takes 0x0306 r true ∧ r.body = [] ∧ (s.tenants.slots[r.slot]).removing = false ∧ (s.tenants.slots[r.slot]).state = .assigned ∧ (s.tenants.slots[r.slot]).importing = false ∧ s.exported r.slot = false ∧ s.bqt.imported[r.slot] = none ∧ s.guard.tampered = false ∧ (s.tenants.slots[r.slot]).image = some b ∧ (s.tenants.slots[r.slot]).imageOk = true ∧ 0 < (s.tenants.slots[r.slot]).run.weight ∧ (byteAt b 32).toNat ≤ (s.tenants.slots[r.slot]).run.sram :=
  ⟨q1, (List.replicate 300 2), s10, by unfold State.takes; decide +kernel, by decide +kernel⟩
def s11 : State := req 0x306 q1 (S fun k => {k with state := .quiesced, cold := false, image := some (List.replicate 300 2)})
theorem witness_11 : ∃ (r : Req) (b : Bytes) (s : State), s.takes 0x0306 r true ∧ r.body = [] ∧ (s.tenants.slots[r.slot]).removing = false ∧ (s.tenants.slots[r.slot]).state = .quiesced ∧ (s.tenants.slots[r.slot]).cold = false ∧ (s.tenants.slots[r.slot]).importing = false ∧ s.exported r.slot = false ∧ s.bqt.imported[r.slot] = none ∧ s.guard.tampered = false ∧ (s.tenants.slots[r.slot]).image = some b ∧ (s.tenants.slots[r.slot]).imageOk = true ∧ 0 < (s.tenants.slots[r.slot]).run.weight ∧ (byteAt b 32).toNat ≤ (s.tenants.slots[r.slot]).run.sram :=
  ⟨q1, (List.replicate 300 2), s11, by unfold State.takes; decide +kernel, by decide +kernel⟩
def s12 : State := req 0x306 q1 (let s := (S fun k => {k with state := .assigned, image := some (List.replicate 300 2)}); {s with guard := {s.guard with tampered := true}})
theorem witness_12 : ∃ (r : Req) (s : State), s.takes 0x0306 r true ∧ r.body = [] ∧ (s.tenants.slots[r.slot]).removing = false ∧ (s.tenants.slots[r.slot]).state = .assigned ∧ (s.tenants.slots[r.slot]).importing = false ∧ s.exported r.slot = false ∧ s.bqt.imported[r.slot] = none ∧ s.guard.tampered = true :=
  ⟨q1, s12, by unfold State.takes; decide +kernel, by decide +kernel⟩
def s13 : State := req 0x307 q1 (S fun k => {k with state := .quiesced})
theorem witness_13 : ∃ (r : Req) (s : State), s.takes 0x0307 r true ∧ r.body = [] ∧ (s.tenants.slots[r.slot]).removing = false ∧ ((s.tenants.slots[r.slot]).state = .assigned ∨ (s.tenants.slots[r.slot]).state = .quiesced) ∧ s.exported r.slot = false ∧ s.commits = true :=
  ⟨q1, s13, by unfold State.takes; decide +kernel, by decide +kernel⟩
def s14 : State := req 0x307 q1 (S fun k => {k with state := .running})
theorem witness_14 : ∃ (r : Req) (s : State), s.takes 0x0307 r true ∧ r.body = [] ∧ (s.tenants.slots[r.slot]).removing = false ∧ (s.tenants.slots[r.slot]).state = .running :=
  ⟨q1, s14, by unfold State.takes; decide +kernel, by decide +kernel⟩
def s15 : State := req 0x308 q1 (S fun k => {k with state := .quiesced})
theorem witness_15 : ∃ (r : Req) (s : State), s.takes 0x0308 r true ∧ r.body = [] ∧ (s.tenants.slots[r.slot]).removing = false ∧ ((s.tenants.slots[r.slot]).state = .assigned ∨ (s.tenants.slots[r.slot]).state = .quiesced) ∧ (s.tenants.slots[r.slot]).importing = false ∧ s.commits = true :=
  ⟨q1, s15, by unfold State.takes; decide +kernel, by decide +kernel⟩
def s16 : State := {(S fun k => {k with state := .quiesced, removing := true}) with treor := {adm.treor with waiting := [⟨.remove 7, q1, 0x308, 2⟩]}}
theorem witness_16 : ∃ (i : Fin 128) (r : Req) (m : Byte) (s : State), s.live = true ∧ (s.tenants.slots[i]).removing = true ∧ s.treor.waiting = [⟨.remove i, r, 0x0308, m⟩] :=
  ⟨7, q1, 2, s16, by decide +kernel⟩
end SlotsLive

namespace ImagesAndMailboxes
def S (f : Slot → Slot) : State := slot7 (fun k => f {k with tenantId := 77, role := 2, run := {k.run with weight := 3, sram := 2, class0 := 2}, stage := {k.stage with weight := 3, sram := 2}}) adm
def b1 (b : Bytes) : Req := { q1 with body := b }
def hd : Bytes := [0x41, 0x4B, 0x54, 0x49] ++ zeros 252
def e1 : OutEntry := {tag := 3, cls := 2, len := 4080, addr := 0x10000000}
def imgH (v : Nat) : Bytes := ascii "TIMG" ++ [1,0,0,0] ++ leN 8 77 ++ leN 4 v ++ leN 4 8 ++ leN 4 4 ++ leN 4 4 ++ [1] ++ zeros 31 ++ sha (List.replicate 12 7) ++ pub ++ zeros 32
def gi : Bytes := beN 64 0x100effdbc0e5a386048b0931a3a3bc9949d3875670819d1bf7c43440fa16ea8f744c49dcf3e3119700e3c3babe79e5063bcec0057cbd2561fc6a0c30a533b545
def img (v : Nat) : Bytes := imgH v ++ gi ++ List.replicate 12 7
def gg (v : Nat) : Staged := ⟨268, [(0, img v)]⟩
def s0 : State := req 0x309 (b1 (zeros 8 ++ hd)) (S fun k => {k with state := .running})
theorem witness_0 : ∃ (r : Req) (data : Bytes) (s : State), s.takes 0x0309 r true ∧ r.body = zeros 8 ++ data ∧ 256 ≤ data.length ∧ data.length ≤ 4072 ∧ (s.tenants.slots[r.slot]).removing = false ∧ ((s.tenants.slots[r.slot]).state = .assigned ∨ (s.tenants.slots[r.slot]).state = .running) ∧ (s.tenants.slots[r.slot]).importing = false ∧ s.exported r.slot = false ∧ (s.tenants.slots[r.slot]).staged = none ∧ data.length ≤ imageSize data ∧ (imageSize data + 4095) / 4096 ≤ s.poolFree ∧ s.commits = true :=
  ⟨(b1 (zeros 8 ++ hd)), hd, s0, by unfold State.takes; decide +kernel, by decide +kernel⟩
def s1 : State := req 0x309 (b1 (leN 4 256 ++ zeros 4 ++ [1,2])) (S fun k => {k with state := .running, staged := some ⟨300, [(0, hd)]⟩})
theorem witness_1 : ∃ (r : Req) (off : Word) (data : Bytes) (g : Staged) (s : State), s.takes 0x0309 r true ∧ r.body = leN 4 off.toNat ++ zeros 4 ++ data ∧ 1 ≤ data.length ∧ data.length ≤ 4072 ∧ off ≠ 0 ∧ (s.tenants.slots[r.slot]).removing = false ∧ ((s.tenants.slots[r.slot]).state = .assigned ∨ (s.tenants.slots[r.slot]).state = .running) ∧ (s.tenants.slots[r.slot]).importing = false ∧ s.exported r.slot = false ∧ (s.tenants.slots[r.slot]).staged = some g ∧ s.commits = true :=
  ⟨(b1 (leN 4 256 ++ zeros 4 ++ [1,2])), 256, [1,2], ⟨300, [(0, hd)]⟩, s1, by unfold State.takes; decide +kernel, by decide +kernel⟩
def s2 : State := req 0x30A (b1 (leN 4 268)) (S fun k => {k with state := .quiesced, staged := some (gg 3), version := 3, authHash := sha pub})
theorem witness_2 : ∃ (r : Req) (g : Staged) (b : Bytes) (s : State), s.takes 0x030A r true ∧ r.body = leN 4 g.size ∧ g.size < 2 ^ 32 ∧ (s.tenants.slots[r.slot]).removing = false ∧ ((s.tenants.slots[r.slot]).state = .assigned ∨ (s.tenants.slots[r.slot]).state = .quiesced) ∧ (s.tenants.slots[r.slot]).importing = false ∧ s.exported r.slot = false ∧ (s.tenants.slots[r.slot]).staged = some g ∧ g.whole = true ∧ b = pieceBytes g.pieces g.size ∧ headerOk b = true ∧ fld b 8 8 = (s.tenants.slots[r.slot]).tenantId.toNat ∧ (s.tenants.slots[r.slot]).version.toNat ≤ fld b 16 4 ∧ sha (slice b 96 64) = (s.tenants.slots[r.slot]).authHash ∧ ecdsaVerify (slice b 96 64) (b.take 192) (slice b 192 64) = true ∧ sha (b.drop 256) = slice b 64 32 ∧ fld b 32 1 ≤ (s.tenants.slots[r.slot]).run.sram ∧ s.commits = true :=
  ⟨(b1 (leN 4 268)), (gg 3), (img 3), s2, by unfold State.takes; decide +kernel, by decide +kernel, by decide +kernel, by decide +kernel, by decide +kernel, by decide +kernel, by decide +kernel, by decide +kernel, by decide +kernel, (piece_whole _ _ (by decide +kernel)), by decide +kernel⟩
def s3 : State := req 0x30A (b1 (leN 4 268)) (S fun k => {k with state := .quiesced, staged := some (gg 3), version := 4, authHash := sha pub})
theorem witness_3 : ∃ (r : Req) (g : Staged) (b : Bytes) (s : State), s.takes 0x030A r true ∧ r.body = leN 4 g.size ∧ g.size < 2 ^ 32 ∧ (s.tenants.slots[r.slot]).removing = false ∧ ((s.tenants.slots[r.slot]).state = .assigned ∨ (s.tenants.slots[r.slot]).state = .quiesced) ∧ (s.tenants.slots[r.slot]).importing = false ∧ s.exported r.slot = false ∧ (s.tenants.slots[r.slot]).staged = some g ∧ g.whole = true ∧ b = pieceBytes g.pieces g.size ∧ headerOk b = true ∧ fld b 16 4 < (s.tenants.slots[r.slot]).version.toNat :=
  ⟨(b1 (leN 4 268)), (gg 3), (img 3), s3, by unfold State.takes; decide +kernel, by decide +kernel⟩
def s4 : State := req 0x401 (b1 (List.replicate 4080 1)) (S fun k => {k with state := .running, mbox := {k.mbox with ringBase := 0x1000, ringSize := 0x1000}})
theorem witness_4 : ∃ (r : Req) (s : State), s.takes 0x0401 r true ∧ 1 ≤ r.body.length ∧ r.body.length ≤ 4080 ∧ (s.tenants.slots[r.slot]).state = .running ∧ (s.tenants.slots[r.slot]).removing = false ∧ r.cls ≠ 0 ∧ (s.tenants.slots[r.slot]).mbox.inRd = (s.tenants.slots[r.slot]).mbox.inWr ∧ 0 < (s.tenants.slots[r.slot]).mbox.ringSize.toNat ∧ (s.tenants.slots[r.slot]).mbox.ringBase.toNat % 4096 = 0 ∧ (s.tenants.slots[r.slot]).mbox.ringSize.toNat % 4096 = 0 ∧ (s.tenants.slots[r.slot]).mbox.ringBase.toNat + (s.tenants.slots[r.slot]).mbox.ringSize.toNat ≤ 0x10000 * (s.tenants.slots[r.slot]).run.sram ∧ (s.tenants.slots[r.slot]).mbox.inPos.toNat + r.body.length ≤ (s.tenants.slots[r.slot]).mbox.ringSize.toNat ∧ (s.tenants.slots[r.slot]).mbox.inPos.toNat % 16 = 0 :=
  ⟨(b1 (List.replicate 4080 1)), s4, by unfold State.takes; decide +kernel, by decide +kernel⟩
def s5 : State := req 0x401 (b1 (List.replicate 4080 1)) (S fun k => {k with state := .running, mbox := {k.mbox with inWr := 20, inRd := 4}})
theorem witness_5 : ∃ (r : Req) (st : BitVec 16) (s : State), s.takes 0x0401 r true ∧ 1 ≤ r.body.length ∧ r.body.length ≤ 4080 ∧ (((s.tenants.slots[r.slot]).state ≠ .running ∧ st = 0x0204) ∨ ((s.tenants.slots[r.slot]).state = .running ∧ (s.tenants.slots[r.slot]).removing = false ∧ r.cls = 0 ∧ (s.tenants.slots[r.slot]).run.class0 ≤ (s.tenants.slots[r.slot]).class0.length ∧ st = 0x0307) ∨ ((s.tenants.slots[r.slot]).state = .running ∧ (s.tenants.slots[r.slot]).removing = false ∧ r.cls ≠ 0 ∧ 16 ≤ ((s.tenants.slots[r.slot]).mbox.inWr - (s.tenants.slots[r.slot]).mbox.inRd).toNat ∧ st = 0x0309)) :=
  ⟨(b1 (List.replicate 4080 1)), 0x309, s5, by unfold State.takes; decide +kernel, by decide +kernel⟩
def s6 : State := slotRun 7 (slot7 (fun k => {k with mbox := {k.mbox with inWr := 20, inRd := 4}}) run)
theorem witness_6 : ∃ (i : Fin 128) (v : BitVec 16) (s : State), s.calls i = true ∧ (s.tenants.slots[i]).mbox.noteQueue = [] ∧ (s.tenants.slots[i]).mbox.notesLost = 0 ∧ (s.tenants.slots[i]).class0 = [] ∧ ((s.tenants.slots[i]).mbox.inWr - v).toNat ≤ 16 :=
  ⟨7, 4, s6, by decide +kernel⟩
def s7 : State := slotRun 7 (slot7 (fun k => {k with mbox := {k.mbox with inWr := 20, inRd := 4, noteQueue := [⟨1,[2]⟩]}}) run)
theorem witness_7 : ∃ (i : Fin 128) (v : BitVec 16) (n : Notice) (s : State), s.calls i = true ∧ (s.tenants.slots[i]).mbox.noteQueue = [n] ∧ (s.tenants.slots[i]).mbox.notesLost = 0 ∧ ((s.tenants.slots[i]).mbox.inWr - v).toNat < 16 :=
  ⟨7, 5, ⟨1,[2]⟩, s7, by decide +kernel⟩
def s8 : State := slotRun 7 (slot7 (fun k => {k with mbox := {k.mbox with inWr := 20, inRd := 4}}) run)
theorem witness_8 : ∃ (i : Fin 128) (v : BitVec 16) (s : State), s.calls i = true ∧ 16 < ((s.tenants.slots[i]).mbox.inWr - v).toNat :=
  ⟨7, 3, s8, by decide +kernel⟩
def s9 : State := slotRun 7 (slot7 (fun k => {k with mbox := {k.mbox with outWr := 5, outRd := 4}}) run)
theorem witness_9 : ∃ (i : Fin 128) (v : BitVec 16) (s : State), s.calls i = true ∧ s.treor.hostCaps.getLsbD 4 = false ∧ (v - (s.tenants.slots[i]).mbox.outRd).toNat ≤ 16 ∧ ((s.tenants.slots[i]).mbox.outWr - (s.tenants.slots[i]).mbox.outRd).toNat ≤ (v - (s.tenants.slots[i]).mbox.outRd).toNat :=
  ⟨7, 20, s9, by decide +kernel⟩
def s10 : State := slotRun 7 (slot7 (fun k => {k with mbox := {k.mbox with outWr := 5, outRd := 4}}) run)
theorem witness_10 : ∃ (i : Fin 128) (v : BitVec 16) (s : State), s.calls i = true ∧ 16 < (v - (s.tenants.slots[i]).mbox.outRd).toNat :=
  ⟨7, 21, s10, by decide +kernel⟩
def s11 : State := caps (slotRun 7 (slot7 (fun k => {k with sram := Memory.ofBytes 0 [1,2,3], mbox := {k.mbox with outWr := 5, outRd := 5, outs := k.mbox.outs.set 5 e1}}) run))
theorem witness_11 : ∃ (i : Fin 128) (e : OutEntry) (c : Fin 3) (s : State), s.calls i = true ∧ s.treor.hostCaps.getLsbD 4 = true ∧ (s.tenants.slots[i]).mbox.outRd = (s.tenants.slots[i]).mbox.outWr ∧ (s.tenants.slots[i]).mbox.outs[Fin.ofNat 16 (s.tenants.slots[i]).mbox.outRd.toNat] = e ∧ e.cls = BitVec.ofNat 8 (c.val + 1) ∧ 1 ≤ e.len.toNat ∧ e.len.toNat ≤ 4080 ∧ 0x10000000 ≤ e.addr.toNat ∧ e.addr.toNat < 0x20000000 ∧ s.badByte i e.addr.toNat e.len.toNat false = none :=
  ⟨7, e1, 1, s11, by decide +kernel⟩
def s12 : State := caps (slotRun 7 (slot7 (fun k => {k with mbox := {k.mbox with outWr := 5, outRd := 5}}) run))
theorem witness_12 : ∃ (i : Fin 128) (s : State), s.calls i = true ∧ s.treor.hostCaps.getLsbD 4 = true ∧ (s.tenants.slots[i]).mbox.outRd = (s.tenants.slots[i]).mbox.outWr ∧ (s.tenants.slots[i]).mbox.outs[Fin.ofNat 16 (s.tenants.slots[i]).mbox.outRd.toNat].len = 0 :=
  ⟨7, s12, by decide +kernel⟩
end ImagesAndMailboxes

namespace StatusAndPortControl
def h (b : Bytes) : Req := { q0 with body := b }
def S : State := {adm with store := {adm.store with portEpoch := adm.store.portEpoch.set 9 0x1234}}
def SP (f : Port → Port) : State := S.updPort 9 f
def pc (a : Byte) : Req := h ([9,0,0x34,0x12,a,0,0,0])
def s0 : State := req 0x501 (h [2,0,9,0]) S
theorem witness_0 : ∃ (r : Req) (p : Fin 512) (s : State), s.takes 0x0501 r true ∧ r.body = [2, 0] ++ leN 2 p.val :=
  ⟨(h [2,0,9,0]), 9, s0, by unfold State.takes; decide +kernel, by decide +kernel⟩
def s1 : State := req 0x501 (h [1,0,9,0]) S
theorem witness_1 : ∃ (r : Req) (i : Fin 128) (s : State), s.takes 0x0501 r true ∧ r.body = [1, 0] ++ leN 2 i.val :=
  ⟨(h [1,0,9,0]), 9, s1, by unfold State.takes; decide +kernel, by decide +kernel⟩
def s2 : State := req 0x502 (h (leN 6 3 ++ [63, 0])) (S.log 3 4 [5] |> State.log 4 4 [6])
theorem witness_2 : ∃ (r : Req) (first : BitVec 48) (n : Byte) (s : State), s.takes 0x0502 r true ∧ r.body = leN 6 first.toNat ++ [n, 0] ∧ 1 ≤ n.toNat ∧ n.toNat ≤ 63 :=
  ⟨(h (leN 6 3 ++ [63,0])), 3, 63, s2, by unfold State.takes; decide +kernel, by decide +kernel⟩
def s3 : State := req 0x601 (h []) S
theorem witness_3 : ∃ (r : Req) (s : State), s.takes 0x0601 r true ∧ r.body = [] :=
  ⟨(h []), s3, by unfold State.takes; decide +kernel, by decide +kernel⟩
def s4 : State := req 0x901 (h [9,0,0,0]) S
theorem witness_4 : ∃ (r : Req) (p : Fin 512) (s : State), s.takes 0x0901 r true ∧ r.body = leN 2 p.val ++ [0, 0] :=
  ⟨(h [9,0,0,0]), 9, s4, by unfold State.takes; decide +kernel, by decide +kernel⟩
def s5 : State := req 0x902 (pc 1) S
theorem witness_5 : ∃ (r : Req) (p : Fin 512) (s : State), s.takes 0x0902 r true ∧ r.body = leN 2 p.val ++ leN 2 (s.store.portEpoch[p]).toNat ++ [1, 0, 0, 0] ∧ s.commits = true :=
  ⟨(pc 1), 9, s5, by unfold State.takes; decide +kernel, by decide +kernel⟩
def s6 : State := req 0x902 (pc 0x82) (SP fun p => {p with owner := some 7, state := .active})
theorem witness_6 : ∃ (r : Req) (p : Fin 512) (force : Bool) (s : State), s.takes 0x0902 r true ∧ r.body = leN 2 p.val ++ leN 2 (s.store.portEpoch[p]).toNat ++ [if force then 0x82 else 0x02, 0, 0, 0] ∧ s.commits = true ∧ (force = true ∨ (s.sprig.ports[p]).owner = none ∨ (s.sprig.ports[p]).state ≠ .active) :=
  ⟨(pc 0x82), 9, true, s6, by unfold State.takes; decide +kernel, by decide +kernel⟩
def s7 : State := req 0x902 (pc 2) (SP fun p => {p with owner := some 7, state := .active})
theorem witness_7 : ∃ (r : Req) (p : Fin 512) (i : Fin 128) (s : State), s.takes 0x0902 r true ∧ r.body = leN 2 p.val ++ leN 2 (s.store.portEpoch[p]).toNat ++ [0x02, 0, 0, 0] ∧ (s.sprig.ports[p]).owner = some i ∧ (s.sprig.ports[p]).state = .active :=
  ⟨(pc 2), 9, 7, s7, by unfold State.takes; decide +kernel, by decide +kernel⟩
def s8 : State := req 0x902 (pc 3) S
theorem witness_8 : ∃ (r : Req) (p : Fin 512) (s : State), s.takes 0x0902 r true ∧ r.body = leN 2 p.val ++ leN 2 (s.store.portEpoch[p]).toNat ++ [3, 0, 0, 0] :=
  ⟨(pc 3), 9, s8, by unfold State.takes; decide +kernel, by decide +kernel⟩
def s9 : State := req 0x902 (pc 4) S
theorem witness_9 : ∃ (r : Req) (p : Fin 512) (s : State), s.takes 0x0902 r true ∧ r.body = leN 2 p.val ++ leN 2 (s.store.portEpoch[p]).toNat ++ [4, 0, 0, 0] ∧ s.commits = true :=
  ⟨(pc 4), 9, s9, by unfold State.takes; decide +kernel, by decide +kernel⟩
def s10 : State := req 0x902 (pc 5) S
theorem witness_10 : ∃ (r : Req) (p : Fin 512) (s : State), s.takes 0x0902 r true ∧ r.body = leN 2 p.val ++ leN 2 (s.store.portEpoch[p]).toNat ++ [5, 0, 0, 0] ∧ s.commits = true :=
  ⟨(pc 5), 9, s10, by unfold State.takes; decide +kernel, by decide +kernel⟩
def s11 : State := req 0x902 (pc 6) S
theorem witness_11 : ∃ (r : Req) (p : Fin 512) (s : State), s.takes 0x0902 r true ∧ r.body = leN 2 p.val ++ leN 2 (s.store.portEpoch[p]).toNat ++ [6, 0, 0, 0] ∧ s.commits = true :=
  ⟨(pc 6), 9, s11, by unfold State.takes; decide +kernel, by decide +kernel⟩
def s12 : State := req 0x902 (pc 7) S
theorem witness_12 : ∃ (r : Req) (p : Fin 512) (s : State), s.takes 0x0902 r true ∧ r.body = leN 2 p.val ++ leN 2 (s.store.portEpoch[p]).toNat ++ [7, 0, 0, 0] ∧ s.commits = true :=
  ⟨(pc 7), 9, s12, by unfold State.takes; decide +kernel, by decide +kernel⟩
def s13 : State := req 0x902 (h [9,0,0x35,0x12,1,0,0,0]) S
theorem witness_13 : ∃ (r : Req) (p : Fin 512) (e : BitVec 16) (s : State), s.takes 0x0902 r true ∧ r.body = leN 2 p.val ++ leN 2 e.toNat ++ [1, 0, 0, 0] ∧ e ≠ s.store.portEpoch[p] :=
  ⟨(h [9,0,0x35,0x12,1,0,0,0]), 9, 0x1235, s13, by unfold State.takes; decide +kernel, by decide +kernel⟩
def s14 : State := req 0x902 (pc 4) {S with store := {S.store with writeOk := false}}
theorem witness_14 : ∃ (r : Req) (p : Fin 512) (s : State), s.takes 0x0902 r true ∧ r.body = leN 2 p.val ++ leN 2 (s.store.portEpoch[p]).toNat ++ [4, 0, 0, 0] ∧ s.commits = false :=
  ⟨(pc 4), 9, s14, by unfold State.takes; decide +kernel, by decide +kernel⟩
end StatusAndPortControl

namespace SignedRequests
def nn : Bytes := List.replicate 16 6
def srB (ty role : Byte) (tc : Nat) (body : Bytes) : Bytes := ascii "SREQ" ++ [1, ty] ++ leN 2 (176 + body.length) ++ padTo 16 (List.replicate 16 (0:Byte)) ++ leN 2 tc ++ [role, 0] ++ nn ++ zeros 4 ++ body ++ pub
def g0 : Bytes := beN 64 0x100effdbc0e5a386048b0931a3a3bc9949d3875670819d1bf7c43440fa16ea8f013722fb9a722ce7762266b70b4d4868882f5d18bf8b45e5ab45b14497bfb00f
def r0 : Bytes := srB 1 1 0 [3,0,0,0] ++ g0
def g1 : Bytes := beN 64 0x100effdbc0e5a386048b0931a3a3bc9949d3875670819d1bf7c43440fa16ea8f4844e4b75989cba73682b2ac486e8fad28fd5d8c1ffbf12c73153c2a4b9be1ca
def r1 : Bytes := srB 2 1 1 (zeros 128) ++ g1
def g2 : Bytes := beN 64 0x100effdbc0e5a386048b0931a3a3bc9949d3875670819d1bf7c43440fa16ea8fad6a205d51203d5574e9cfc738220bcf078007a4d99da8dab43707b34c9010e3
def r2 : Bytes := srB 2 1 0 (zeros 128) ++ g2
def g3 : Bytes := beN 64 0x100effdbc0e5a386048b0931a3a3bc9949d3875670819d1bf7c43440fa16ea8f2dabc380d58316943cdac0953e54e15d8ee7eed22281c8fb143f01f6aa0e269e
def r3 : Bytes := srB 0x10 2 0 ([1,0,7,0] ++ leN 4 86400 ++ zeros 8) ++ g3
def g4 : Bytes := beN 64 0x100effdbc0e5a386048b0931a3a3bc9949d3875670819d1bf7c43440fa16ea8fb65b9d777ab6c488fd79873ee8173c3fad20c4d87dcfa47388bfea2f2b9c3a7c
def r4 : Bytes := srB 0x10 1 0 ([8,0,255,0] ++ leN 4 86400 ++ zeros 8) ++ g4
def g5 : Bytes := beN 64 0x100effdbc0e5a386048b0931a3a3bc9949d3875670819d1bf7c43440fa16ea8fc0f098b25e554792f830b9876a2734a493e88c2a9c8568b1b7719d4e19c17c8a
def r5 : Bytes := srB 0x20 1 0 (leN 6 99999 ++ [0xFF,0x7F]) ++ g5
def L (f : Lc → Lc) : State := {run with lc := f {run.lc with nonce := some {bytes := nn}, ownerHash := sha pub, mfgHash := sha (pub ++ [1]), admins := (Vector.replicate 4 (zeros 32)).set 2 (List.replicate 32 8)}}
def h (b : Bytes) : Req := { q0 with body := b }
def tok : Bytes := r3
def tk (b : Bytes) : State := slot7 (fun k => {k with state := .running, authHash := sha pub}) (req 0x703 (h b) (L id))
def tok6 : Bytes := r4
def t8 : Bytes := r5
def gk0 : Bytes := beN 64 0x100effdbc0e5a386048b0931a3a3bc9949d3875670819d1bf7c43440fa16ea8f3a3d36836d4319ed0d863315e726e148b229edfc4d4f941b237ebea1938b575b
def gk1 : Bytes := beN 64 0x100effdbc0e5a386048b0931a3a3bc9949d3875670819d1bf7c43440fa16ea8fd2666b2f9de914d836bd353c8f3fe8c6a65e2d8d231bffca6537f5ee8696316e
def t9 (w : Byte) : Bytes := srB 0x21 1 0 [w,0,0,0] ++ (if w = 0 then gk0 else gk1)
def s0 : State := let s := req 0x701 q0 (L id); {s with mint := {s.mint with insts := s.mint.insts.set 147 {inst := true, ctr := {key := 5, v := 6}}}}
theorem witness_0 : ∃ (r : Req) (s : State), s.takes 0x0701 r true ∧ r.body = [] ∧ s.drawKind (ownDraw 147 16) true = .now ∧ allZero (s.drawOut (ownDraw 147 16)) = false :=
  ⟨q0, s0, by unfold State.takes; decide +kernel, by decide +kernel, by decide +kernel, by decide +kernel⟩
def s1 : State := req 0x702 (h r0) (L fun l => {l with state := .provisioning, words := codeword .provisioning})
theorem witness_1 : ∃ (r : Req) (n : Fin 16) (s : State), s.takes 0x0702 r true ∧ lcLayout r.body = true ∧ byteAt r.body 5 = 0x01 ∧ s.lc.state = .provisioning ∧ s.tcnt = n.val ∧ fld r.body 48 1 = 3 ∧ fld r.body 26 1 = 1 ∧ s.signedCheck r.body [0, 1] false 0 = none ∧ s.lc.openSlot = none ∧ s.lc.slots[n] = {} ∧ s.lc.words = codeword .provisioning ∧ s.guard.bbk = .valid ∧ s.guard.rtcSet = true ∧ ((∃ i : Fin 4, allZero s.lc.admins[i] = false)) ∧ s.commits = true :=
  ⟨(h r0), 0, s1, by unfold State.takes; decide +kernel, by and_intros <;> decide +kernel⟩
def s2 : State := let s := req 0x702 (h r0) (L fun l => {l with state := .provisioning, words := codeword .provisioning}); {s with guard := {s.guard with rtcSet := false}}
theorem witness_2 : ∃ (r : Req) (n : Fin 16) (stop : Option OtpStop) (s : State), s.takes 0x0702 r true ∧ lcLayout r.body = true ∧ byteAt r.body 5 = 0x01 ∧ s.lc.state = .provisioning ∧ s.tcnt = n.val ∧ fld r.body 48 1 = 3 ∧ fld r.body 26 1 = 1 ∧ s.signedCheck r.body [0, 1] false 0 = none ∧ s.lc.openSlot = none ∧ (s.guard.bbk ≠ .valid ∨ s.guard.rtcSet = false) :=
  ⟨(h r0), 0, none, s2, by unfold State.takes; decide +kernel, by and_intros <;> decide +kernel⟩
def s3 : State := req 0x702 (h r1) (L id)
theorem witness_3 : ∃ (r : Req) (st : BitVec 16) (s : State), s.takes 0x0702 r true ∧ lcLayout r.body = true ∧ byteAt r.body 5 = 0x02 ∧ s.lc.state = .deployed ∧ (((slice r.body 8 16 ≠ padTo 16 s.lc.unitId ∨ fld r.body 24 2 ≠ s.tcnt ∨ s.nonceOk r.body = false) ∧ st = 0x0704) ∨ (slice r.body 8 16 = padTo 16 s.lc.unitId ∧ fld r.body 24 2 = s.tcnt ∧ s.nonceOk r.body = true ∧ fld r.body 26 1 ≠ 1 ∧ st = 0x0705)) :=
  ⟨(h r1), 0x704, s3, by unfold State.takes; decide +kernel, by and_intros <;> decide +kernel⟩
def s4 : State := let s := req 0x702 (h r2) (L id); {s with treor := {s.treor with session := some 2}}
theorem witness_4 : ∃ (r : Req) (k : BitVec 2) (s : State), s.takes 0x0702 r true ∧ lcLayout r.body = true ∧ byteAt r.body 5 = 0x02 ∧ (s.lc.state = .provisioning ∨ s.lc.state = .deployed) ∧ s.signedCheck r.body [1] false 0 = none ∧ s.commits = true ∧ s.treor.session = some k ∧ ((∀ i : Fin 4, slice r.body (48 + 32 * i.val) 32 ≠ s.lc.admins[k.toNat])) :=
  ⟨(h r2), 2, s4, by unfold State.takes; decide +kernel, by and_intros <;> decide +kernel⟩
def s5 : State := tk tok
theorem witness_5 : ∃ (r : Req) (s : State), s.takes 0x0703 r true ∧ debugLayout r.body = true ∧ s.signedCheck r.body [0, 1, 2] false (fld r.body 50 1) = none ∧ fld r.body 48 2 ≠ 0 ∧ ((∀ b, b < 16 → (fld r.body 48 2).testBit b = true → scopeAllowed s.lc.state (fld r.body 26 1) b = true)) ∧ s.lc.dbgSession = none ∧ s.commits = true :=
  ⟨(h tok), s5, by unfold State.takes; decide +kernel, by and_intros <;> decide +kernel⟩
def s6 : State := req 0x703 (h tok6) (L id)
theorem witness_6 : ∃ (r : Req) (n : Nat) (s : State), s.takes 0x0703 r true ∧ debugLayout r.body = true ∧ s.signedCheck r.body [0, 1, 2] false (fld r.body 50 1) = none ∧ n < 16 ∧ (fld r.body 48 2).testBit n = true ∧ scopeAllowed s.lc.state (fld r.body 26 1) n = false :=
  ⟨(h tok6), 3, s6, by unfold State.takes; decide +kernel, by and_intros <;> decide +kernel⟩
def s7 : State := {run with lc := {run.lc with dbgSession := some {scope := 1, slot := 7, role := .tenant, granted := 50, left := 0}, halted := [7]}}
theorem witness_7 : ∃ (d : Debug) (s : State), s.lc.dbgSession = some d ∧ s.commits = true :=
  ⟨{scope := 1, slot := 7, role := .tenant, granted := 50, left := 0}, s7, by decide +kernel, by decide +kernel⟩
def s8 : State := req 0x704 (h t8) (L id)
theorem witness_8 : ∃ (r : Req) (s : State), s.takes 0x0704 r true ∧ envelopeOk r.body 0x20 8 = true ∧ fld r.body 54 2 < 32768 ∧ s.signedCheck r.body [1] false 0 = none ∧ s.commits = true :=
  ⟨(h t8), s8, by unfold State.takes; decide +kernel, by and_intros <;> decide +kernel⟩
def s9 : State := let s := req 0x705 (h (t9 1)) (L id); {s with guard := {s.guard with tampered := true}, mint := {s.mint with insts := s.mint.insts.set 144 {inst := true}}}
theorem witness_9 : ∃ (r : Req) (s : State), s.takes 0x0705 r true ∧ envelopeOk r.body 0x21 4 = true ∧ fld r.body 48 1 ≤ 1 ∧ allZero (slice r.body 49 3) = true ∧ s.signedCheck r.body [1] false 0 = none ∧ s.lc.state = .deployed ∧ s.guard.tampered = true ∧ s.commits = true ∧ s.mint.waitq = [] ∧ (s.mint.insts[(144 : Fin 160)]).inst = true ∧ (s.mint.insts[(144 : Fin 160)]).reseedReq = false ∧ s.reseedDue s.mint.insts[(144 : Fin 160)] = false :=
  ⟨(h (t9 1)), s9, by unfold State.takes; decide +kernel, by and_intros <;> decide +kernel⟩
def s10 : State := req 0x705 (h (t9 0)) (L id)
theorem witness_10 : ∃ (r : Req) (s : State), s.takes 0x0705 r true ∧ envelopeOk r.body 0x21 4 = true ∧ fld r.body 48 1 = 0 ∧ allZero (slice r.body 49 3) = true ∧ s.signedCheck r.body [1] false 0 = none ∧ s.lc.state = .deployed ∧ s.guard.tampered = false :=
  ⟨(h (t9 0)), s10, by unfold State.takes; decide +kernel, by and_intros <;> decide +kernel⟩
def s11 : State := req 0x706 (h (zeros 16)) (L id)
theorem witness_11 : ∃ (r : Req) (s : State), s.takes 0x0706 r true ∧ r.body.length = 16 :=
  ⟨(h (zeros 16)), s11, by unfold State.takes; decide +kernel, by decide +kernel⟩
end SignedRequests

namespace TestAccessPort
def L (f : Lc → Lc) : State := {run with lc := f run.lc}
def D (sc : BitVec 16) : Debug := {scope := sc, slot := 7, role := .tenant, granted := 50, left := 9}
def DS : State := slotRun 7 (L fun l => {l with dbgSession := some (D 1)})
def s6 : State := run
theorem witness_6 : ∃ (ir : Byte) (s : State), (0x32 < ir.toNat ∨ (0x30 ≤ ir.toNat ∧ s.lc.state ≠ .blank) ∨ (ir = 0x21 ∧ s.lc.dbgSession = none)) :=
  ⟨0x33, s6, by decide +kernel⟩
def s8 : State := L (fun l => {l with state := .blank})
theorem witness_8 : ∃ (s : State), s.lc.state = .blank ∧ s.lc.dukSeed = none :=
  ⟨s8, by decide +kernel⟩
def s9 : State := run
theorem witness_9 : ∃ (s : State), (s.lc.state ≠ .blank ∨ s.lc.dukSeed ≠ none) :=
  ⟨s9, by decide +kernel⟩
def s10 : State := L (fun l => {l with state := .blank})
theorem witness_10 : ∃ (unit : Bytes) (uid : Bytes) (mfg : Bytes) (img : Bytes) (s : State), s.lc.state = .blank ∧ unit.length = 16 ∧ uid.length = 7 ∧ mfg.length = 32 ∧ img.length = 32 ∧ s.lc.unitId = zeros 16 ∧ s.lc.uid = zeros 7 ∧ s.lc.mfgHash = zeros 32 ∧ s.lc.imgHash = zeros 32 :=
  ⟨(List.replicate 16 1), (List.replicate 7 2), (List.replicate 32 3), (List.replicate 32 4), s10, by decide +kernel⟩
def s11 : State := run
theorem witness_11 : ∃ (unit : Bytes) (uid : Bytes) (mfg : Bytes) (img : Bytes) (s : State), s.lc.state ≠ .blank :=
  ⟨(List.replicate 16 1), (List.replicate 7 2), (List.replicate 32 3), (List.replicate 32 4), s11, by decide +kernel⟩
def s12 : State := L (fun l => {l with state := .blank, words := codeword .blank, unitId := List.replicate 16 1, uid := List.replicate 7 2, mfgHash := List.replicate 32 3, imgHash := List.replicate 32 4, dukSeed := some [1]})
theorem witness_12 : ∃ (s : State), s.lc.state = .blank ∧ s.lc.words = codeword .blank ∧ allZero s.lc.unitId = false ∧ allZero s.lc.uid = false ∧ allZero s.lc.mfgHash = false ∧ allZero s.lc.imgHash = false ∧ s.lc.dukSeed ≠ none ∧ s.lc.dbgSession = none :=
  ⟨s12, by decide +kernel⟩
def s13 : State := L (fun l => {l with state := .blank})
theorem witness_13 : ∃ (stop : Option OtpStop) (s : State), s.lc.state = .blank ∧ s.lc.dukSeed = none :=
  ⟨none, s13, by decide +kernel⟩
def s14 : State := {run with mint := {run.mint with insts := run.mint.insts.set 147 {inst := true, ctr := {key := 5, v := 6}}}}
theorem witness_14 : ∃ (stop : Option OtpStop) (now : SupImage) (s : State), s.lc.state ≠ .blank ∧ s.live = true ∧ s.drawKind (ownDraw 147 16) true = .now ∧ allZero (s.drawOut (ownDraw 147 16)) = false :=
  ⟨none, {}, s14, by decide +kernel⟩
def s15 : State := run
theorem witness_15 : ∃ (f : BitVec 16) (p : Bytes) (stop : Option OtpStop) (now : SupImage) (s : State), s.lc.state ≠ .blank ∧ s.live = true ∧ f ≠ 0x0701 ∧ f ≠ 0x0702 ∧ f ≠ 0x0703 ∧ f ≠ 0xF001 :=
  ⟨0x1234, [1], none, {}, s15, by decide +kernel⟩
def s16 : State := {run with power := {run.power with nvWpN := true}}
theorem witness_16 : ∃ (area : Bool) (off : Word) (data : Bytes) (now : SupImage) (s : State), (s.lc.state = .provisioning ∨ s.lc.state = .deployed) ∧ s.live = true ∧ s.power.nvWpN = true ∧ 1 ≤ data.length ∧ data.length ≤ 4088 ∧ off.toNat + data.length ≤ 1048576 :=
  ⟨true, 1048575, [5], {version := 3, header := true, body := true}, s16, by decide +kernel⟩
def s17 : State := run
theorem witness_17 : ∃ (off : Word) (data : Bytes) (now : SupImage) (s : State), (s.lc.state = .provisioning ∨ s.lc.state = .deployed) ∧ s.live = true ∧ s.power.nvWpN = false ∧ 1 ≤ data.length ∧ data.length ≤ 4088 :=
  ⟨1048575, [5], {version := 3, header := true, body := true}, s17, by decide +kernel⟩
def s18 : State := DS
theorem witness_18 : ∃ (d : Debug) (i : Fin 128) (s : State), s.lc.dbgSession = some d ∧ s.live = true ∧ d.scope.getLsbD 0 = true ∧ d.slot.toNat = i.val ∧ (s.tenants.slots[i]).state = .running :=
  ⟨(D 1), 7, s18, by decide +kernel⟩
def s19 : State := DS
theorem witness_19 : ∃ (d : Debug) (i : Fin 128) (n : Fin 32) (v : Word) (s : State), s.lc.dbgSession = some d ∧ s.live = true ∧ d.scope.getLsbD 0 = true ∧ d.slot.toNat = i.val ∧ (s.tenants.slots[i]).state = .running ∧ 0 < n.val :=
  ⟨(D 1), 7, 31, 0x55, s19, by decide +kernel⟩
def s20 : State := DS
theorem witness_20 : ∃ (d : Debug) (i : Fin 128) (n : Fin 32) (s : State) (h : 0 < n.val), s.lc.dbgSession = some d ∧ s.live = true ∧ d.scope.getLsbD 0 = true ∧ d.slot.toNat = i.val ∧ (s.tenants.slots[i]).state = .running :=
  ⟨(D 1), 7, 31, s20, (by decide), by decide +kernel⟩
def s21 : State := DS
theorem witness_21 : ∃ (d : Debug) (a : DbgAccess) (b : Nat) (s : State), s.lc.dbgSession = some d ∧ s.live = true ∧ a.scope = some b ∧ d.scope.getLsbD b = false ∧ s.commits = true :=
  ⟨(D 1), (.store 5), 3, s21, by decide +kernel⟩
def s22 : State := run
theorem witness_22 : ∃ (a : DbgAccess) (s : State), s.lc.dbgSession = none :=
  ⟨(.store 5), s22, by decide +kernel⟩
end TestAccessPort

namespace BouquetsAndMigration
def h (b : Bytes) : Req := { q0 with body := b }
def he (b : Bytes) : Req := { q0 with kind := 3, index := 5, body := b }
def mpub : Bytes := beN 64 0x5a558be9706b3cad2d5f2433861543a8962e1c3ca945fb37380b18b37ed20796b0f01efe08b462f0179817d594dcf7761e5e88b3f25cace4e8803e3bc6cca1fc
def auth : Bytes := pub
def certU (m : Nat) : Bytes := ascii "BQMC" ++ [1,0,0,0] ++ leN 4 77 ++ leN 2 m ++ [0,0] ++ zeros 16 ++ zeros 8 ++ mpub
def gc5 : Bytes := beN 64 0x100effdbc0e5a386048b0931a3a3bc9949d3875670819d1bf7c43440fa16ea8fe6f23fc3ec68857ca7298469cea954050c79270df8a5e0833c7c67e3be8b85aa
def gc6 : Bytes := beN 64 0x100effdbc0e5a386048b0931a3a3bc9949d3875670819d1bf7c43440fa16ea8fac32ef60aef3f6d4da0a54a49e291abc6af613bcaf3459757ee5f17171e559e8
def cert (m : Nat) : Bytes := certU m ++ (if m = 5 then gc5 else gc6)
def lstU (be : Nat) (map : Bytes) : Bytes := ascii "BQRL" ++ [1,0,0,0] ++ leN 4 77 ++ leN 4 be ++ map
def map0 : Bytes := List.replicate 2048 0
def map4 : Bytes := 0x40 :: List.replicate 2047 0
def gl3 : Bytes := beN 64 0x100effdbc0e5a386048b0931a3a3bc9949d3875670819d1bf7c43440fa16ea8fc104e6b4a05e47d63487822df820ed310ef3236579a299ce1ce5561ee8f9dc69
def gl4 : Bytes := beN 64 0x100effdbc0e5a386048b0931a3a3bc9949d3875670819d1bf7c43440fa16ea8f198ce936a045705212a1f011bd392e275bf2e0815cb27da47e71ea90467bf0d7
def lst3 : Bytes := lstU 3 map0 ++ gl3
def mem : Membership := ⟨77, 5, auth, cert 5⟩
def pk6 : Bytes := beN 32 0x0e1f465199b3215e5f0d515dbb9de2b45c34e3715af0c0aec4383f3516590df8
def ch6 : Bytes := beN 32 0x9d3edde79d2e001add0be060ac77f0aaa87245cc4cb65adecf4274c7dead8327
def MB : State := {run with bqt := {run.bqt with member := some mem, be := 3, cache := [⟨6, ch6, pk6, 5⟩]}}
def jb : Bytes := zeros 4 ++ auth ++ cert 5 ++ lst3
def ex : Export := ⟨55, 6, 9, 1, [], false, false⟩
def XB : State := {adm with bqt := {MB.bqt with exports := MB.bqt.exports.set 7 (some ex)}}
def l5 : Bytes := lstU 4 map4 ++ gl4
def l6 : Bytes := lst3
def envH (k : Byte) (mid part : Nat) (b : Bytes) : Bytes := ascii "BQEV" ++ [1, k] ++ leN 2 (248 + b.length) ++ leN 4 77 ++ leN 2 6 ++ leN 2 5 ++ leN 8 3 ++ leN 6 5000 ++ zeros 6 ++ [9, 0, 1, 0] ++ zeros 8 ++ leN 8 mid ++ leN 2 part ++ leN 2 3 ++ zeros 4 ++ cert 6
def sl (k : Byte) (mid part : Nat) (b : Bytes) : Bytes := gcmSeal pk6 (envNonce 6 3) (envH k mid part b) b
def y7 : Bytes := beN 16 0x1d6b9eca51a3ae86624fdaa7156859e4
def e7 : Bytes := envH 1 1 0 [] ++ y7
def y8 : Bytes := beN 18 0xf44d2dc5affb5f3100f5211ec60acac0437f
def e8 : Bytes := envH 5 1 0 [1,2] ++ y8
def im : Import := {mid := 55, src := 6}
def y10 : Bytes := beN 18 0xf44d19736ca6b77cf645eb39f57dcdb3c072
def e10 : Bytes := envH 1 55 2 [1,2] ++ y10
def gcb : Bytes := beN 64 0x100effdbc0e5a386048b0931a3a3bc9949d3875670819d1bf7c43440fa16ea8f29d25388ec7c4abe7c9d003aaf8d5d76325a9791985bfa8c09ca48bc4088f86b
def cb : Bytes := leN 8 55 ++ zeros 46 ++ gcb
def y11 : Bytes := beN 134 0xc24ff890b69e2b505d7c3eb501fef4ec1e6b2ec2dc4f53e2bb8c62ee8074b027bf298bedbaafc85a4ad76b775ab33d602c9904333a83a66dee073690c67ffe752671a523895b4026df21cadb0468caf9a29580bc80e9e423e23b14b3c77c5d077a188c4d92d510b2a0c72e3653e5075d3b8c554df296a31826408986618080a5be2231b3b2e4
def e11 : Bytes := envH 2 55 0 cb ++ y11
def XR : State := {XB with treor := run.treor}
def rb : Bytes := leN 8 55 ++ zeros 8
def y12 : Bytes := beN 32 0xc24ff890b69e2b505d7c3eb501fef4ecd28b36782856bce260693fdb8343d8f3
def e12 : Bytes := envH 3 55 0 rb ++ y12
def gkb : Bytes := beN 64 0x100effdbc0e5a386048b0931a3a3bc9949d3875670819d1bf7c43440fa16ea8f70cb788b5af5353965a098393170b312f21ecddd7088ff5d7eeddbfbb2cae89c
def kb : Bytes := leN 8 55 ++ zeros 8 ++ gkb
def y13 : Bytes := beN 96 0xc24ff890b69e2b505d7c3eb501fef4ec0e65d1191caaf064bf076bdf23d70cbef6fa0cbbca2e5541bd135f37a0a5d7ef5c527cb86076835a747c6e4c548949ecdd5ecb5d454af6a8269a61a12bb9d5a16895ff06cdc034c273bd24f57d3ac0de
def e13 : Bytes := envH 4 55 0 kb ++ y13
def b1 (b : Bytes) : Req := { q1 with body := b }
def xb : Bytes := leN 2 6 ++ [9, 1] ++ leN 2 1 ++ [0,0]
def badc : Bytes := certU 5 ++ gc6
def jb2 : Bytes := zeros 4 ++ auth ++ badc ++ lst3
def bade : Bytes := envH 1 55 2 [1,2] ++ y10.take 17 ++ [0]
def s0 : State := req 0xB01 q0 run
theorem witness_0 : ∃ (r : Req) (s : State), s.takes 0x0B01 r true ∧ r.body = [] ∧ s.bqt.member = none ∧ ((∀ i : Fin 128, s.bqt.exports[i] = none ∧ s.bqt.imports[i] = none)) :=
  ⟨q0, s0, by unfold State.takes; decide +kernel, by decide +kernel, by decide +kernel, by decide +kernel⟩
def s1 : State := req 0xB02 (h jb) adm
theorem witness_1 : ∃ (r : Req) (auth : Bytes) (cert : Bytes) (list : Bytes) (s : State), s.takes 0x0B02 r true ∧ r.body = zeros 4 ++ auth ++ cert ++ list ∧ auth.length = 64 ∧ cert.length = 168 ∧ list.length = 2128 ∧ s.joinCheck auth cert list = none ∧ s.bqt.member = none ∧ s.commits = true :=
  ⟨(h jb), auth, (cert 5), lst3, s1, by unfold State.takes; decide +kernel, by and_intros <;> decide +kernel⟩
def s2 : State := req 0xB02 (h jb2) adm
theorem witness_2 : ∃ (r : Req) (auth : Bytes) (cert : Bytes) (list : Bytes) (s : State), s.takes 0x0B02 r true ∧ r.body = zeros 4 ++ auth ++ cert ++ list ∧ auth.length = 64 ∧ cert.length = 168 ∧ list.length = 2128 ∧ certLayout cert = true ∧ slice cert 16 16 = padTo 16 s.lc.unitId ∧ certKey cert = pubKey s.memberKey ∧ (certOk auth cert = false ∨ listOk auth list = false) :=
  ⟨(h jb2), auth, badc, lst3, s2, by unfold State.takes; decide +kernel, by and_intros <;> decide +kernel⟩
def s3 : State := req 0xB02 (h [1,0,0,0]) {adm with bqt := MB.bqt}
theorem witness_3 : ∃ (r : Req) (s : State), s.takes 0x0B02 r true ∧ r.body = [1, 0, 0, 0] ∧ ((∀ i : Fin 128, s.bqt.exports[i] = none ∧ s.importing i = false)) ∧ s.commits = true :=
  ⟨(h [1,0,0,0]), s3, by unfold State.takes; decide +kernel, by decide +kernel, by decide +kernel, by decide +kernel⟩
def s4 : State := req 0xB02 (h [1,0,0,0]) XB
theorem witness_4 : ∃ (r : Req) (i : Fin 128) (s : State), s.takes 0x0B02 r true ∧ r.body = [1, 0, 0, 0] ∧ s.bqt.exports[i] ≠ none :=
  ⟨(h [1,0,0,0]), 7, s4, by unfold State.takes; decide +kernel, by decide +kernel, by decide +kernel⟩
def s5 : State := req 0xB03 (h l5) {adm with bqt := MB.bqt}
theorem witness_5 : ∃ (r : Req) (m : Membership) (s : State), s.takes 0x0B03 r true ∧ s.bqt.member = some m ∧ listOk m.auth r.body = true ∧ listBqt r.body = m.bqtId.toNat ∧ s.bqt.be.toNat < (listBe r.body).toNat ∧ ((∀ j, bitmapBit s.bqt.bitmap j = true → bitmapBit (listMap r.body) j = true)) ∧ s.commits = true :=
  ⟨(h l5), mem, s5, by unfold State.takes; decide +kernel, by decide +kernel, by decide +kernel, by decide +kernel, by decide +kernel, (fun j h => by
    rw [show s5.bqt.bitmap = List.replicate 2048 0 from rfl, bitmap_zero] at h; cases h), by decide +kernel⟩
def s6 : State := req 0xB03 (h l6) {adm with bqt := MB.bqt}
theorem witness_6 : ∃ (r : Req) (m : Membership) (s : State), s.takes 0x0B03 r true ∧ s.bqt.member = some m ∧ listOk m.auth r.body = true ∧ listBqt r.body = m.bqtId.toNat ∧ (listBe r.body).toNat ≤ s.bqt.be.toNat :=
  ⟨(h l6), mem, s6, by unfold State.takes; decide +kernel, by and_intros <;> decide +kernel⟩
def s7 : State := req 0xB04 (he e7) (MB) |> fun s => {s with bqt := {s.bqt with member := some {mem with bqtId := 78}}}
theorem witness_7 : ∃ (r : Req) (m : Membership) (st : BitVec 16) (s : State), s.takes 0x0B04 r true ∧ 248 ≤ r.body.length ∧ r.body.length ≤ 4080 ∧ s.bqt.member = some m ∧ (((slice r.body 0 4 ≠ ascii "BQEV" ∨ fld r.body 6 2 ≠ r.body.length) ∧ st = 0x0108) ∨ (slice r.body 0 4 = ascii "BQEV" ∧ fld r.body 6 2 = r.body.length ∧ byteAt r.body 4 ≠ 1 ∧ st = 0x020A) ∨ (slice r.body 0 4 = ascii "BQEV" ∧ fld r.body 6 2 = r.body.length ∧ byteAt r.body 4 = 1 ∧ fld r.body 8 4 ≠ m.bqtId.toNat ∧ st = 0x0207)) :=
  ⟨(he e7), {mem with bqtId := 78}, 0x207, s7, by unfold State.takes; decide +kernel, by and_intros <;> decide +kernel⟩
def s8 : State := req 0xB04 (he e8) MB
theorem witness_8 : ∃ (r : Req) (m : Membership) (b : Bytes) (s : State), s.takes 0x0B04 r true ∧ 248 ≤ r.body.length ∧ r.body.length ≤ 4080 ∧ s.bqt.member = some m ∧ s.envCheck m r.body = none ∧ gcmOpen (s.pairFor m (envCert r.body)).2 (envNonce (envSrc r.body) (envSeq r.body)) (r.body.take 232) (r.body.drop 232) = some b ∧ 5 ≤ (byteAt r.body 5).toNat :=
  ⟨(he e8), mem, [1,2], s8, by unfold State.takes; decide +kernel, by and_intros <;> decide +kernel⟩
def s9 : State := req 0xB04 (he bade) MB
theorem witness_9 : ∃ (r : Req) (m : Membership) (s : State), s.takes 0x0B04 r true ∧ 248 ≤ r.body.length ∧ r.body.length ≤ 4080 ∧ s.bqt.member = some m ∧ s.envCheck m r.body = none ∧ gcmOpen (s.pairFor m (envCert r.body)).2 (envNonce (envSrc r.body) (envSeq r.body)) (r.body.take 232) (r.body.drop 232) = none :=
  ⟨(he bade), mem, s9, by unfold State.takes; decide +kernel, by and_intros <;> decide +kernel⟩
def s10 : State := req 0xB04 (he e10) (({MB with bqt := {MB.bqt with imports := MB.bqt.imports.set 9 (some im)}} : State).updSlot 9 fun k => {k with state := .assigned, importing := true})
theorem witness_10 : ∃ (r : Req) (m : Membership) (b : Bytes) (i : Fin 128) (x : Import) (s : State), s.takes 0x0B04 r true ∧ 248 ≤ r.body.length ∧ r.body.length ≤ 4080 ∧ s.bqt.member = some m ∧ s.envCheck m r.body = none ∧ gcmOpen (s.pairFor m (envCert r.body)).2 (envNonce (envSrc r.body) (envSeq r.body)) (r.body.take 232) (r.body.drop 232) = some b ∧ byteAt r.body 5 = 1 ∧ fld r.body 36 1 = i.val ∧ fld r.body 38 2 = (s.store.slotEpoch[i]).toNat ∧ (s.tenants.slots[i]).state = .assigned ∧ (s.tenants.slots[i]).importing = true ∧ (s.tenants.slots[i]).removing = false ∧ s.bqt.imports[i] = some x ∧ x.mid = envMid r.body ∧ x.failed = false ∧ x.manifest = none ∧ x.early.length < 64 ∧ fld r.body 56 2 ≠ 0 ∧ ((∀ p ∈ x.early, p.1 ≠ fld r.body 56 2)) :=
  ⟨(he e10), mem, [1,2], 9, im, s10, by unfold State.takes; decide +kernel, by and_intros <;> decide +kernel⟩
def s11 : State := req 0xB04 (he e11) (slot7 (fun k => {k with state := .quiesced, tenantId := 3}) XR)
theorem witness_11 : ∃ (r : Req) (m : Membership) (b : Bytes) (i : Fin 128) (x : Export) (s : State), s.takes 0x0B04 r true ∧ 248 ≤ r.body.length ∧ r.body.length ≤ 4080 ∧ s.bqt.member = some m ∧ s.envCheck m r.body = none ∧ gcmOpen (s.pairFor m (envCert r.body)).2 (envNonce (envSrc r.body) (envSeq r.body)) (r.body.take 232) (r.body.drop 232) = some b ∧ byteAt r.body 5 = 2 ∧ s.exportOf (envMid r.body) = some (i, x) ∧ b.length = 118 ∧ envSrc r.body = x.dst ∧ fld b 0 8 = x.mid.toNat ∧ ecdsaVerify (certKey (envCert r.body)) (ascii "BQCONF" ++ slice r.body 8 4 ++ b.take 54) (slice b 54 64) = true ∧ s.commits = true :=
  ⟨(he e11), mem, cb, 7, ex, s11, by unfold State.takes; decide +kernel, by and_intros <;> decide +kernel⟩
def s12 : State := req 0xB04 (he e12) (slot7 (fun k => {k with state := .quiesced, tenantId := 3}) XR)
theorem witness_12 : ∃ (r : Req) (m : Membership) (b : Bytes) (i : Fin 128) (x : Export) (s : State), s.takes 0x0B04 r true ∧ 248 ≤ r.body.length ∧ r.body.length ≤ 4080 ∧ s.bqt.member = some m ∧ s.envCheck m r.body = none ∧ gcmOpen (s.pairFor m (envCert r.body)).2 (envNonce (envSrc r.body) (envSeq r.body)) (r.body.take 232) (r.body.drop 232) = some b ∧ byteAt r.body 5 = 3 ∧ s.exportOf (envMid r.body) = some (i, x) ∧ b.length = 16 ∧ fld b 0 8 = x.mid.toNat ∧ s.commits = true :=
  ⟨(he e12), mem, rb, 7, ex, s12, by unfold State.takes; decide +kernel, by and_intros <;> decide +kernel⟩
def s13 : State := req 0xB04 (he e13) (slot7 (fun k => {k with state := .quiesced, tenantId := 3}) XR)
theorem witness_13 : ∃ (r : Req) (m : Membership) (b : Bytes) (i : Fin 128) (x : Export) (s : State), s.takes 0x0B04 r true ∧ 248 ≤ r.body.length ∧ r.body.length ≤ 4080 ∧ s.bqt.member = some m ∧ s.envCheck m r.body = none ∧ gcmOpen (s.pairFor m (envCert r.body)).2 (envNonce (envSrc r.body) (envSeq r.body)) (r.body.take 232) (r.body.drop 232) = some b ∧ byteAt r.body 5 = 4 ∧ s.exportOf (envMid r.body) = some (i, x) ∧ b.length = 80 ∧ envSrc r.body = x.dst ∧ fld b 0 8 = x.mid.toNat ∧ ecdsaVerify (certKey (envCert r.body)) (ascii "BQCANC" ++ slice r.body 8 4 ++ b.take 16) (slice b 16 64) = true ∧ s.commits = true :=
  ⟨(he e13), mem, kb, 7, ex, s13, by unfold State.takes; decide +kernel, by and_intros <;> decide +kernel⟩
def s14 : State := req 0xB06 (b1 xb) (slot7 (fun k => {k with state := .quiesced, tenantId := 3, image := some (List.replicate 300 2)}) {adm with bqt := MB.bqt, mint := {run.mint with insts := run.mint.insts.set 147 {inst := true}}})
theorem witness_14 : ∃ (r : Req) (a : ExportArgs) (s : State), s.takes 0x0B06 r true ∧ r.body = leN 2 a.dst.toNat ++ [a.dslot, if a.force then 1 else 0] ++ leN 2 a.depoch.toNat ++ [0, 0] ∧ a.dslot.toNat < 128 ∧ (s.tenants.slots[r.slot]).removing = false ∧ s.exportCheck r.slot a = none ∧ s.bqt.exports[r.slot] = none ∧ s.commits = true ∧ (s.mint.insts[(147 : Fin 160)]).inst = true ∧ (s.mint.insts[(147 : Fin 160)]).reseedReq = false ∧ s.reseedDue s.mint.insts[(147 : Fin 160)] = false ∧ s.mint.waitq = [] :=
  ⟨(b1 xb), {dst := 6, dslot := 9, force := true, depoch := 1}, s14, by unfold State.takes; decide +kernel, by and_intros <;> decide +kernel⟩
def s15 : State := req 0xB06 (b1 xb) (slot7 (fun k => {k with state := .running, tenantId := 3}) {adm with bqt := MB.bqt})
theorem witness_15 : ∃ (r : Req) (s : State), s.takes 0x0B06 r true ∧ r.body.length = 8 ∧ fld r.body 0 2 < 16384 ∧ fld r.body 2 1 < 128 ∧ fld r.body 3 1 ≤ 1 ∧ fld r.body 6 2 = 0 ∧ (s.tenants.slots[r.slot]).state ≠ .quiesced :=
  ⟨(b1 xb), s15, by unfold State.takes; decide +kernel, by and_intros <;> decide +kernel⟩
end BouquetsAndMigration

namespace BayServesRequests
def r2 (b : Bytes) : Req := { q2 with body := b }
def B (f : Bay → Bay) : State := {adm with bay := f adm.bay}
def rr : Req := r2 []
def Q (bop : Bop) (args : Bytes) : BayReq := {bop, chan := 1, args}
def SV (q : BayReq) (f : Bay → Bay) : State := {(B fun b => f {b with reqs := [q]}) with treor := {adm.treor with waiting := [⟨.bay 1, rr, 0x801, 2⟩]}}
def q4 : BayReq := Q .read (leN 6 3 ++ [32, 0])
def q5 : BayReq := Q .confirm (leN 6 4)
def nn : Bytes := List.replicate 16 6
def srB (ty role : Byte) (tc : Nat) (body : Bytes) : Bytes := ascii "SREQ" ++ [1, ty] ++ leN 2 (176 + body.length) ++ padTo 16 (List.replicate 16 (0:Byte)) ++ leN 2 tc ++ [role, 0] ++ nn ++ zeros 4 ++ body ++ pub
def gs : Bytes := beN 64 0x100effdbc0e5a386048b0931a3a3bc9949d3875670819d1bf7c43440fa16ea8fcef2b68a2d72495e4ba6dc1edf3d3b8c85d6a939da4a4bb7bb97c71376238ef1
def cfgb : Bytes := zeros 24 ++ leN 4 1 ++ zeros 36 ++ sha pub ++ zeros 96 ++ sha pub ++ leN 4 60 ++ [1] ++ zeros (2000)
def q9 : BayReq := Q .seal (srB 0x30 3 0 [0,1,0,0] ++ gs)
def q11 : BayReq := Q .stage ([1,0,0,0] ++ leN 4 131071 ++ [7])
def q12 : BayReq := Q .stage ([0,0,0,0] ++ leN 4 7999 ++ [7,8])
def qa (a : Bytes) : BayReq := {bop := .ack, args := leN 6 5 ++ a, host := false}
def aU : Bytes := [1,0] ++ leN 4 0x1234 ++ zeros 36
def ga : Bytes := beN 64 0x100effdbc0e5a386048b0931a3a3bc9949d3875670819d1bf7c43440fa16ea8f52ffc643236f492667ec92331e1e435d442599a31877649ec643211ef5c281fe
def aa : Bytes := aU ++ ga
def cfi : Bytes := zeros 228 ++ [1] ++ zeros 539 ++ leN 4 0x1234 ++ pub
def cfgU (e : Bytes) : Bytes := ascii "BCFG" ++ [1,0,0,0] ++ zeros 16 ++ leN 4 4 ++ leN 2 1984 ++ zeros 34 ++ sha pub ++ zeros 96 ++ sha pub ++ leN 4 60 ++ [1] ++ zeros 27 ++ e ++ zeros (1856 - 256 - e.length) ++ pub
def gc : Bytes := beN 64 0x100effdbc0e5a386048b0931a3a3bc9949d3875670819d1bf7c43440fa16ea8f5994b5a707bdae6a32bce9cbf4c79ec2d91e09f1c65d7e3ced8140ab55a171ab
def cfgn (e : Bytes) : Bytes := cfgU e ++ gc
def q13 : BayReq := Q .configCommit (leN 4 1984)
def fwU : Bytes := ascii "BIMG" ++ [1,0,0,0] ++ zeros 8 ++ leN 4 4 ++ leN 4 8 ++ leN 4 4 ++ leN 4 4 ++ zeros 32 ++ sha (List.replicate 12 7) ++ pub ++ zeros 32
def gf : Bytes := beN 64 0x100effdbc0e5a386048b0931a3a3bc9949d3875670819d1bf7c43440fa16ea8f7ff795fa34eeddd16a5afd4af0d9a0c6575fab9b25bc4d6c9777db4ed2356e6b
def fwn : Bytes := fwU ++ gf ++ List.replicate 12 7
def q14 : BayReq := Q .fwCommit (leN 4 268)
def s0 : State := req 0x801 (r2 (leN 2 10 ++ [0,0,1,2])) adm
theorem witness_0 : ∃ (r : Req) (bop : Bop) (args : Bytes) (s : State), s.takes 0x0801 r true ∧ r.body = leN 2 bop.code ++ [0, 0] ++ args ∧ bop ≠ .ack ∧ s.lc.state ≠ .terminated :=
  ⟨(r2 (leN 2 10 ++ [0,0,1,2])), .app, [1,2], s0, by unfold State.takes; decide +kernel, by decide +kernel, by decide +kernel, by decide +kernel⟩
def s1 : State := req 0x801 (r2 (leN 2 11 ++ [0,0,1,2])) adm
theorem witness_1 : ∃ (r : Req) (n : BitVec 16) (args : Bytes) (s : State), s.takes 0x0801 r true ∧ r.body = leN 2 n.toNat ++ [0, 0] ++ args ∧ (n = 0 ∨ 10 < n.toNat) :=
  ⟨(r2 (leN 2 11 ++ [0,0,1,2])), 11, [1,2], s1, by unfold State.takes; decide +kernel, by decide +kernel, by decide +kernel⟩
def s2 : State := B (fun b => {b with reqs := [Q .summary [], Q .app [1]]})
theorem witness_2 : ∃ (q : BayReq) (rest : List BayReq) (s : State), s.bayOn = true ∧ s.bay.bridge = 1 ∧ s.bay.reqs = q :: rest ∧ q.bop = .summary ∧ q.taken = false ∧ q.args = [] :=
  ⟨(Q .summary []), [Q .app [1]], s2, by and_intros <;> decide +kernel⟩
def s3 : State := SV (Q .identity []) id
theorem witness_3 : ∃ (q : BayReq) (r : Req) (m : Byte) (s : State), s.serves q r m ∧ q.bop = .identity ∧ q.args = [] ∧ s.bay.fwSel = none ∧ s.bay.config = none :=
  ⟨(Q .identity []), rr, 2, s3, by unfold State.serves; decide +kernel, by and_intros <;> decide +kernel⟩
def s4 : State := SV q4 (fun b => {b with ring := [List.replicate 4 1 ++ leN 6 2 ++ zeros 246, List.replicate 4 1 ++ leN 6 3 ++ zeros 246, List.replicate 4 1 ++ leN 6 4 ++ zeros 246]})
theorem witness_4 : ∃ (q : BayReq) (r : Req) (m : Byte) (n : Byte) (first : BitVec 48) (s : State), s.serves q r m ∧ q.bop = .read ∧ q.args = leN 6 first.toNat ++ [n, 0] ∧ 1 ≤ n.toNat ∧ n.toNat ≤ 32 :=
  ⟨q4, rr, 2, 32, 3, s4, by unfold State.serves; decide +kernel, by and_intros <;> decide +kernel⟩
def s5 : State := SV q5 (fun b => {b with ring := [List.replicate 4 1 ++ leN 6 4 ++ zeros 246]})
theorem witness_5 : ∃ (q : BayReq) (r : Req) (m : Byte) (upto : BitVec 48) (s : State), s.serves q r m ∧ q.bop = .confirm ∧ q.args = leN 6 upto.toNat ∧ upto.toNat ≤ s.bay.newest :=
  ⟨q5, rr, 2, 4, s5, by unfold State.serves; decide +kernel, by decide +kernel, by decide +kernel, by decide +kernel⟩
def s6 : State := SV q5 (fun b => {b with ring := [List.replicate 4 1 ++ leN 6 3 ++ zeros 246]})
theorem witness_6 : ∃ (q : BayReq) (r : Req) (m : Byte) (upto : BitVec 48) (s : State), s.serves q r m ∧ q.bop = .confirm ∧ q.args = leN 6 upto.toNat ∧ s.bay.newest < upto.toNat :=
  ⟨q5, rr, 2, 4, s6, by unfold State.serves; decide +kernel, by decide +kernel, by decide +kernel, by decide +kernel⟩
def s7 : State := SV (Q .nonce []) id
theorem witness_7 : ∃ (q : BayReq) (r : Req) (m : Byte) (s : State), s.serves q r m ∧ q.bop = .nonce ∧ q.args = [] ∧ s.bay.rngOk = true :=
  ⟨(Q .nonce []), rr, 2, s7, by unfold State.serves; decide +kernel, by decide +kernel, by decide +kernel, by decide +kernel⟩
def s8 : State := SV (Q .nonce []) (fun b => {b with rngOk := false})
theorem witness_8 : ∃ (q : BayReq) (r : Req) (m : Byte) (s : State), s.serves q r m ∧ q.bop = .nonce ∧ q.args = [] ∧ s.bay.rngOk = false :=
  ⟨(Q .nonce []), rr, 2, s8, by unfold State.serves; decide +kernel, by decide +kernel, by decide +kernel, by decide +kernel⟩
def s9 : State := SV q9 (fun b => {b with config := some cfgb, nonce := some nn, pinLow := true, fwSel := some true})
theorem witness_9 : ∃ (q : BayReq) (r : Req) (m : Byte) (st : SealState) (s : State), s.serves q r m ∧ q.bop = .seal ∧ s.sealCheck q.args = none ∧ fld q.args 49 1 = st.code :=
  ⟨q9, rr, 2, .sealed, s9, by unfold State.serves; decide +kernel, by decide +kernel, by decide +kernel, by decide +kernel⟩
def s10 : State := SV q9 (fun b => {b with config := some (zeros 3000), nonce := some nn, pinLow := true})
theorem witness_10 : ∃ (q : BayReq) (r : Req) (m : Byte) (st : BitVec 16) (s : State), s.serves q r m ∧ q.bop = .seal ∧ envelopeOk q.args 0x30 4 = true ∧ fld q.args 50 2 = 0 ∧ (((slice q.args 8 16 ≠ padTo 16 s.lc.unitId ∨ s.bay.nonce ≠ some (slice q.args 28 16) ∨ fld q.args 48 1 ≠ s.bay.sealSt.code) ∧ st = 0x0704) ∨ (slice q.args 8 16 = padTo 16 s.lc.unitId ∧ s.bay.nonce = some (slice q.args 28 16) ∧ fld q.args 48 1 = s.bay.sealSt.code ∧ cfgAuth s.bay.cfg (envPub q.args) = false ∧ st = 0x0705)) :=
  ⟨q9, rr, 2, 0x705, s10, by unfold State.serves; decide +kernel, by and_intros <;> decide +kernel⟩
def s11 : State := SV q11 id
theorem witness_11 : ∃ (q : BayReq) (r : Req) (m : Byte) (fw : Bool) (off : Word) (data : Bytes) (s : State), s.serves q r m ∧ q.bop = .stage ∧ s.bay.sealSt = .unsealed ∧ q.args = [if fw then 1 else 0, 0, 0, 0] ++ leN 4 off.toNat ++ data ∧ 1 ≤ data.length ∧ data.length ≤ 4048 ∧ off.toNat + data.length ≤ (if fw then 131072 else 8000) :=
  ⟨q11, rr, 2, true, 131071, [7], s11, by unfold State.serves; decide +kernel, by and_intros <;> decide +kernel⟩
def s12 : State := SV q12 id
theorem witness_12 : ∃ (q : BayReq) (r : Req) (m : Byte) (st : BitVec 16) (s : State), s.serves q r m ∧ q.bop = .stage ∧ ((s.bay.sealSt = .sealed ∧ st = 0x0806) ∨ (s.bay.sealSt = .broken ∧ st = 0x0802) ∨ (s.bay.sealSt = .unsealed ∧ 9 ≤ q.args.length ∧ q.args.length ≤ 4056 ∧ q.args.take 4 = zeros 4 ∧ 8000 < fld q.args 4 4 + (q.args.length - 8) ∧ st = 0x0506)) :=
  ⟨q12, rr, 2, 0x506, s12, by unfold State.serves; decide +kernel, by decide +kernel, by decide +kernel⟩
def s13 : State := SV q13 (fun b => {b with stage0 := [(0, cfgn [1,0,5,0,0,0,0,0])]})
theorem witness_13 : ∃ (q : BayReq) (r : Req) (m : Byte) (len : Word) (o : Bytes) (s : State), s.serves q r m ∧ q.bop = .configCommit ∧ s.bay.sealSt = .unsealed ∧ q.args = leN 4 len.toNat ∧ len.toNat ≤ 8000 ∧ o = pieceBytes s.bay.stage0 len.toNat ∧ s.configCheck o = none :=
  ⟨q13, rr, 2, 1984, (cfgn [1,0,5,0,0,0,0,0]), s13, by unfold State.serves; decide +kernel, by decide +kernel, by decide +kernel, by decide +kernel, by decide +kernel, (piece_whole _ _ (by decide +kernel)), by decide +kernel⟩
def s14 : State := SV q14 (fun b => {b with stage1 := [(0, fwn)], config := some (cfgn [])})
theorem witness_14 : ∃ (q : BayReq) (r : Req) (m : Byte) (len : Word) (i : Bytes) (s : State), s.serves q r m ∧ q.bop = .fwCommit ∧ s.bay.sealSt = .unsealed ∧ q.args = leN 4 len.toNat ∧ len.toNat ≤ 131072 ∧ i = pieceBytes s.bay.stage1 len.toNat ∧ fwLayout i len.toNat = true ∧ s.fwCheck i = none ∧ s.bay.fwSel ≠ some false :=
  ⟨q14, rr, 2, 268, fwn, s14, by unfold State.serves; decide +kernel, by decide +kernel, by decide +kernel, by decide +kernel, by decide +kernel, (piece_whole _ _ (by decide +kernel)), by decide +kernel, by decide +kernel, by decide +kernel⟩
def s15 : State := SV (Q .fwCommit []) (fun b => {b with sealSt := .sealed})
theorem witness_15 : ∃ (q : BayReq) (r : Req) (m : Byte) (s : State), s.serves q r m ∧ (q.bop = .configCommit ∨ q.bop = .fwCommit) ∧ s.bay.sealSt = .sealed :=
  ⟨(Q .fwCommit []), rr, 2, s15, by unfold State.serves; decide +kernel, by decide +kernel, by decide +kernel⟩
def s16 : State := SV (Q .app [1]) (fun b => {b with fw := {b.fw with running := true}})
theorem witness_16 : ∃ (q : BayReq) (r : Req) (m : Byte) (s : State), s.serves q r m ∧ q.bop = .app ∧ q.args ≠ [] ∧ q.args.length ≤ 2048 ∧ s.bay.fw.running = true ∧ s.bay.fw.waiting = none :=
  ⟨(Q .app [1]), rr, 2, s16, by unfold State.serves; decide +kernel, by and_intros <;> decide +kernel⟩
def s17 : State := SV (Q .app [1]) id
theorem witness_17 : ∃ (q : BayReq) (r : Req) (m : Byte) (s : State), s.serves q r m ∧ q.bop = .app ∧ q.args ≠ [] ∧ q.args.length ≤ 2048 ∧ s.bay.fw.running = false :=
  ⟨(Q .app [1]), rr, 2, s17, by unfold State.serves; decide +kernel, by and_intros <;> decide +kernel⟩
def s18 : State := SV {(Q .app [1]) with taken := true} id
theorem witness_18 : ∃ (q : BayReq) (r : Req) (m : Byte) (s : State), s.live = true ∧ s.bay.reqs = [q] ∧ q.bop = .app ∧ q.taken = true ∧ q.host = true ∧ s.treor.waiting = [⟨.bay q.chan, r, 0x0801, m⟩] :=
  ⟨{(Q .app [1]) with taken := true}, rr, 2, s18, by and_intros <;> decide +kernel⟩
def s19 : State := B (fun b => {b with reqs := [qa (zeros 104)]})
theorem witness_19 : ∃ (q : BayReq) (s : State), s.bayOn = true ∧ s.bay.bridge = 1 ∧ s.bay.reqs = [q] ∧ q.bop = .ack ∧ q.taken = false ∧ q.host = false ∧ s.inspectorOk (q.args.drop 6) = false :=
  ⟨(qa (zeros 104)), s19, by and_intros <;> decide +kernel⟩
def s20 : State := B (fun b => {b with reqs := [qa aa], config := some cfi, acks := [(sha aa).take 12]})
theorem witness_20 : ∃ (q : BayReq) (s : State), s.bayOn = true ∧ s.bay.bridge = 1 ∧ s.bay.reqs = [q] ∧ q.bop = .ack ∧ q.taken = false ∧ q.host = false ∧ s.inspectorOk (q.args.drop 6) = true ∧ (sha (q.args.drop 6)).take 12 ∈ s.bay.acks :=
  ⟨(qa aa), s20, by and_intros <;> decide +kernel⟩
def s21 : State := B (fun b => {b with reqs := [qa aa], config := some cfi})
theorem witness_21 : ∃ (q : BayReq) (s : State), s.bayOn = true ∧ s.bay.bridge = 1 ∧ s.bay.reqs = [q] ∧ q.bop = .ack ∧ q.taken = false ∧ q.host = false ∧ s.inspectorOk (q.args.drop 6) = true ∧ (sha (q.args.drop 6)).take 12 ∉ s.bay.acks ∧ s.bay.acks.length < 16 ∧ s.bay.queue.length < 224 :=
  ⟨(qa aa), s21, by and_intros <;> decide +kernel⟩
def s22 : State := req 0x803 q0 run
theorem witness_22 : ∃ (r : Req) (s : State), s.takes 0x0803 r true ∧ r.body = [] ∧ s.bay.seenPend = none :=
  ⟨q0, s22, by unfold State.takes; decide +kernel, by decide +kernel, by decide +kernel⟩
def s23 : State := run
theorem witness_23 : ∃ (s : State), s.supervisor = true ∧ s.bay.bridge = 1 ∧ s.lc.state ≠ .invalid ∧ s.param 0x0B01 0 ≠ 0 :=
  ⟨s23, by and_intros <;> decide +kernel⟩
end BayServesRequests

namespace BayFirmwareAndMeters
def r2 (b : Bytes) : Req := { q2 with body := b }
def B (f : Bay → Bay) : State := {adm with bay := f {adm.bay with fw := {adm.bay.fw with running := true}}}
def F (f : BayFw → BayFw) : State := B fun b => {b with fw := f b.fw}
def M (f : Meter → Meter) : State := (B id).updMeter 9 f
def qq : BayReq := {bop := .app, chan := 1, taken := true}
def s0 : State := B id
theorem witness_0 : ∃ (mask : BitVec 4) (us : Word) (s : State), s.fwCalls = true ∧ mask ≠ 0 ∧ (mask.getLsbD 3 = false ∨ (us ≠ 0 ∧ us.toNat ≤ 10000000)) ∧ s.bay.causes &&& mask = 0 :=
  ⟨8, 10000000, s0, by decide +kernel⟩
def s1 : State := F (fun f => {f with message := some [1]})
theorem witness_1 : ∃ (mask : BitVec 4) (us : Word) (s : State), s.fwCalls = true ∧ mask ≠ 0 ∧ (mask.getLsbD 3 = false ∨ (us ≠ 0 ∧ us.toNat ≤ 10000000)) ∧ s.bay.causes &&& mask ≠ 0 :=
  ⟨10, 10000000, s1, by decide +kernel⟩
def s2 : State := B id
theorem witness_2 : ∃ (us : Word) (s : State), s.fwCalls = true :=
  ⟨5, s2, by decide +kernel⟩
def s3 : State := B id
theorem witness_3 : ∃ (port : Word) (addr : Word) (s : State), s.fwCalls = true ∧ (port.toNat ≤ 63 ∨ port = 0xFF) ∧ 0x10000000 ≤ addr.toNat ∧ addr.toNat + 24 ≤ 0x10018000 ∧ s.bay.queue.length < 224 :=
  ⟨0xFF, 0x10017FE8, s3, by decide +kernel⟩
def s4 : State := B id
theorem witness_4 : ∃ (port : Word) (addr : Word) (st : Word) (s : State), s.fwCalls = true ∧ ((63 < port.toNat ∧ port ≠ 0xFF ∧ st = 0x0108) ∨ (port.toNat ≤ 63 ∧ addr.toNat < 0x10000000 ∧ st = 0x0308) ∨ (port.toNat ≤ 63 ∧ 0x10000000 ≤ addr.toNat ∧ addr.toNat + 24 ≤ 0x10018000 ∧ 224 ≤ s.bay.queue.length ∧ st = 0x0802)) :=
  ⟨63, 0x0FFFFFFF, 0x308, s4, by decide +kernel⟩
def s5 : State := F (fun f => {f with tickets := [(5, some 9), (6, none)]})
theorem witness_5 : ∃ (k : Word) (n : BitVec 48) (rest : List (Word × Option (BitVec 48))) (s : State), s.fwCalls = true ∧ s.bay.fw.tickets = (k, some n) :: rest :=
  ⟨5, 9, [(6, none)], s5, by decide +kernel⟩
def s6 : State := F (fun f => {f with tickets := [(6, none)]})
theorem witness_6 : ∃ (s : State), s.fwCalls = true ∧ ((∀ t ∈ s.bay.fw.tickets, t.2 = none)) :=
  ⟨s6, by decide +kernel, (all_mem (by decide +kernel))⟩
def s7 : State := M (fun m => {m with total := 0x123456789A})
theorem witness_7 : ∃ (n : Fin 64) (s : State), s.fwCalls = true :=
  ⟨9, s7, by decide +kernel⟩
def s8 : State := B id
theorem witness_8 : ∃ (n : Word) (s : State), s.fwCalls = true ∧ 64 ≤ n.toNat :=
  ⟨64, s8, by decide +kernel⟩
def s9 : State := B id
theorem witness_9 : ∃ (s : State), s.fwCalls = true :=
  ⟨s9, by decide +kernel⟩
def s10 : State := F (fun f => {f with message := some [1,2,3]})
theorem witness_10 : ∃ (dst : Word) (room : Word) (m : Bytes) (s : State), s.fwCalls = true ∧ s.bay.fw.message = some m ∧ m.length ≤ room.toNat ∧ 0x10000000 ≤ dst.toNat ∧ dst.toNat + m.length ≤ 0x10018000 :=
  ⟨0x10017FFD, 3, [1,2,3], s10, by decide +kernel⟩
def s11 : State := B id
theorem witness_11 : ∃ (dst : Word) (room : Word) (s : State), s.fwCalls = true ∧ s.bay.fw.message = none :=
  ⟨0x10017FFD, 3, s11, by decide +kernel⟩
def s12 : State := {(B fun b => {b with reqs := [qq], fw := {b.fw with data := Memory.ofBytes 0 [1,2,3]}}) with treor := {adm.treor with waiting := [⟨.bay 1, r2 [], 0x801, 2⟩]}}
theorem witness_12 : ∃ (src : Word) (len : Word) (q : BayReq) (r : Req) (m : Byte) (s : State), s.fwCalls = true ∧ s.live = true ∧ len.toNat ≤ 2048 ∧ 0x10000000 ≤ src.toNat ∧ src.toNat + len.toNat ≤ 0x10018000 ∧ s.bay.reqs = [q] ∧ q.bop = .app ∧ q.taken = true ∧ q.host = true ∧ s.treor.waiting = [⟨.bay q.chan, r, 0x0801, m⟩] :=
  ⟨0x10000000, 2048, qq, (r2 []), 2, s12, by decide +kernel⟩
def s13 : State := B id
theorem witness_13 : ∃ (src : Word) (len : Word) (s : State), s.fwCalls = true ∧ 2048 < len.toNat :=
  ⟨0x10000000, 2049, s13, by decide +kernel⟩
def s14 : State := B (fun b => {b with config := some (List.replicate 2000 3)})
theorem witness_14 : ∃ (off : Word) (dst : Word) (len : Word) (s : State), s.fwCalls = true ∧ 1856 + off.toNat + len.toNat + 128 ≤ s.bay.cfg.length ∧ 0x10000000 ≤ dst.toNat ∧ dst.toNat + len.toNat ≤ 0x10018000 :=
  ⟨10, 0x10017FFA, 6, s14, by decide +kernel⟩
def s15 : State := B id
theorem witness_15 : ∃ (cause : Byte) (access : AccessKind) (pc : Word) (mtval : Word) (s : State), s.bayOn = true ∧ s.bay.fw.running = true ∧ s.bay.queue.length < 224 ∧ (cause ≠ 1 ∨ bayGrants access mtval.toNat = false) :=
  ⟨2, .load, 0x100, 0x5, s15, by decide +kernel⟩
def s16 : State := B (fun b => {b with fw := {b.fw with running := false, restartDue := true}, fwSel := some true, fwB := zeros 300})
theorem witness_16 : ∃ (s : State), s.bayOn = true ∧ s.bay.fw.restartDue = true ∧ s.bay.fw.restarts.length < 8 :=
  ⟨s16, by decide +kernel⟩
def s17 : State := B (fun b => {b with fw := {b.fw with running := false, restartDue := true, restarts := List.replicate 8 4999}})
theorem witness_17 : ∃ (s : State), s.bayOn = true ∧ s.bay.fw.restartDue = true ∧ 8 ≤ s.bay.fw.restarts.length ∧ ((∀ x ∈ s.bay.fw.restarts, s.guard.rtc.toNat < x.toNat + 3600)) :=
  ⟨s17, by decide +kernel, by decide +kernel, by decide +kernel, (fun x hx => by
    have h : s17.bay.fw.restarts.all (fun x => decide (s17.guard.rtc.toNat < x.toNat + 3600)) = true := by decide +kernel
    exact of_decide_eq_true (List.all_eq_true.1 h x hx))⟩
def s18 : State := M (fun m => {m with cfg := {mode := 1}})
theorem witness_18 : ∃ (n : Fin 64) (s : State) (b : Bool), s.bayOn = true ∧ (s.bay.meters[n]).cfg.mode = 1 ∧ (s.bay.meters[n]).cfg.opt = 0 ∧ (s.bay.meters[n]).a = false ∧ s.bay.fw.waiting = none :=
  ⟨9, s18, true, by decide +kernel⟩
def s19 : State := M (fun m => {m with cfg := {mode := 2}, b := true, a := true})
theorem witness_19 : ∃ (n : Fin 64) (a : Bool) (s : State), s.bayOn = true ∧ (s.bay.meters[n]).cfg.mode = 2 ∧ (s.bay.meters[n]).cfg.opt = 0 ∧ (s.bay.meters[n]).a ≠ a ∧ s.bay.fw.waiting = none :=
  ⟨9, false, s19, by decide +kernel⟩
def s20 : State := M (fun m => {m with cfg := {mode := 2}, b := true, a := true})
theorem witness_20 : ∃ (n : Fin 64) (s : State), s.bayOn = true ∧ (s.bay.meters[n]).cfg.mode = 2 :=
  ⟨9, s20, by decide +kernel⟩
def s21 : State := M (fun m => {m with cfg := {mode := 3}, rx := List.replicate 63 1})
theorem witness_21 : ∃ (n : Fin 64) (x : Byte) (s : State), s.bayOn = true ∧ (s.bay.meters[n]).cfg.mode = 3 ∧ (s.bay.meters[n]).rx.length < 64 ∧ s.bay.fw.waiting = none :=
  ⟨9, 7, s21, by decide +kernel⟩
def s22 : State := M (fun m => {m with cfg := {mode := 3}, rx := List.replicate 64 1})
theorem witness_22 : ∃ (n : Fin 64) (x : Byte) (ok : Bool) (s : State), s.bayOn = true ∧ (s.bay.meters[n]).cfg.mode = 3 ∧ 64 ≤ (s.bay.meters[n]).rx.length :=
  ⟨9, 7, false, s22, by decide +kernel⟩
def s23 : State := M (fun m => {m with cfg := {mode := 4}, gateRun := 77})
theorem witness_23 : ∃ (n : Fin 64) (s : State), s.bayOn = true ∧ (s.bay.meters[n]).cfg.mode = 4 :=
  ⟨9, s23, by decide +kernel⟩
def s24 : State := M (fun m => {m with cfg := {mode := 3}, tx := List.replicate 15 1})
theorem witness_24 : ∃ (n : Fin 64) (x : Byte) (s : State), s.bayOn = true ∧ (s.bay.meters[n]).cfg.mode = 3 ∧ (s.bay.meters[n]).tx.length < 16 :=
  ⟨9, 7, s24, by decide +kernel⟩
def s25 : State := M (fun m => {m with cfg := {mode := 3}, tx := List.replicate 16 1})
theorem witness_25 : ∃ (n : Fin 64) (x : Byte) (s : State), s.bayOn = true ∧ ((s.bay.meters[n]).cfg.mode ≠ 3 ∨ 16 ≤ (s.bay.meters[n]).tx.length) :=
  ⟨9, 7, s25, by decide +kernel⟩
def s26 : State := (M (fun m => {m with cfg := {mode := 1}, total := 9, prevTotal := 3})).updBay (fun b => {b with config := some (zeros 224 ++ leN 4 60 ++ zeros 2000)})
theorem witness_26 : ∃ (n : Fin 64) (s : State), s.bayOn = true ∧ s.bay.totalS ≠ 0 ∧ (s.bay.meters[n]).cfg.mode = 1 ∧ ((∀ k : Fin 64, k ≠ n → (s.bay.meters[k]).cfg.mode = 0)) ∧ s.bay.queue.length < 224 :=
  ⟨9, s26, by decide +kernel⟩
end BayFirmwareAndMeters

namespace BayRecordsAndPower
def r2 (b : Bytes) : Req := { q2 with body := b }
def B (f : Bay → Bay) : State := {run with bay := f run.bay}
def wr (t : Byte) : BayWaitRec := {type := t, time := 9, subs := 3, port := 0xFF, flags := 0, body := List.replicate 24 4}
def qq : BayReq := {bop := .app, chan := 1, taken := true}
def s0 : State := B (fun b => {b with running := false, bankA := some ⟨4, List.replicate 64 7, 3, 1⟩})
theorem witness_0 : ∃ (mv : Nat) (s : State), 1680 ≤ mv ∧ s.bay.running = false ∧ s.bay.fwSel = none ∧ s.bay.sealPend = none :=
  ⟨1680, s0, by decide +kernel⟩
def s1 : State := B (fun b => {b with running := false, sealSt := .sealed})
theorem witness_1 : ∃ (mv : Nat) (s : State), 1680 ≤ mv ∧ s.bay.running = false ∧ s.bay.fwSel = none ∧ s.bay.sealPend = none ∧ s.bay.sealSt = .sealed :=
  ⟨1680, s1, by decide +kernel⟩
def s2 : State := B id
theorem witness_2 : ∃ (mv : Nat) (s : State), mv < 1700 ∧ s.bayOn = true :=
  ⟨1699, s2, by decide +kernel⟩
def s3 : State := B (fun b => {b with bankA := some ⟨4, List.replicate 64 7, 3, 1⟩})
theorem witness_3 : ∃ (s : State), s.bayOn = true :=
  ⟨s3, by decide +kernel⟩
def s4 : State := B (fun b => {b with bridge := 0})
theorem witness_4 : ∃ (ms : Nat) (s : State), s.supervisor = true ∧ s.bayOn = true ∧ s.bay.recalled = true ∧ s.bay.bridge ≠ 1 ∧ s.bay.sealPend = none :=
  ⟨12, s4, by decide +kernel⟩
def s5 : State := B (fun b => {b with bridge := 0, sealPend := some ⟨.sealed, [1]⟩, firstBridge := true})
theorem witness_5 : ∃ (p : SealPend) (ms : Nat) (s : State), s.supervisor = true ∧ s.bayOn = true ∧ s.bay.recalled = true ∧ s.bay.bridge ≠ 1 ∧ s.bay.sealPend = some p ∧ s.bay.firstBridge = true :=
  ⟨⟨.sealed, [1]⟩, 12, s5, by decide +kernel⟩
def s6 : State := B (fun b => {b with offered := [List.replicate 256 1, []]})
theorem witness_6 : ∃ (x : Bytes) (rest : List Bytes) (s : State), s.supervisor = true ∧ s.bay.bridge = 1 ∧ s.lc.state ≠ .invalid ∧ s.bay.offered = x :: rest ∧ s.treor.hostCaps.getLsbD 8 = false :=
  ⟨(List.replicate 256 1), [[]], s6, by decide +kernel⟩
def s7 : State := caps (B (fun b => {b with offered := [List.replicate 256 1, []]}))
theorem witness_7 : ∃ (x : Bytes) (rest : List Bytes) (s : State), s.supervisor = true ∧ s.bay.bridge = 1 ∧ s.lc.state ≠ .invalid ∧ s.bay.offered = x :: rest ∧ s.treor.hostCaps.getLsbD 8 = true ∧ s.bay.queuedHost = [] :=
  ⟨(List.replicate 256 1), [[]], s7, by decide +kernel⟩
def s8 : State := B (fun b => {b with queue := [wr 0x14, wr 1], ring := [List.replicate 4 1 ++ leN 6 2 ++ zeros 246]})
theorem witness_8 : ∃ (x : BayWaitRec) (rest : List BayWaitRec) (s : State), s.bayOn = true ∧ s.bay.ringFull = false ∧ s.bay.queue = x :: rest ∧ (x.type = 0x11 ∨ x.type = 0x12 ∨ x.type = 0x13 ∨ x.type = 0x14) ∧ x.ack = false ∧ x.body.length = 24 ∧ s.bay.ring.length < 5952 ∧ s.bay.newest + 1 < 2 ^ 48 :=
  ⟨(wr 0x14), [wr 1], s8, by decide +kernel⟩
def s9 : State := B (fun b => {b with ring := List.replicate 5952 (List.replicate 4 1 ++ leN 6 2 ++ zeros 1)})
theorem witness_9 : ∃ (s : State), s.bay.ringFull = true :=
  ⟨s9, by decide +kernel⟩
def s10 : State := B (fun b => {b with sumDue := true, queue := [wr 1]})
theorem witness_10 : ∃ (s : State), s.bayOn = true ∧ s.bay.ringFull = false ∧ ((∀ x ∈ s.bay.queue, x.type = 0x01 ∨ x.type = 0x02)) ∧ s.bay.reqs = [] ∧ s.bay.sumDue = true ∧ s.bay.bridge = 1 :=
  ⟨s10, by decide +kernel, by decide +kernel, (all_mem (by decide +kernel)), by decide +kernel⟩
def s11 : State := B id
theorem witness_11 : ∃ (e : BitVec 48) (s : State), s.bayOn = true ∧ (s.guard.rtc.toNat + 2 < e.toNat ∨ e.toNat + 2 < s.guard.rtc.toNat) ∧ s.bay.queue.length < 224 :=
  ⟨5003, s11, by decide +kernel⟩
def s12 : State := B id
theorem witness_12 : ∃ (e : BitVec 48) (s : State), e.toNat ≤ s.guard.rtc.toNat + 2 ∧ s.guard.rtc.toNat ≤ e.toNat + 2 :=
  ⟨5002, s12, by decide +kernel⟩
def s13 : State := B (fun b => {b with sealSt := .sealed, seenSeal := 1})
theorem witness_13 : ∃ (s : State), s.bayOn = true ∧ s.bay.sealSt = .sealed ∧ s.bay.bridge = 1 ∧ s.bay.queue.length < 224 ∧ s.bay.seenSeal = 1 :=
  ⟨s13, by decide +kernel⟩
def s14 : State := B id
theorem witness_14 : ∃ (s : State), s.bayOn = true :=
  ⟨s14, by decide +kernel⟩
def s15 : State := B (fun b => {b with refreshPage := 0xFFF})
theorem witness_15 : ∃ (s : State), s.bayOn = true :=
  ⟨s15, by decide +kernel⟩
def s16 : State := B id
theorem witness_16 : ∃ (mv : Nat) (s : State), mv < 1620 ∧ s.bay.reqs = [] ∧ s.released = true ∧ s.bay.bridge ≠ 3 :=
  ⟨1619, s16, by decide +kernel⟩
def s17 : State := {(B fun b => {b with reqs := [qq]}) with treor := {run.treor with waiting := [⟨.bay 1, r2 [], 0x801, 2⟩]}}
theorem witness_17 : ∃ (mv : Nat) (q : BayReq) (r : Req) (m : Byte) (s : State), mv < 1620 ∧ s.live = true ∧ s.bay.reqs = [q] ∧ q.host = true ∧ s.treor.waiting = [⟨.bay q.chan, r, 0x0801, m⟩] :=
  ⟨1619, qq, (r2 []), 2, s17, by decide +kernel⟩
end BayRecordsAndPower

namespace CoresRunTenants
def S : State := slotRun 7 run
def Wt : WaitState := {mask := 12, us := 500}
def img : Bytes := zeros 20 ++ leN 4 8 ++ zeros 232 ++ leN 4 0x7FF08293 ++ leN 4 0
def s0 : State := S.updSlot 7 (fun k => {k with jobDone := true})
theorem witness_0 : ∃ (slot : Fin 128) (mask : Word) (us : Word) (s : State), s.calls slot = true ∧ 0 < mask.toNat ∧ mask.toNat < 16 ∧ ((mask.getLsbD 3 = true → 0 < us.toNat ∧ us.toNat ≤ 10000000)) ∧ s.causes slot &&& mask.setWidth 4 ≠ 0 :=
  ⟨7, 12, 10000000, s0, by decide +kernel⟩
def s1 : State := S
theorem witness_1 : ∃ (slot : Fin 128) (c : Fin 8) (mask : Word) (us : Word) (s : State), s.calls slot = true ∧ 0 < mask.toNat ∧ mask.toNat < 16 ∧ ((mask.getLsbD 3 = true → 0 < us.toNat ∧ us.toNat ≤ 10000000)) ∧ s.causes slot &&& mask.setWidth 4 = 0 ∧ (s.tenants.cores[c]).slot = some slot ∧ ((∀ d : Fin 8, d ≠ c → (s.tenants.cores[d]).slot ≠ some slot)) :=
  ⟨7, 0, 15, 10000000, s1, by decide +kernel⟩
def s2 : State := S
theorem witness_2 : ∃ (slot : Fin 128) (mask : Word) (us : Word) (s : State), s.calls slot = true ∧ mask = 0 :=
  ⟨7, 0, 5, s2, by decide +kernel⟩
def s3 : State := (slotRun 7 run).updSlot 7 (fun k => {k with jobDone := true, waiting := some Wt}) |> (fun s => {s with tenants := {s.tenants with cores := run.tenants.cores}})
theorem witness_3 : ∃ (slot : Fin 128) (cause : BitVec 4) (w : WaitState) (s : State), s.live = true ∧ (s.tenants.slots[slot]).state = .running ∧ (s.tenants.slots[slot]).waiting = some w ∧ s.causes slot &&& w.mask &&& cause ≠ 0 :=
  ⟨7, 4, Wt, s3, by decide +kernel⟩
def s4 : State := (slotRun 7 run).updSlot 7 (fun k => {k with waiting := some Wt}) |> (fun s => {s with tenants := {s.tenants with cores := run.tenants.cores}})
theorem witness_4 : ∃ (slot : Fin 128) (w : WaitState) (s : State), s.live = true ∧ (s.tenants.slots[slot]).state = .running ∧ (s.tenants.slots[slot]).waiting = some w ∧ w.mask.getLsbD 3 = true ∧ s.causes slot &&& w.mask = 0 :=
  ⟨7, Wt, s4, by decide +kernel⟩
def s5 : State := S
theorem witness_5 : ∃ (c : Fin 8) (i : Fin 128) (us : Nat) (s : State), s.live = true ∧ (s.tenants.cores[c]).slot = some i ∧ 0 < (s.tenants.slots[i]).run.weight :=
  ⟨0, 7, 1000, s5, by decide +kernel⟩
def s6 : State := S
theorem witness_6 : ∃ (c : Fin 8) (us : Nat) (s : State), s.live = true ∧ s.tenants.urgent = [] :=
  ⟨0, 1000, s6, by decide +kernel⟩
def s7 : State := let s := S.updSlot 9 (fun k => {k with state := .running, run := {k.run with weight := 3}, image := some [1]}); {s with tenants := {s.tenants with urgent := [9, 8]}}
theorem witness_7 : ∃ (c : Fin 8) (j : Fin 128) (us : Nat) (n : Nat) (r : List (Fin 128)) (s : State), s.live = true ∧ (s.tenants.cores[c]).slot = none ∧ (s.tenants.cores[c]).urgent = false ∧ s.tenants.urgent = j :: r ∧ s.ready j = true ∧ s.onCore j = false ∧ j ∉ r :=
  ⟨1, 9, 50, 3, [8], s7, by decide +kernel⟩
def s8 : State := S
theorem witness_8 : ∃ (slot : Fin 128) (s : State), s.calls slot = true :=
  ⟨7, s8, by decide +kernel⟩
def s9 : State := let s := S.updSlot 9 (fun k => {k with state := .running, run := {k.run with weight := 3}, image := some [1]}); {s with tenants := {s.tenants with urgent := [9]}}
theorem witness_9 : ∃ (slot : Fin 128) (j : Fin 128) (c : Fin 8) (s : State), s.calls slot = true ∧ s.coreOf slot = some c ∧ s.tenants.urgent = [j] ∧ (s.tenants.cores[c]).urgent = false ∧ s.ready j = true ∧ s.onCore j = false :=
  ⟨7, 9, 0, s9, by decide +kernel⟩
def s10 : State := (S.updSlot 7 (fun k => {k with image := some img})) |> (fun s => {s with tenants := {s.tenants with cores := s.tenants.cores.set 0 {s.tenants.cores[0] with mpu := s.tenants.cores[0].mpu.load s.tenants.slots[7]}}})
theorem witness_10 : ∃ (c : Fin 8) (i : Fin 128) (us : Nat) (imm : BitVec 12) (a : BitVec 5) (rd : BitVec 5) (s : State), s.calls i = true ∧ s.coreOf i = some c ∧ 0 < (s.tenants.slots[i]).run.weight ∧ rd ≠ 0 ∧ (List.range 4).map (fun j => (s.tenants.slots[i]).codeByte ((s.tenants.slots[i]).pc.toNat + j)) = leN 4 (imm.toNat * 2 ^ 20 + a.toNat * 2 ^ 15 + rd.toNat * 2 ^ 7 + 0x13) ∧ s.userFault c i .fetch (s.tenants.slots[i]).pc.toNat 2 = none ∧ s.userFault c i .fetch (s.tenants.slots[i]).pc.toNat 4 = none :=
  ⟨0, 7, 40, 0x7FF, 1, 5, s10, by decide +kernel⟩
end CoresRunTenants

namespace TenantsAreConfined
def S : State := slotRun 7 run
def s0 : State := S
theorem witness_0 : ∃ (slot : Fin 128) (c : Fin 8) (n : Fin 4) (a1 : Word) (a2 : Word) (a3 : Word) (s : State), s.calls slot = true ∧ s.coreOf slot = some c ∧ (a3 = 0 ∨ a3 = 1 ∨ a3 = 3) ∧ a1.toNat % 32 = 0 ∧ (a2.toNat + 1) % 32 = 0 ∧ a1.toNat ≤ a2.toNat ∧ 0x10000000 ≤ a1.toNat ∧ a2.toNat < 0x10000000 + 0x10000 * (s.tenants.slots[slot]).run.sram :=
  ⟨7, 0, 3, 0x10000000, 0x1003FFFF, 3, s0, by decide +kernel⟩
def s1 : State := S
theorem witness_1 : ∃ (slot : Fin 128) (n : Fin 4) (a1 : Word) (a2 : Word) (a3 : Word) (s : State), s.calls slot = true ∧ (a3 = 0 ∨ a3 = 1 ∨ a3 = 3) ∧ (a1.toNat % 32 ≠ 0 ∨ (a2.toNat + 1) % 32 ≠ 0 ∨ a2.toNat < a1.toNat ∨ a1.toNat < 0x10000000 ∨ 0x10000000 + 0x10000 * (s.tenants.slots[slot]).run.sram ≤ a2.toNat) :=
  ⟨7, 3, 0x10000000, 0x1004001F, 3, s1, by decide +kernel⟩
def s2 : State := S
theorem witness_2 : ∃ (slot : Fin 128) (c : Fin 8) (pc : Word) (x : TenantTrap) (cause : Byte) (tval : Word) (s : State), s.calls slot = true ∧ s.coreOf slot = some c ∧ s.commits = true ∧ ((∃ w, x = .illegal w ∧ cause = 2 ∧ tval = w) ∨ (∃ w, x = .misaligned w ∧ cause = 3 ∧ tval = w) ∨ (∃ w, x = .breakpoint w ∧ cause = 4 ∧ tval = w)) :=
  ⟨7, 0, 0x100, (.illegal 0x55), 2, 0x55, s2, by decide +kernel, by decide +kernel, by decide +kernel, (.inl ⟨_, rfl, rfl, rfl⟩)⟩
def s3 : State := S
theorem witness_3 : ∃ (slot : Fin 128) (c : Fin 8) (pc : Word) (a : Word) (k : AccessKind) (size : Fin 5) (b : Nat) (q : Nat) (n : Nat) (s : State), s.calls slot = true ∧ s.coreOf slot = some c ∧ s.userFault c slot k a.toNat size.val = some (b, q, n) :=
  ⟨7, 0, 0x100, 0x0FFFFFFF, .store, 4, (((s3.userFault 0 7 .store 0x0FFFFFFF 4).getD (0,0,0)).1), (((s3.userFault 0 7 .store 0x0FFFFFFF 4).getD (0,0,0)).2.1), (((s3.userFault 0 7 .store 0x0FFFFFFF 4).getD (0,0,0)).2.2), s3, by decide +kernel⟩
def s4 : State := {S with tenants := {S.tenants with cores := S.tenants.cores.map fun c => {c with mpu := {c.mpu with en := true, rbase := c.mpu.rbase.set 2 0x10000007, rlim := c.mpu.rlim.set 2 0x1003FFFF}}}}
theorem witness_4 : ∃ (slot : Fin 128) (c : Fin 8) (pc : Word) (a : Word) (k : AccessKind) (size : Fin 5) (s : State), s.calls slot = true ∧ s.coreOf slot = some c ∧ s.userFault c slot k a.toNat size.val = none ∧ fencedStore k a.toNat size.val = false :=
  ⟨7, 0, 0x100, 0x1003FFFC, .load, 4, s4, by decide +kernel⟩
def s5 : State := S.updSlot 7 (fun k => {k with sinceCall := 250000})
theorem witness_5 : ∃ (slot : Fin 128) (pc : Word) (s : State), s.calls slot = true ∧ 250000 ≤ (s.tenants.slots[slot]).sinceCall :=
  ⟨7, 0x100, s5, by decide +kernel⟩
def s6 : State := S.updSlot 7 (fun k => {k with sinceCall := 249999})
theorem witness_6 : ∃ (slot : Fin 128) (pc : Word) (s : State), (s.tenants.slots[slot]).sinceCall < 250000 :=
  ⟨7, 0x100, s6, by decide +kernel⟩
def s7 : State := S
theorem witness_7 : ∃ (slot : Fin 128) (c : Fin 8) (pc : Word) (a : Word) (k : AccessKind) (size : Fin 5) (b : Nat) (q : Nat) (n : Nat) (s : State), s.calls slot = true ∧ s.coreOf slot = some c ∧ s.machineFault c k a.toNat size.val = some (b, q, n) :=
  ⟨7, 0, 0x100, 0x0FFFFFFF, .store, 4, (((s7.machineFault 0 .store 0x0FFFFFFF 4).getD (0,0,0)).1), (((s7.machineFault 0 .store 0x0FFFFFFF 4).getD (0,0,0)).2.1), (((s7.machineFault 0 .store 0x0FFFFFFF 4).getD (0,0,0)).2.2), s7, by decide +kernel⟩
def s8 : State := S
theorem witness_8 : ∃ (slot : Fin 128) (pc : Word) (fn : Word) (s : State), s.calls slot = true ∧ (fn = 0 ∨ (3 < fn.toNat ∧ fn.toNat < 16) ∨ 21 < fn.toNat) :=
  ⟨7, 0x100, 22, s8, by decide +kernel⟩
end TenantsAreConfined

namespace StoreCalls
def S : State := (slotRun 7 run).updSlot 7 fun k => {k with sram := Memory.ofBytes 0 (List.replicate 100 5)}
def id1 : RecId := (recArg 7 5).getD ⟨7, 0, 5⟩
def J : State := {S with store := {S.store with journal := [⟨id1, 0, 0, {seq := 3, body := [1,2,3]}⟩], granules := S.store.granules.set 0 ⟨7, 1⟩, journalSeq := [(7, 4)]}}
def s0 : State := S
theorem witness_0 : ∃ (slot : Fin 128) (a0 : Word) (a1 : Word) (a2 : Word) (id : RecId) (s : State), s.calls slot = true ∧ recArg slot a0 = some id ∧ a2.toNat ≤ 2000 ∧ s.badByte slot a1.toNat a2.toNat false = none ∧ s.store.cellOk = true :=
  ⟨7, 5, 0x10000000, 2000, id1, s0, by decide +kernel⟩
def s1 : State := S
theorem witness_1 : ∃ (slot : Fin 128) (a0 : Word) (a1 : Word) (a2 : Word) (st : BitVec 16) (s : State), s.calls slot = true ∧ ((0x100000 ≤ a0.toNat ∧ st = 0x0108) ∨ (a0.toNat < 0x100000 ∧ 2048 < a2.toNat ∧ st = 0x0108) ∨ (a0.toNat < 0x100000 ∧ a2.toNat ≤ 2000 ∧ s.badByte slot a1.toNat a2.toNat false = none ∧ s.store.cellOk = false ∧ st = 0x0501)) :=
  ⟨7, 0x100000, 0x10000000, 2000, 0x108, s1, by decide +kernel⟩
def s2 : State := S
theorem witness_2 : ∃ (slot : Fin 128) (a0 : Word) (a1 : Word) (a2 : Word) (b : Nat) (id : RecId) (s : State), s.calls slot = true ∧ recArg slot a0 = some id ∧ a2.toNat ≤ 2000 ∧ s.badByte slot a1.toNat a2.toNat false = some b ∧ (s.tenants.slots[slot]).splits ≠ 0xFFFFFFFF :=
  ⟨7, 5, 0x1003FFFF, 2, (((s2.badByte 7 0x1003FFFF 2 false).getD 0)), id1, s2, by decide +kernel⟩
def s3 : State := J
theorem witness_3 : ∃ (slot : Fin 128) (a0 : Word) (a1 : Word) (a2 : Word) (id : RecId) (c : Copy) (s : State), s.calls slot = true ∧ recArg slot a0 = some id ∧ s.badByte slot a1.toNat a2.toNat true = none ∧ s.store.cellOk = true ∧ s.recLocked id = false ∧ s.store.pair? id = none ∧ s.store.find id = .copy c ∧ c.body.length ≤ a2.toNat :=
  ⟨7, 5, 0x10000000, 3, id1, {seq := 3, body := [1,2,3]}, s3, by decide +kernel⟩
def s4 : State := S
theorem witness_4 : ∃ (slot : Fin 128) (a0 : Word) (a1 : Word) (a2 : Word) (id : RecId) (st : BitVec 16) (s : State), s.calls slot = true ∧ recArg slot a0 = some id ∧ s.badByte slot a1.toNat a2.toNat true = none ∧ s.store.cellOk = true ∧ s.store.pair? id = none ∧ ((s.recLocked id = true ∧ st = 0x0703) ∨ (s.recLocked id = false ∧ s.store.find id = .absent ∧ st = 0x0503)) :=
  ⟨7, 5, 0x10000000, 3, id1, 0x503, s4, by decide +kernel⟩
def s5 : State := J
theorem witness_5 : ∃ (slot : Fin 128) (a0 : Word) (a1 : Word) (a2 : Word) (id : RecId) (c : Copy) (s : State), s.calls slot = true ∧ recArg slot a0 = some id ∧ s.badByte slot a1.toNat a2.toNat true = none ∧ s.store.cellOk = true ∧ s.recLocked id = false ∧ s.store.pair? id = none ∧ s.store.find id = .copy c ∧ a2.toNat < c.body.length :=
  ⟨7, 5, 0x10000000, 2, id1, {seq := 3, body := [1,2,3]}, s5, by decide +kernel⟩
def s6 : State := {J with store := {J.store with journal := [⟨id1, 0, 0, {seq := 3, body := [1,2,3], crc := false}⟩]}}
theorem witness_6 : ∃ (slot : Fin 128) (a0 : Word) (a1 : Word) (a2 : Word) (id : RecId) (s : State), s.calls slot = true ∧ recArg slot a0 = some id ∧ s.badByte slot a1.toNat a2.toNat true = none ∧ s.store.cellOk = true ∧ s.recLocked id = false ∧ s.store.pair? id = none ∧ s.store.find id = .lost :=
  ⟨7, 5, 0x10000000, 3, id1, s6, by decide +kernel⟩
def s7 : State := J
theorem witness_7 : ∃ (slot : Fin 128) (a0 : Word) (id : RecId) (s : State), s.calls slot = true ∧ recArg slot a0 = some id ∧ s.store.cellOk = true :=
  ⟨7, 5, id1, s7, by decide +kernel⟩
def s8 : State := J
theorem witness_8 : ∃ (slot : Fin 128) (s : State), s.calls slot = true :=
  ⟨7, s8, by decide +kernel⟩
def s9 : State := J
theorem witness_9 : ∃ (slot : Fin 128) (k : Fin 24) (a1 : Word) (s : State), s.calls slot = true :=
  ⟨7, 23, 0xFFFFFFFF, s9, by decide +kernel⟩
def s10 : State := J
theorem witness_10 : ∃ (slot : Fin 128) (k : Fin 24) (s : State), s.calls slot = true :=
  ⟨7, 23, s10, by decide +kernel⟩
def s11 : State := J
theorem witness_11 : ∃ (slot : Fin 128) (a0 : Word) (a1 : Word) (s : State), s.calls slot = true ∧ 24 ≤ a0.toNat :=
  ⟨7, 24, 5, s11, by decide +kernel⟩
end StoreCalls

namespace RecordsCommit
def S : State := slotRun 7 run
def id1 : RecId := ⟨7, 9, 5⟩
def idd : RecId := ⟨7, 1, 5⟩
def cp : Copy := {seq := 4, body := [1,2,3]}
def pr : DPair := {id := idd, granule := 0, idx := 0, size := 3, a := some cp}
def D (w : PendingWrite) : State := {S with store := {S.store with dual := [pr], granules := S.store.granules.set 0 ⟨7, 3⟩, queue := [w, {id := id1, slot := 8}]}}
def w1 : PendingWrite := {id := idd, body := List.replicate 200 4, slot := 7}
def rest : List PendingWrite := [{id := id1, slot := 8}]
def w2 : PendingWrite := {id := id1, body := List.replicate 200 4, slot := 7}
def w3 : PendingWrite := {id := idd, del := true, slot := 7}
def w4 : PendingWrite := {id := ⟨7, 9, 6⟩, del := true, slot := 7}
def s0 : State := D w1
theorem witness_0 : ∃ (w : PendingWrite) (rest : List PendingWrite) (p : DPair) (c : Copy) (s : State), s.live = true ∧ s.store.queue = w :: rest ∧ w.del = false ∧ s.store.pair? w.id = some p ∧ p.top = some c ∧ c.seq ≠ 0xFFFFFFFFFFFF ∧ w.id.owner ≠ 0xFE ∧ recSize (w.body.length + 16) ≤ zSize p.size :=
  ⟨w1, rest, pr, cp, s0, by decide +kernel⟩
def s1 : State := {(D w2) with store := {(D w2).store with journal := [⟨id1, 1, 0, cp⟩], granules := (D w2).store.granules.set 1 ⟨7, 1⟩, journalSeq := [(7, 5)]}}
theorem witness_1 : ∃ (w : PendingWrite) (rest : List PendingWrite) (g : Nat) (s : State), s.live = true ∧ s.store.queue = w :: rest ∧ w.del = false ∧ s.store.pair? w.id = none ∧ s.dualClass w.id.cls = false ∧ w.id.owner ≠ 0xFE ∧ s.store.room w.id.owner (recSize (w.body.length + 16)) none = some g ∧ ((∀ e ∈ s.store.journal, e.id = w.id → e.copy.seq < s.store.nextSeq w.id.owner)) :=
  ⟨w2, rest, (((s1.store.room 7 (recSize 216) none).getD 0)), s1, by decide +kernel, by decide +kernel, by decide +kernel, by decide +kernel, by decide +kernel, by decide +kernel, by decide +kernel, (all_mem (by decide +kernel))⟩
def s2 : State := D w3
theorem witness_2 : ∃ (w : PendingWrite) (rest : List PendingWrite) (p : DPair) (c : Copy) (s : State), s.live = true ∧ s.store.queue = w :: rest ∧ w.del = true ∧ s.store.pair? w.id = some p ∧ p.top = some c ∧ c.del = false ∧ c.seq ≠ 0xFFFFFFFFFFFF ∧ 32 ≤ zSize p.size :=
  ⟨w3, rest, pr, cp, s2, by decide +kernel⟩
def s3 : State := D w4
theorem witness_3 : ∃ (w : PendingWrite) (rest : List PendingWrite) (s : State), s.live = true ∧ s.store.queue = w :: rest ∧ w.del = true ∧ s.store.find w.id = .absent :=
  ⟨w4, rest, s3, by decide +kernel⟩
def s4 : State := D w1
theorem witness_4 : ∃ (w : PendingWrite) (rest : List PendingWrite) (p : DPair) (c : Copy) (s : State), s.live = true ∧ s.store.queue = w :: rest ∧ w.del = false ∧ s.store.pair? w.id = some p ∧ p.top = some c ∧ c.del = false ∧ w.id.owner ≠ 0xFE ∧ recSize (w.body.length + 16) ≤ zSize p.size :=
  ⟨w1, rest, pr, cp, s4, by decide +kernel⟩
def s5 : State := {S with store := {S.store with queue := []}}
theorem witness_5 : ∃ (ok : Bool) (s : State), s.live = true ∧ s.store.queue = [] :=
  ⟨true, s5, by decide +kernel⟩
end RecordsCommit

namespace CountersCount
def e1 : Entry := {gen := 1, owner := 7, cls := 1, alg := 1, usage := 0x7FF, secret := List.replicate 32 5, wcnt := 6, kcv := 0x123456}
def ct (v m r : Nat) : Entry := {gen := 1, owner := 7, cls := 6, live := BitVec.ofNat 48 v, secret := leN 6 r ++ leN 6 m ++ zeros 20}
def s0 : State := KP (fun p => {p with buf := leN 6 5 ++ [0,0] ++ leN 6 9 ++ zeros 114}) (SK [(100, e1)])
theorem witness_0 : ∃ (i : Fin 128) (k : KIdx) (s : State), s.mayKct i ∧ s.kctFree i k ∧ fld (s.kct.pages[i]).buf 0 6 ≤ fld (s.kct.pages[i]).buf 8 6 :=
  ⟨7, 200, s0, by unfold State.mayKct; decide +kernel, ⟨Nat.lt_of_le_of_lt (used_le rfl) (by decide +kernel), by decide +kernel, by decide +kernel, by decide +kernel⟩, by decide +kernel⟩
def s1 : State := KP (fun p => {p with handle := 0x10064, arg := 3}) (SK [(100, ct 5 100 9)])
theorem witness_1 : ∃ (i : Fin 128) (h : Word) (k : KIdx) (e : Entry) (n : BitVec 16) (s : State), s.mayKct i ∧ (s.kct.pages[i]).handle = h ∧ (s.kct.pages[i]).arg = n.setWidth 32 ∧ n ≠ 0 ∧ s.holdsKey i h k e ∧ e.cls = 6 ∧ e.limit = 0 ∧ e.live.toNat + n.toNat ≤ e.ctrMax ∧ e.live.toNat + n.toNat < e.ctrRsv :=
  ⟨7, 0x10064, 100, (ct 5 100 9), 3, s1, by unfold State.mayKct; decide +kernel, by decide +kernel, by decide +kernel, by decide +kernel, by unfold State.holdsKey; decide +kernel, by decide +kernel⟩
def s2 : State := KP (fun p => {p with handle := 0x10064, arg := 4}) (SK [(100, ct 5 100 9)])
theorem witness_2 : ∃ (i : Fin 128) (h : Word) (k : KIdx) (e : Entry) (n : BitVec 16) (s : State), s.mayKct i ∧ (s.kct.pages[i]).handle = h ∧ (s.kct.pages[i]).arg = n.setWidth 32 ∧ n ≠ 0 ∧ s.holdsKey i h k e ∧ e.cls = 6 ∧ e.limit = 0 ∧ e.live.toNat + n.toNat ≤ e.ctrMax ∧ e.ctrRsv ≤ e.live.toNat + n.toNat ∧ s.commits = true ∧ e.secret.length = 32 :=
  ⟨7, 0x10064, 100, (ct 5 100 9), 4, s2, by unfold State.mayKct; decide +kernel, by decide +kernel, by decide +kernel, by decide +kernel, by unfold State.holdsKey; decide +kernel, by decide +kernel⟩
def s3 : State := KP (fun p => {p with handle := 0x10064, arg := 96}) (SK [(100, ct 5 100 9)])
theorem witness_3 : ∃ (i : Fin 128) (h : Word) (k : KIdx) (e : Entry) (n : BitVec 16) (s : State), s.mayKct i ∧ (s.kct.pages[i]).handle = h ∧ (s.kct.pages[i]).arg = n.setWidth 32 ∧ n ≠ 0 ∧ s.holdsKey i h k e ∧ e.cls = 6 ∧ e.limit = 0 ∧ e.ctrMax < e.live.toNat + n.toNat :=
  ⟨7, 0x10064, 100, (ct 5 100 9), 96, s3, by unfold State.mayKct; decide +kernel, by decide +kernel, by decide +kernel, by decide +kernel, by unfold State.holdsKey; decide +kernel, by decide +kernel⟩
def s4 : State := KP (fun p => {p with handle := 0x10064}) (SK [(100, ct 5 100 9)])
theorem witness_4 : ∃ (i : Fin 128) (h : Word) (k : KIdx) (e : Entry) (s : State), s.mayKct i ∧ (s.kct.pages[i]).handle = h ∧ s.holdsKey i h k e ∧ e.cls = 6 ∧ e.limit = 0 :=
  ⟨7, 0x10064, 100, (ct 5 100 9), s4, by unfold State.mayKct; decide +kernel, by decide +kernel, by unfold State.holdsKey; decide +kernel, by decide +kernel⟩
end CountersCount

namespace KeysAreMade
def e1 : Entry := {gen := 1, owner := 7, cls := 1, alg := 1, usage := 0x7FF, secret := List.replicate 32 5, wcnt := 6, kcv := 0x123456}
def tb : Bytes := [1,3,0,0,0xFF,7,0,0] ++ zeros 8
def tm : Template := {cls := 1, alg := 3, usage := 0x7FF}
def I (n : Fin 160) (s : State) : State := {s with mint := {s.mint with insts := s.mint.insts.set n {inst := true}}}
def tb2 : Bytes := [1,1,0,0,0xFF,7,0,0] ++ zeros 8
def ub : Bytes := beN 40 0x3a9393059dbdbf7c82d244ee63472ecd3c6331f83a2d3ceb8221cfe033305b0fbb01befcd0653c88
def ub6 : Bytes := beN 24 0x0517c455f5181c9e1acdf49803e6f9b06fba2f4cefbdf662
def dk : Entry := {gen := 1, owner := 7, cls := 7, secret := List.replicate 8 3 ++ leN 4 9 ++ zeros 20}
def s0 : State := I 7 (KP (fun p => {p with buf := tb ++ zeros 112}) (SK [(100, e1)]))
theorem witness_0 : ∃ (i : Fin 128) (k : KIdx) (tm : Template) (n : Nat) (s : State), s.mayKct i ∧ s.kctFree i k ∧ keyTemplate (s.kct.pages[i]).buf = some (tm, n) ∧ tm.vol = false ∧ (s.mint.insts[(Fin.castLE (by decide) i : Fin 160)]).inst = true ∧ (s.mint.insts[(Fin.castLE (by decide) i : Fin 160)]).reseedReq = false ∧ s.reseedDue s.mint.insts[(Fin.castLE (by decide) i : Fin 160)] = false ∧ s.mint.waitq = [] :=
  ⟨7, 200, tm, 32, s0, by unfold State.mayKct; decide +kernel, ⟨Nat.lt_of_le_of_lt (used_le rfl) (by decide +kernel), by decide +kernel, by decide +kernel, by decide +kernel⟩, by decide +kernel⟩
def s1 : State := let s := KP (fun p => {p with buf := tb ++ zeros 112}) (SK [(100, e1)]); {s with mint := {s.mint with state := .failed}}
theorem witness_1 : ∃ (i : Fin 128) (tm : Template) (n : Nat) (s : State), s.mayKct i ∧ keyTemplate (s.kct.pages[i]).buf = some (tm, n) ∧ tm.vol = false ∧ s.kctUsed i < (s.tenants.slots[i]).run.kct ∧ s.kct.fresh < 32256 ∧ (s.mint.insts[(Fin.castLE (by decide) i : Fin 160)]).inst = false ∧ s.mint.state = .failed :=
  ⟨7, tm, 32, s1, by unfold State.mayKct; decide +kernel, by decide +kernel⟩
def s2 : State := KP (fun p => {p with handle := 0x10064, arg := 40, buf := padTo 128 ub}) (SK [(100, e1)])
theorem witness_2 : ∃ (i : Fin 128) (h : Word) (kek : KIdx) (k : KIdx) (e : Entry) (p : Bytes) (tm : Template) (n : Nat) (s : State), s.mayKct i ∧ s.kctFree i k ∧ (s.kct.pages[i]).handle = h ∧ s.holdsKey i h kek e ∧ e.cls = 1 ∧ e.may 5 = true ∧ e.limit = 0 ∧ kek ≠ k ∧ wrapLenOk ((s.kct.pages[i]).arg.toNat % 256) = true ∧ kwpOpen e.key ((s.kct.pages[i]).buf.take ((s.kct.pages[i]).arg.toNat % 256)) = some p ∧ keyTemplate p = some (tm, n) ∧ tm.vol = false ∧ p.length = 16 + n :=
  ⟨7, 0x10064, 100, 200, e1, (tb2 ++ List.replicate 16 9), {tm with alg := 1}, 16, s2, by unfold State.mayKct; decide +kernel, ⟨Nat.lt_of_le_of_lt (used_le rfl) (by decide +kernel), by decide +kernel, by decide +kernel, by decide +kernel⟩, by decide +kernel, by unfold State.holdsKey; decide +kernel, by decide +kernel⟩
def s3 : State := KP (fun p => {p with handle := 0x10064, arg := 32, buf := [0xEE] ++ zeros 127}) (SK [(100, e1)])
theorem witness_3 : ∃ (i : Fin 128) (h : Word) (kek : KIdx) (k : KIdx) (e : Entry) (s : State), s.mayKct i ∧ s.kctFree i k ∧ (s.kct.pages[i]).handle = h ∧ s.holdsKey i h kek e ∧ e.cls = 1 ∧ e.may 5 = true ∧ e.limit = 0 ∧ wrapLenOk ((s.kct.pages[i]).arg.toNat % 256) = true ∧ kwpOpen e.key ((s.kct.pages[i]).buf.take ((s.kct.pages[i]).arg.toNat % 256)) = none :=
  ⟨7, 0x10064, 100, 200, e1, s3, by unfold State.mayKct; decide +kernel, ⟨Nat.lt_of_le_of_lt (used_le rfl) (by decide +kernel), by decide +kernel, by decide +kernel, by decide +kernel⟩, by decide +kernel, by unfold State.holdsKey; decide +kernel, by decide +kernel⟩
def s4 : State := KP (fun p => {p with handle := 0x10064, arg := 0x10065}) (SK [(100, e1), (101, e1)])
theorem witness_4 : ∃ (i : Fin 128) (h : Word) (g : Word) (k : KIdx) (w : KIdx) (e : Entry) (f : Entry) (n : Nat) (s : State), s.mayKct i ∧ (s.kct.pages[i]).handle = h ∧ (s.kct.pages[i]).arg = g ∧ s.holdsKey i h k e ∧ s.holdsKey i g w f ∧ e.may 9 = true ∧ keyLen e.cls.toNat e.alg.toNat = some n ∧ f.cls = 1 ∧ f.may 4 = true ∧ e.limit = 0 ∧ f.limit = 0 :=
  ⟨7, 0x10064, 0x10065, 100, 101, e1, e1, 16, s4, by unfold State.mayKct; decide +kernel, by decide +kernel, by decide +kernel, by unfold State.holdsKey; decide +kernel, by unfold State.holdsKey; decide +kernel, by decide +kernel⟩
def s5 : State := KP (fun p => {p with handle := 0x10064, arg := 64, buf := tb ++ List.replicate 112 4}) (SK [(100, e1)])
theorem witness_5 : ∃ (i : Fin 128) (h : Word) (q : KIdx) (k : KIdx) (e : Entry) (tm : Template) (n : Nat) (s : State), s.mayKct i ∧ s.kctFree i k ∧ (s.kct.pages[i]).handle = h ∧ s.holdsKey i h q e ∧ (e.cls = 1 ∨ e.cls = 3) ∧ e.may 6 = true ∧ e.limit = 0 ∧ q ≠ k ∧ 1 ≤ (s.kct.pages[i]).arg.toNat % 128 ∧ (s.kct.pages[i]).arg.toNat % 128 ≤ 64 ∧ keyTemplate (s.kct.pages[i]).buf = some (tm, n) ∧ tm.vol = false :=
  ⟨7, 0x10064, 100, 200, e1, tm, 32, s5, by unfold State.mayKct; decide +kernel, ⟨Nat.lt_of_le_of_lt (used_le rfl) (by decide +kernel), by decide +kernel, by decide +kernel, by decide +kernel⟩, by decide +kernel, by unfold State.holdsKey; decide +kernel, by decide +kernel⟩
def s6 : State := KP (fun p => {p with handle := 0x10064, arg := 24, buf := padTo 128 ub6}) (SK [(100, e1)])
theorem witness_6 : ∃ (i : Fin 128) (h : Word) (kek : KIdx) (k : KIdx) (e : Entry) (key : Bytes) (alg : Nat) (s : State), s.mayKct i ∧ s.kctFree i k ∧ s.kctUsed i + 33 ≤ (s.tenants.slots[i]).run.kct ∧ s.kct.run33 = some k.val ∧ k.val + 33 ≤ 32256 ∧ (s.kct.pages[i]).handle = h ∧ s.holdsKey i h kek e ∧ e.cls = 1 ∧ e.may 5 = true ∧ e.limit = 0 ∧ kek.val < k.val ∧ (alg = 1 ∨ alg = 2 ∨ alg = 3) ∧ (s.kct.pages[i]).arg.toNat % 256 = 16 + 8 * alg ∧ key.length = 8 + 8 * alg ∧ kwpOpen e.key ((s.kct.pages[i]).buf.take (16 + 8 * alg)) = some key :=
  ⟨7, 0x10064, 100, 200, e1, (List.replicate 16 4), 1, s6, by unfold State.mayKct; decide +kernel, ⟨Nat.lt_of_le_of_lt (used_le rfl) (by decide +kernel), by decide +kernel, by decide +kernel, by decide +kernel⟩, Nat.le_trans (Nat.add_le_add_right (used_le rfl) 33) (by decide +kernel), by decide +kernel, by decide +kernel, by decide +kernel, by unfold State.holdsKey; decide +kernel, by decide +kernel⟩
def s7 : State := let s := KP (fun p => {p with handle := 0x10064, arg := 0x43, buf := List.replicate 128 4}) ((fun s => s.updSlot 7 fun k => {k with run := {k.run with kct := 400}}) (SK ((100, {dk with alg := 1}) :: (List.range 32).map (fun j => (Fin.ofNat 32768 (101 + j), ({gen := 1, owner := 7, cls := 8, alg := 1, secret := List.replicate 32 (BitVec.ofNat 8 (j+1))} : Entry)))))); {s with kct := {s.kct with lru := s.kct.lru.set 7 [100]}}
theorem witness_7 : ∃ (i : Fin 128) (h : Word) (d : KIdx) (k : KIdx) (e : Entry) (cls : Nat) (alg : Nat) (ctr : Nat) (next : Nat) (regs : List Bytes) (s : State), s.mayKct i ∧ s.kctFree i k ∧ s.kctVol i + 1 < s.lines i ∧ (s.kct.pages[i]).handle = h ∧ s.holdsKey i h d e ∧ e.cls = 7 ∧ e.limit = 0 ∧ d.val + 33 ≤ k.val ∧ dukptType ((s.kct.pages[i]).arg.toNat / 16 % 16) = some (cls, alg) ∧ regs = ((dukptRun d).drop 1).map (fun j => (s.entry j).key) ∧ dukptUsable regs 33 (fld e.secret 8 4) = some ctr ∧ dukptNext ctr = some next :=
  ⟨7, 0x10064, 100, 200, {dk with alg := 1}, 1, 3, 9, 10, (((dukptRun 100).drop 1).map (fun j => (s7.entry j).key)), s7, by unfold State.mayKct; decide +kernel, ⟨Nat.lt_of_le_of_lt (used_le rfl) (by decide +kernel), by decide +kernel, by decide +kernel, by decide +kernel⟩, Nat.lt_of_le_of_lt (Nat.add_le_add_right (vol_le rfl) 1) (by decide +kernel), by decide +kernel, by unfold State.holdsKey; decide +kernel, by decide +kernel⟩
end KeysAreMade

namespace KeysAreHeld
def e1 : Entry := {gen := 1, owner := 7, cls := 1, alg := 1, usage := 0x7FF, secret := List.replicate 32 5, wcnt := 6, kcv := 0x123456}
def e2 : Entry := {e1 with limit := 9, live := 5, rsv := 6}
def e3 : Entry := {e1 with limit := 9, live := 9, rsv := 9}
def s0 : State := KP (fun p => {p with handle := 0x10064}) (SK [(100, e1)])
theorem witness_0 : ∃ (i : Fin 128) (h : Word) (k : KIdx) (e : Entry) (s : State), s.mayKct i ∧ (s.kct.pages[i]).handle = h ∧ s.holdsKey i h k e ∧ e.limit = 0 :=
  ⟨7, 0x10064, 100, e1, s0, by unfold State.mayKct; decide +kernel, by decide +kernel, by unfold State.holdsKey; decide +kernel, by decide +kernel⟩
def s1 : State := KP (fun p => {p with handle := 0x10064}) (SK [(100, e2)])
theorem witness_1 : ∃ (i : Fin 128) (h : Word) (k : KIdx) (e : Entry) (s : State), s.mayKct i ∧ (s.kct.pages[i]).handle = h ∧ s.holdsKey i h k e ∧ e.limit ≠ 0 ∧ e.vol = false ∧ e.rsv.toNat ≤ e.live.toNat + 1 ∧ s.commits = true :=
  ⟨7, 0x10064, 100, e2, s1, by unfold State.mayKct; decide +kernel, by decide +kernel, by unfold State.holdsKey; decide +kernel, by decide +kernel⟩
def s2 : State := KP (fun p => {p with handle := 0x10064}) (SK [(100, e3)])
theorem witness_2 : ∃ (i : Fin 128) (h : Word) (k : KIdx) (e : Entry) (s : State), s.mayKct i ∧ (s.kct.pages[i]).handle = h ∧ s.handleOk (slotOwner i) h = true ∧ handleIndex h = k ∧ s.kct.entries[k] = e ∧ k.val ∈ s.kct.lru[i] ∧ e.lost = false ∧ s.expired e = false ∧ e.limit ≠ 0 ∧ e.limit.toNat ≤ e.live.toNat :=
  ⟨7, 0x10064, 100, e3, s2, by unfold State.mayKct; decide +kernel, by decide +kernel⟩
def s3 : State := KP (fun p => {p with handle := 0x10064, buf := [1,1,3,0,5,0,0,0] ++ leN 4 0xFFFFFFF ++ zeros 116}) (SK [(100, e1)])
theorem witness_3 : ∃ (i : Fin 128) (h : Word) (k : KIdx) (e : Entry) (tm : Template) (s : State), s.mayKct i ∧ (s.kct.pages[i]).handle = h ∧ s.holdsKey i h k e ∧ e.limit = 0 ∧ e.vol = false ∧ s.commits = true ∧ readTemplate (s.kct.pages[i]).buf = some tm ∧ tm.cls = e.cls.toNat ∧ tm.alg = e.alg.toNat ∧ tm.vol = false ∧ tm.limit = 0 :=
  ⟨7, 0x10064, 100, e1, {cls := 1, alg := 1, mincm := 3, usage := 5, expiry := 0xFFFFFFF}, s3, by unfold State.mayKct; decide +kernel, by decide +kernel, by unfold State.holdsKey; decide +kernel, by decide +kernel⟩
def s4 : State := KP (fun p => {p with handle := 0x10064}) (SK [(100, e1)])
theorem witness_4 : ∃ (i : Fin 128) (h : Word) (k : KIdx) (e : Entry) (s : State), s.mayKct i ∧ (s.kct.pages[i]).handle = h ∧ s.holdsKey i h k e ∧ e.limit = 0 ∧ e.cls ≠ 5 ∧ e.cls ≠ 7 ∧ s.commits = true :=
  ⟨7, 0x10064, 100, e1, s4, by unfold State.mayKct; decide +kernel, by decide +kernel, by unfold State.holdsKey; decide +kernel, by decide +kernel⟩
def s5 : State := let s := KP (fun p => {p with handle := 0x10064}) (SK [(100, e1)]); {s with guard := {s.guard with tampered := true}}
theorem witness_5 : ∃ (i : Fin 128) (c : Instr) (s : State), c ∈ [.generate i, .unwrap i, .wrap i, .derive i, .delete i, .restrict i, .info i, .ctrCreate i, .ctrIncr i, .ctrRead i, .dukptLoad i, .dukptNext i] ∧ s.calls i = true ∧ (s.kct.pages[i]).busy = false ∧ (s.guard.tampered = true ∨ s.guard.bbk ≠ .valid) :=
  ⟨7, (.derive 7), s5, by decide +kernel⟩
def s6 : State := KP (fun p => {p with handle := 0x10064, busy := true}) (SK [(100, e1)])
theorem witness_6 : ∃ (i : Fin 128) (c : Instr) (s : State), c ∈ [.generate i, .unwrap i, .wrap i, .derive i, .delete i, .restrict i, .info i, .ctrCreate i, .ctrIncr i, .ctrRead i, .dukptLoad i, .dukptNext i] ∧ s.calls i = true ∧ (s.kct.pages[i]).busy = true :=
  ⟨7, (.derive 7), s6, by decide +kernel⟩
def s7 : State := KP (fun p => {p with handle := 0x20064}) (SK [(100, e1)])
theorem witness_7 : ∃ (i : Fin 128) (c : Instr) (s : State), c ∈ [.delete i, .restrict i, .info i, .ctrRead i, .dukptNext i] ∧ s.mayKct i ∧ s.handleOk (slotOwner i) (s.kct.pages[i]).handle = false :=
  ⟨7, (.info 7), s7, by decide +kernel, by unfold State.mayKct; decide +kernel, by decide +kernel⟩
def s8 : State := KP (fun p => {p with handle := 0x20064, cur := some {op := 1, handle := 5, arg := 3, buf := [], waiting := true}}) (SK [(100, e1)])
theorem witness_8 : ∃ (i : Fin 128) (o : KctOp) (s : State), s.live = true ∧ (s.kct.pages[i]).cur = some o ∧ o.waiting = true :=
  ⟨7, {op := 1, handle := 5, arg := 3, buf := [], waiting := true}, s8, by decide +kernel⟩
end KeysAreHeld

namespace CipherPagesRun
def e1 : Entry := {gen := 1, owner := 7, cls := 1, alg := 1, usage := 0x7FF, secret := List.replicate 32 5, wcnt := 6, kcv := 0x123456}
def CP (f : CipherPage → CipherPage) (s : State) : State := s.updCp 7 1 f
def SM (s : State) : State := s.updSlot 7 fun k => {k with sram := Memory.ofBytes 0 (List.replicate 300 5)}
def h : Word := 0x10064
def x2 : CipherPage := {mode := 0xE1, key := h, loaded := some (h, e1), src := 0x10000000, dst := 0x10000100, len := 256, level := 0}
def j6 : CipherJob := {mode := 0xC1, src := 0x10000000, dst := 0x10000100, len := 512, aad := 0, aadlen := 0, input := List.replicate 512 5, passes := 1, segs := 2, out := 256}
def m9 : MsgCtx := {mode := 0x0C00E4, iv := zeros 16}
def j9 : CipherJob := {mode := 0x0C00E4, src := 0x10000000, dst := 0x10000100, len := 16, aad := 0, aadlen := 0, input := List.replicate 16 5, passes := 1, segs := 0, out := 0}
def x9 : CipherPage := {key := h, loaded := some (h, e1), busy := true, job := some j9, msg := some m9, tag := List.replicate 16 1}
def m10 : MsgCtx := {mode := 0x0C00C4, iv := zeros 16}
def j10 : CipherJob := {j9 with mode := 0x0C00C4, out := 16, passes := 0}
def x10 : CipherPage := {x9 with job := some j10, msg := some m10}
def s0 : State := CP (fun p => {p with key := h}) (SK [(100, e1)])
theorem witness_0 : ∃ (i : Fin 128) (p : Fin 32) (h : Word) (k : KIdx) (e : Entry) (s : State), s.mayCipher i p ∧ ((s.cipher.pages[i])[p]).key = h ∧ handleIndex h = k ∧ s.kct.entries[k] = e ∧ s.handleOk (slotOwner i) h = true ∧ k.val ∈ s.kct.lru[i] ∧ e.lost = false ∧ loadable e = true ∧ s.guard.tampered = false ∧ s.guard.bbk = .valid ∧ (((s.cipher.pages[i])[p]).inUse = true ∨ s.pagesUsed i < (s.tenants.slots[i]).run.cipher) :=
  ⟨7, 1, h, 100, e1, s0, by unfold State.mayCipher; decide +kernel, by decide +kernel⟩
def s1 : State := CP (fun p => {p with key := 0x20064}) (SK [(100, e1)])
theorem witness_1 : ∃ (i : Fin 128) (p : Fin 32) (st : BitVec 16) (s : State), s.mayCipher i p ∧ st = 0x0402 ∧ s.handleOk (slotOwner i) ((s.cipher.pages[i])[p]).key = false :=
  ⟨7, 1, 0x402, s1, by unfold State.mayCipher; decide +kernel, by decide +kernel⟩
def s2 : State := SM (CP (fun _ => x2) (SK [(100, e1)]))
theorem witness_2 : ∃ (i : Fin 128) (p : Fin 32) (x : CipherPage) (h : Word) (k : KIdx) (e : Entry) (m : Nat) (s : State), s.mayCipher i p ∧ (s.cipher.pages[i])[p] = x ∧ x.loaded = some (h, e) ∧ s.holdsKey i h k e ∧ e.limit = 0 ∧ ((modeOf x.mode = 0 ∨ modeOf x.mode = 1 ∨ modeOf x.mode = 2)) ∧ modeOf x.mode = m ∧ modeFirst x.mode = true ∧ modeLast x.mode = true ∧ e.may (modeUsage x.mode) = true ∧ modeKey m e = true ∧ modeFits x.mode (e.cls == 1) = true ∧ x.lengthsFit m e.block = true ∧ 0 < x.len.toNat ∧ x.len.toNat ≤ 256 ∧ s.useCheck e (s.cmLevel x) = none ∧ s.badByte i x.src.toNat x.len.toNat false = none ∧ s.badByte i x.dst.toNat x.len.toNat true = none ∧ ((∀ (j : Fin 128) (q : Fin 32), ((s.cipher.pages[j])[q]).busy = false)) ∧ s.cipher.aes = Vector.replicate 8 none ∧ s.cipher.tdea = Vector.replicate 2 none :=
  ⟨7, 1, x2, h, 100, e1, 1, s2, by unfold State.mayCipher; decide +kernel, by decide +kernel, by decide +kernel, by unfold State.holdsKey; decide +kernel, by decide +kernel⟩
def s3 : State := CP (fun p => {p with key := h}) (SK [(100, e1)])
theorem witness_3 : ∃ (i : Fin 128) (p : Fin 32) (s : State), s.mayCipher i p ∧ ((s.cipher.pages[i])[p]).loaded = none :=
  ⟨7, 1, s3, by unfold State.mayCipher; decide +kernel, by decide +kernel⟩
def s4 : State := CP (fun p => {p with key := h, busy := true}) (SK [(100, e1)])
theorem witness_4 : ∃ (i : Fin 128) (p : Fin 32) (c : Instr) (s : State), c ∈ [.loadKey i p, .cipherRun i p, .cipherClear i p] ∧ s.calls i = true ∧ p.val < (s.tenants.slots[i]).run.cipher ∧ ((s.cipher.pages[i])[p]).busy = true :=
  ⟨7, 1, (.cipherRun 7 1), s4, by decide +kernel⟩
def s5 : State := CP (fun p => {p with key := h, loaded := some (h, e1), msg := some {mode := 1, iv := []}}) (SK [(100, e1)])
theorem witness_5 : ∃ (i : Fin 128) (p : Fin 32) (s : State), s.mayCipher i p :=
  ⟨7, 1, s5, by unfold State.mayCipher; decide +kernel⟩
def s6 : State := SM (CP (fun p => {p with key := h, loaded := some (h, e1), busy := true, job := some j6, msg := some {mode := 0xC1, iv := zeros 16}}) (SK [(100, e1)]))
theorem witness_6 : ∃ (i : Fin 128) (p : Fin 32) (j : CipherJob) (s : State), s.calls i = true ∧ p.val < (s.tenants.slots[i]).run.cipher ∧ ((s.cipher.pages[i])[p]).busy = true ∧ ((s.cipher.pages[i])[p]).job = some j ∧ 0x10000000 ≤ j.dst.toNat ∧ j.dst.toNat + j.len < 0x20000000 :=
  ⟨7, 1, j6, s6, by decide +kernel⟩
def s7 : State := CP (fun p => {p with key := h}) (SK [(100, e1)])
theorem witness_7 : ∃ (i : Fin 128) (p : Fin 32) (s : State), s.calls i = true ∧ p.val < (s.tenants.slots[i]).run.cipher ∧ ((s.cipher.pages[i])[p]).busy = false :=
  ⟨7, 1, s7, by decide +kernel⟩
def s8 : State := let s := SM (CP (fun p => {p with key := h, loaded := some (h, e1), busy := true, job := some {j6 with segs := 2, len := 512, out := 0}, msg := some {mode := 0xC1, iv := zeros 16}}) (SK [(100, e1)])); {s with cipher := {s.cipher with aes := s.cipher.aes.set 0 (some ⟨7, 1⟩)}}
theorem witness_8 : ∃ (kd : CoreKind) (i : Fin 128) (p : Fin 32) (j : CipherJob) (n : Nat) (s : State), s.live = true ∧ s.cipher.core kd 0 = some ⟨i, p⟩ ∧ ((s.cipher.pages[i])[p]).job = some j ∧ j.segs = n + 2 ∧ j.passes = 1 :=
  ⟨.aes, 7, 1, {j6 with segs := 2, len := 512, out := 0}, 0, s8, by decide +kernel⟩
def s9 : State := SM (CP (fun _ => x9) (SK [(100, e1)]))
theorem witness_9 : ∃ (i : Fin 128) (p : Fin 32) (x : CipherPage) (h : Word) (e : Entry) (m : MsgCtx) (j : CipherJob) (s : State), s.live = true ∧ (s.cipher.pages[i])[p] = x ∧ x.busy = true ∧ x.loaded = some (h, e) ∧ x.msg = some m ∧ x.job = some j ∧ j.segs = 0 ∧ j.out = 0 ∧ modeLast j.mode = true ∧ modeDir m.mode = true ∧ modeTag m.mode ≠ 0 ∧ (j.passes ≠ 0 ∨ modeTagOut m.mode e m.iv m.aad (m.data ++ j.input) ≠ x.tag.take (modeTag m.mode)) :=
  ⟨7, 1, x9, h, e1, m9, j9, s9, by decide +kernel⟩
def s10 : State := SM (CP (fun _ => x10) (SK [(100, e1)]))
theorem witness_10 : ∃ (i : Fin 128) (p : Fin 32) (x : CipherPage) (h : Word) (e : Entry) (m : MsgCtx) (j : CipherJob) (s : State), s.live = true ∧ (s.cipher.pages[i])[p] = x ∧ x.busy = true ∧ x.loaded = some (h, e) ∧ x.msg = some m ∧ x.job = some j ∧ j.segs = 0 ∧ modeLast j.mode = true ∧ modeDir m.mode = false ∧ modeTag m.mode ≠ 0 :=
  ⟨7, 1, x10, h, e1, m10, j10, s10, by decide +kernel⟩
end CipherPagesRun

namespace GeneratorsAndTestSource
def M (f : Mint → Mint) : State := {run with mint := f run.mint}
def FT (s : State) : State := {s with lc := {s.lc with state := .factoryTest}}
def s0 : State := M (fun m => {m with insts := m.insts.set 145 {inst := true, uses := 65523, since := 17920000}})
theorem witness_0 : ∃ (s : State), s.live = true ∧ s.mint.state = .ready ∧ (s.mint.insts[(145 : Fin 160)]).inst = true ∧ (s.mint.insts[(145 : Fin 160)]).reseedReq = false ∧ (s.mint.insts[(145 : Fin 160)]).uses + 13 ≤ s.param 0x0600 ∧ s.drbgAge s.mint.insts[(145 : Fin 160)] < s.param 0x0601 ∧ s.mint.waitq = [] :=
  ⟨s0, by decide +kernel⟩
def s1 : State := M (fun m => {m with state := .startup})
theorem witness_1 : ∃ (s : State), s.mint.state ≠ .ready :=
  ⟨s1, by decide +kernel⟩
def s2 : State := FT run
theorem witness_2 : ∃ (v : Word) (s : State), s.live = true ∧ s.lc.state = .factoryTest ∧ s.mint.testSrc.getLsbD 0 = false ∧ s.mint.state ≠ .failed :=
  ⟨3, s2, by decide +kernel⟩
def s3 : State := FT (M fun m => {m with testSrc := 3, state := .testSrc})
theorem witness_3 : ∃ (v : Word) (s : State), s.live = true ∧ s.lc.state = .factoryTest ∧ s.mint.testSrc.getLsbD 0 = true ∧ s.mint.state ≠ .failed :=
  ⟨0, s3, by decide +kernel⟩
def s4 : State := run
theorem witness_4 : ∃ (v : Word) (c : Instr) (s : State), (c = .testSrcEnable v ∨ c = .testSrcDisable v) ∧ s.live = true ∧ s.lc.state ≠ .factoryTest ∧ s.commits = true :=
  ⟨3, ((.testSrcEnable 3)), s4, by decide +kernel⟩
def s5 : State := FT run
theorem witness_5 : ∃ (raw : BitVec 64) (s : State), s.live = true ∧ s.lc.state = .factoryTest :=
  ⟨0x123456789ABCDEF, s5, by decide +kernel⟩
def s6 : State := run
theorem witness_6 : ∃ (raw : BitVec 64) (s : State), s.lc.state ≠ .factoryTest :=
  ⟨0x123456789ABCDEF, s6, by decide +kernel⟩
end GeneratorsAndTestSource

namespace PublicKeyJobs
def e1 : Entry := {gen := 1, owner := 7, cls := 1, alg := 1, usage := 0x7FF, secret := List.replicate 32 5, wcnt := 6, kcv := 0x123456}
def PK (f : JobPage → JobPage) (s : State) : State := s.updPk 7 f
def SM (s : State) : State := s.updSlot 7 fun k => {k with sram := Memory.ofBytes 0 (List.replicate 300 5)}
def h : Word := 0x10064
def SS : State := SM (SK [(100, e1)])
def ed : Entry := {gen := 1, owner := 7, cls := 4, alg := 3, usage := 0x7FF, secret := List.replicate 32 5}
def ec : Entry := {gen := 1, owner := 7, cls := 4, alg := 1, usage := 0x7FF, secret := List.replicate 32 5}
def I (n : Fin 160) (s : State) : State := {s with mint := {s.mint with insts := s.mint.insts.set n {inst := true}}}
def xt : Bytes := [5,2,0,0,0xFF,7,0,0] ++ zeros 8
def R (s : State) : State := {s with pke := {s.pke with running := some 7}}
def j6 : PkeJob := {op := 4, cls := 2, key := h, entry := some ed, secret := ed.key, arg := 0, input := List.replicate 100 5, dst := 0x10000100, dstlen := 64}
def j7 : PkeJob := {op := 5, cls := 2, key := h, arg := 0, input := List.replicate 31 5 ++ [0xEE] ++ List.replicate 100 0xEE, dst := 0x10000100, dstlen := 64}
def j8 : PkeJob := {op := 3, cls := 2, key := h, entry := some ec, secret := ec.key, arg := 0, input := [1,3,0,0,0xFF,7,0,0] ++ zeros 8 ++ [4] ++ [1,2,3,4] ++ pubKey 77, dst := 0x10000100, dstlen := 64}
def r8 (j : PkeJob) (s : State) : Template × Bytes × BitVec 24 × Bytes := match j.result (s.random 32) with | .key a b c _ d => (a,b,c,d) | _ => ({cls := 0, alg := 0}, [], 0, [])
def j9 : PkeJob := {op := 8, cls := 2, key := h, arg := 0, input := xt, dst := 0x10000100, dstlen := 200, draw := List.replicate 64 3}
def b9 : Bytes := extKeyFrom 2 (8 * argSize 0) (List.replicate 64 3)
def s0 : State := PK (fun p => {p with arg := 1, src := 0x10000000, srclen := 160}) SS
theorem witness_0 : ∃ (i : Fin 128) (cls : BitVec 2) (op : Nat) (s : State), (op = 2 ∨ op = 5 ∨ op = 6) ∧ s.mayPke i ∧ cls ≠ 0 ∧ s.pkeOperands i op {} [] :=
  ⟨7, 3, 2, s0, by decide +kernel, by unfold State.mayPke; decide +kernel, by decide +kernel, (⟨0, by decide +kernel⟩)⟩
def s1 : State := PK (fun p => {p with key := h, src := 0x10000000, srclen := 100, dst := 0x10000100, dstlen := 64}) (SM (SK [(100, ed)]))
theorem witness_1 : ∃ (i : Fin 128) (cls : BitVec 2) (op : Nat) (k : KIdx) (e : Entry) (b : Bytes) (s : State), (op = 3 ∨ op = 4 ∨ (op = 7 ∧ argPad (s.pke.pages[i]).arg ≠ 2) ∨ op = 9 ∨ op = 10) ∧ s.mayPke i ∧ cls ≠ 0 ∧ s.guard.tampered = false ∧ s.guard.bbk = .valid ∧ s.holdsKey i (s.pke.pages[i]).key k e ∧ pkeAccepts op (s.pke.pages[i]).arg e = true ∧ e.limit = 0 ∧ s.privateKey i k = some b ∧ s.pkeOperands i op e b ∧ ((op = 3 ∨ op = 9 → s.kctUsed i < (s.tenants.slots[i]).run.kct ∧ s.kct.fresh < 32256)) :=
  ⟨7, 2, 4, 100, ed, ed.key, s1, by decide +kernel, by unfold State.mayPke; decide +kernel, by decide +kernel, by decide +kernel, by decide +kernel, by unfold State.holdsKey; decide +kernel, by decide +kernel, by decide +kernel, by decide +kernel, (⟨64, by decide +kernel⟩), (fun h => absurd h (by decide))⟩
def s2 : State := I 7 (PK (fun p => {p with key := h, src := 0x10000000, srclen := 32, dst := 0x10000100, dstlen := 64}) (SM (SK [(100, ec)])))
theorem witness_2 : ∃ (i : Fin 128) (cls : BitVec 2) (op : Nat) (k : KIdx) (e : Entry) (b : Bytes) (s : State), (op = 1 ∨ (op = 7 ∧ argPad (s.pke.pages[i]).arg = 2)) ∧ s.mayPke i ∧ cls ≠ 0 ∧ s.guard.tampered = false ∧ s.guard.bbk = .valid ∧ s.holdsKey i (s.pke.pages[i]).key k e ∧ pkeAccepts op (s.pke.pages[i]).arg e = true ∧ e.limit = 0 ∧ s.privateKey i k = some b ∧ s.pkeOperands i op e b ∧ (s.mint.insts[fixedInst i]).inst = true ∧ (s.mint.insts[fixedInst i]).reseedReq = false ∧ s.reseedDue s.mint.insts[fixedInst i] = false ∧ s.mint.waitq = [] :=
  ⟨7, 2, 1, 100, ec, ec.key, s2, by decide +kernel, by unfold State.mayPke; decide +kernel, by decide +kernel, by decide +kernel, by decide +kernel, by unfold State.holdsKey; decide +kernel, by decide +kernel, by decide +kernel, by decide +kernel, (⟨64, by decide +kernel⟩), by decide +kernel⟩
def s3 : State := I 7 (PK (fun p => {p with key := h, arg := 0, src := 0x10000000, srclen := 16, dst := 0x10000100, dstlen := 200}) ((SK [(100, ec)]).updSlot 7 fun k => {k with sram := Memory.ofBytes 0 (xt)}))
theorem witness_3 : ∃ (i : Fin 128) (cls : BitVec 2) (s : State), s.mayPke i ∧ cls ≠ 0 ∧ s.pkeOperands i 8 {} [] ∧ s.kctUsed i < (s.tenants.slots[i]).run.kct ∧ s.kct.fresh < 32256 ∧ (s.mint.insts[fixedInst i]).inst = true ∧ (s.mint.insts[fixedInst i]).reseedReq = false ∧ s.reseedDue s.mint.insts[fixedInst i] = false ∧ s.mint.waitq = [] :=
  ⟨7, 2, s3, by unfold State.mayPke; decide +kernel, by decide +kernel, (⟨104, by decide +kernel⟩), (Nat.lt_of_le_of_lt (used_le rfl) (by decide +kernel)), by decide +kernel⟩
def s4 : State := let s := SS; {s with guard := {s.guard with tampered := true}}
theorem witness_4 : ∃ (i : Fin 128) (cls : BitVec 2) (op : Nat) (s : State), (op = 1 ∨ op = 3 ∨ op = 4 ∨ op = 7 ∨ op = 9 ∨ op = 10) ∧ s.mayPke i ∧ (s.guard.tampered = true ∨ s.guard.bbk ≠ .valid) :=
  ⟨7, 2, 10, s4, by decide +kernel, by unfold State.mayPke; decide +kernel, by decide +kernel⟩
def s5 : State := PK (fun p => {p with busy := true}) SS
theorem witness_5 : ∃ (i : Fin 128) (cls : BitVec 2) (op : Nat) (s : State), 1 ≤ op ∧ op ≤ 10 ∧ s.calls i = true ∧ (s.pke.pages[i]).busy = true :=
  ⟨7, 2, 10, s5, by decide +kernel⟩
def s6 : State := R (PK (fun p => {p with busy := true, job := some j6}) (SM (SK [(100, ed)])))
theorem witness_6 : ∃ (i : Fin 128) (j : PkeJob) (b : Bytes) (s : State), s.live = true ∧ s.pke.running = some i ∧ (s.pke.pages[i]).job = some j ∧ ((∀ q : Fin 128, q ≠ i → (s.pke.pages[q]).job = none)) ∧ (s.kct.lru[i]).length ≤ s.lines i ∧ j.result (s.random 32) = .bytes b :=
  ⟨7, j6, ((match j6.result (s6.random 32) with | .bytes b => b | _ => [])), s6, by decide +kernel⟩
def s7 : State := R (PK (fun p => {p with busy := true, job := some j7}) (SM (SK [(100, ed)])))
theorem witness_7 : ∃ (i : Fin 128) (j : PkeJob) (st : BitVec 16) (s : State), s.live = true ∧ s.pke.running = some i ∧ (s.pke.pages[i]).job = some j ∧ ((∀ q : Fin 128, q ≠ i → (s.pke.pages[q]).job = none)) ∧ (s.kct.lru[i]).length ≤ s.lines i ∧ j.result (s.random 32) = .status st :=
  ⟨7, j7, ((match j7.result (s7.random 32) with | .status b => b | _ => 1)), s7, by decide +kernel⟩
def s8 : State := R (PK (fun p => {p with busy := true, job := some j8}) (SM (SK [(100, ec)])))
theorem witness_8 : ∃ (i : Fin 128) (j : PkeJob) (k : KIdx) (tm : Template) (secret : Bytes) (kcv : BitVec 24) (after : Bytes) (s : State), s.live = true ∧ s.pke.running = some i ∧ (s.pke.pages[i]).job = some j ∧ ((∀ q : Fin 128, q ≠ i → (s.pke.pages[q]).job = none)) ∧ s.kctFree i k ∧ tm.vol = false ∧ j.op = 3 ∧ j.result (s.random 32) = .key tm secret kcv none after :=
  ⟨7, j8, 200, ((r8 j8 s8).1), ((r8 j8 s8).2.1), ((r8 j8 s8).2.2.1), ((r8 j8 s8).2.2.2), s8, by decide +kernel, by decide +kernel, by decide +kernel, by decide +kernel, ⟨Nat.lt_of_le_of_lt (used_le rfl) (by decide +kernel), by decide +kernel, by decide +kernel, by decide +kernel⟩, by decide +kernel⟩
def s9 : State := R (PK (fun p => {p with busy := true, job := some j9}) (SM (SK [(100, ec)])))
theorem witness_9 : ∃ (i : Fin 128) (j : PkeJob) (k : KIdx) (tm : Template) (secret : Bytes) (b : Bytes) (kcv : BitVec 24) (after : Bytes) (w : State) (q : BitVec 48) (s : State), s.live = true ∧ s.pke.running = some i ∧ (s.pke.pages[i]).job = some j ∧ ((∀ q : Fin 128, q ≠ i → (s.pke.pages[q]).job = none)) ∧ s.kctFree i k ∧ tm.vol = false ∧ (j.op = 8 ∨ j.op = 9) ∧ j.result (s.random 32) = .key tm secret kcv (some b) after ∧ s.writeRec i (blobId i k) false b true = (w, 0, q) :=
  ⟨7, j9, 200, {cls := 5, alg := 2, usage := 0x7FF}, (List.replicate 32 3), b9, (kcvOf 5 2 b9), (publicKey 5 2 b9), ((s9.writeRec 7 (blobId 7 200) false b9 true).1), ((s9.writeRec 7 (blobId 7 200) false b9 true).2.2), s9, by decide +kernel, by decide +kernel, by decide +kernel, by decide +kernel, ⟨Nat.lt_of_le_of_lt (used_le rfl) (by decide +kernel), by decide +kernel, by decide +kernel, by decide +kernel⟩, by decide +kernel, by decide +kernel, (rfl), (Prod.ext rfl (Prod.ext (by decide +kernel) rfl))⟩
def s10 : State := R (PK (fun p => {p with busy := true, job := some {j6 with op := 1}}) (SM (SK [(100, ed)])))
theorem witness_10 : ∃ (i : Fin 128) (j : PkeJob) (s : State), s.live = true ∧ s.pke.running = some i ∧ (s.pke.pages[i]).job = some j ∧ pkeChecked j.op.toNat = true ∧ ((∀ q : Fin 128, q ≠ i → (s.pke.pages[q]).job = none)) ∧ (s.kct.lru[i]).length ≤ s.lines i :=
  ⟨7, {j6 with op := 1}, s10, by decide +kernel⟩
def s11 : State := let s := (PK (fun p => {p with busy := true, job := some {j6 with cls := 0}}) (SM (SK [(100, ed)]))); s.updPk 8 (fun p => {p with busy := true, job := some {j6 with cls := 1}})
theorem witness_11 : ∃ (i : Fin 128) (j : PkeJob) (s : State), s.live = true ∧ (s.pke.pages[i]).job = some j ∧ j.waiting = false ∧ j.ending = none ∧ ((∀ q : Fin 128, q ≠ i → ∀ x, (s.pke.pages[q]).job = some x → x.waiting = false ∧ j.cls < x.cls ∧ x.ending = none)) :=
  ⟨7, {j6 with cls := 0}, s11, by decide +kernel, by decide +kernel, by decide +kernel, by decide +kernel, (fun q hq x hx => by
    have h : ∀ q : Fin 128, q ≠ 7 → ((s11.pke.pages[q]).job.all fun x => decide (x.waiting = false ∧ (0 : BitVec 2) < x.cls ∧ x.ending = none)) = true := by decide +kernel
    have h2 := h q hq
    rw [hx] at h2
    exact of_decide_eq_true h2)⟩
def s12 : State := R (PK (fun p => {p with busy := true, job := some j6}) (SM (SK [(100, ed)])))
theorem witness_12 : ∃ (i : Fin 128) (j : PkeJob) (s : State), s.calls i = true ∧ (s.pke.pages[i]).busy = true ∧ (s.pke.pages[i]).job = some j ∧ s.pke.running ≠ none :=
  ⟨7, j6, s12, by decide +kernel⟩
def s13 : State := PK (fun p => {p with busy := true, job := some j6}) (SM (SK [(100, ed)]))
theorem witness_13 : ∃ (i : Fin 128) (s : State), s.calls i = true ∧ (s.pke.pages[i]).busy = true ∧ s.pke.running = none :=
  ⟨7, s13, by decide +kernel⟩
def s14 : State := SS
theorem witness_14 : ∃ (i : Fin 128) (s : State), s.calls i = true ∧ (s.pke.pages[i]).busy = false :=
  ⟨7, s14, by decide +kernel⟩
end PublicKeyJobs

namespace RsaPublicIsAPower
def s0 : State := run
theorem witness_0 : ∃ (j : PkeJob) (n : Nat) (e : Nat) (x : Nat) (r : Bytes), j.op = 6 ∧ argPad j.arg = 0 ∧ 8 ≤ argSize j.arg ∧ argSize j.arg ≤ 64 ∧ n < 256 ^ (8 * argSize j.arg) ∧ 256 ^ (8 * argSize j.arg - 1) ≤ n ∧ n % 2 = 1 ∧ e < 4294967296 ∧ e % 2 = 1 ∧ 3 ≤ e ∧ x < n ∧ j.input = beN (8 * argSize j.arg) n ++ beN 4 e ++ beN (8 * argSize j.arg) x :=
  ⟨{op := 6, cls := 0, key := 0, arg := 8, input := beN 64 (256^64 - 3) ++ beN 4 3 ++ beN 64 (256^64 - 9), dst := 0, dstlen := 0}, (256^64 - 3), 3, (256^64 - 9), [], by decide +kernel⟩
def s1 : State := run
theorem witness_1 : ∃ (j : PkeJob) (n : Nat) (e : Nat) (x : Nat) (d : Bytes) (r : Bytes), j.op = 6 ∧ n < 256 ^ (8 * argSize j.arg) ∧ e < 4294967296 ∧ x < 256 ^ (8 * argSize j.arg) ∧ (n % 2 = 0 ∨ n < 256 ^ (8 * argSize j.arg - 1) ∨ e % 2 = 0 ∨ e < 3 ∨ n ≤ x) ∧ 8 ≤ argSize j.arg ∧ j.input = beN (8 * argSize j.arg) n ++ beN 4 e ++ beN (8 * argSize j.arg) x ++ d :=
  ⟨{op := 6, cls := 0, key := 0, arg := 8, input := beN 64 (256^64 - 3) ++ beN 4 3 ++ beN 64 (256^64 - 3) ++ [7], dst := 0, dstlen := 0}, (256^64 - 3), 3, (256^64 - 3), [7], [], by decide +kernel⟩
end RsaPublicIsAPower

namespace HashesCover
def e1 : Entry := {gen := 1, owner := 7, cls := 1, alg := 1, usage := 0x7FF, secret := List.replicate 32 5, wcnt := 6, kcv := 0x123456}
def PK (f : JobPage → JobPage) (s : State) : State := s.updPk 7 f
def SM (s : State) : State := s.updSlot 7 fun k => {k with sram := Memory.ofBytes 0 (List.replicate 300 5)}
def h : Word := 0x10064
def ek : Entry := {gen := 1, owner := 7, cls := 3, alg := 2, usage := 0x7FF, secret := List.replicate 32 5}
def SS : State := SM (SK [(100, ek)])
def c3 : HashCtx := {alg := 3, data := [1,2]}
def c5 : HashCtx := {alg := 3, key := some [1], verify := true, data := [1,2]}
def hj (n : Nat) : HashJob := {final := false, tlen := 0, input := [4,5,6], segs := n}
def H2 : State := let s := PK (fun p => {p with ctx := some c3, hsrc := 0x10000000, hlen := 300}) SS; let s := s.updPk 9 fun p => {p with hbusy := true, hjob := some (hj 5), ctx := some c3}; {s with pke := {s.pke with hashOwner := some 9, hashLast := some 9}}
def H3 : State := let s := H2.updPk 7 fun p => {p with hbusy := true, hjob := some (hj 2)}; s
def s0 : State := SS
theorem witness_0 : ∃ (i : Fin 128) (a : BitVec 4) (s : State), s.calls i = true ∧ (s.pke.pages[i]).hbusy = false ∧ 1 ≤ a.toNat ∧ a.toNat ≤ 4 :=
  ⟨7, 4, s0, by decide +kernel⟩
def s1 : State := SS
theorem witness_1 : ∃ (i : Fin 128) (a : BitVec 4) (s : State), s.calls i = true ∧ (s.pke.pages[i]).hbusy = false ∧ (a = 0 ∨ 4 < a.toNat) :=
  ⟨7, 5, s1, by decide +kernel⟩
def s2 : State := PK (fun p => {p with hkey := h}) SS
theorem witness_2 : ∃ (i : Fin 128) (v : Bool) (k : KIdx) (e : Entry) (s : State), s.calls i = true ∧ (s.pke.pages[i]).hbusy = false ∧ s.guard.tampered = false ∧ s.guard.bbk = .valid ∧ (s.kct.lru[i]).length ≤ s.lines i ∧ s.holdsKey i (s.pke.pages[i]).hkey k e ∧ e.cls = 3 ∧ e.may (if v then 3 else 2) = true ∧ e.limit = 0 ∧ s.useCheck e 1 = none :=
  ⟨7, true, 100, ek, s2, by decide +kernel, by decide +kernel, by decide +kernel, by decide +kernel, by decide +kernel, by unfold State.holdsKey; decide +kernel, by decide +kernel⟩
def s3 : State := PK (fun p => {p with ctx := some c3, hsrc := 0x10000000, hlen := 300}) SS
theorem witness_3 : ∃ (i : Fin 128) (c : HashCtx) (s : State), s.calls i = true ∧ (s.pke.pages[i]).hbusy = false ∧ (s.pke.pages[i]).ctx = some c ∧ (s.pke.pages[i]).hlen ≠ 0 ∧ ((∀ q : Fin 128, (s.pke.pages[q]).hjob = none)) ∧ (s.pke.pages[i]).hlen.toNat ≤ 2097152 ∧ s.badByte i (s.pke.pages[i]).hsrc.toNat (s.pke.pages[i]).hlen.toNat false = none :=
  ⟨7, c3, s3, by decide +kernel⟩
def s4 : State := PK (fun p => {p with ctx := some c3, hsrc := 0x10000000, hlen := 300}) SS
theorem witness_4 : ∃ (i : Fin 128) (c : HashCtx) (s : State), s.calls i = true ∧ (s.pke.pages[i]).hbusy = false ∧ (s.pke.pages[i]).ctx = some c ∧ c.verify = false ∧ ((∀ q : Fin 128, (s.pke.pages[q]).hjob = none)) ∧ (s.pke.pages[i]).hlen.toNat ≤ 2097152 ∧ s.badByte i (s.pke.pages[i]).hsrc.toNat (s.pke.pages[i]).hlen.toNat false = none :=
  ⟨7, c3, s4, by decide +kernel⟩
def s5 : State := PK (fun p => {p with ctx := some c5}) SS
theorem witness_5 : ∃ (i : Fin 128) (c : HashCtx) (n : BitVec 7) (s : State), s.calls i = true ∧ (s.pke.pages[i]).hbusy = false ∧ (s.pke.pages[i]).ctx = some c ∧ c.verify = true ∧ ((∀ q : Fin 128, (s.pke.pages[q]).hjob = none)) ∧ 16 ≤ n.toNat ∧ n.toNat ≤ digestLen c.alg ∧ (s.pke.pages[i]).hlen = 0 :=
  ⟨7, c5, 64, s5, by decide +kernel⟩
def s6 : State := SS
theorem witness_6 : ∃ (i : Fin 128) (c : Instr) (s : State), c ∈ [.hashUpdate i, .hashFinal i 0] ∧ s.calls i = true ∧ (s.pke.pages[i]).hbusy = false ∧ (s.pke.pages[i]).ctx = none :=
  ⟨7, (.hashUpdate 7), s6, by decide +kernel⟩
def s7 : State := PK (fun p => {p with ctx := some c3, hbusy := true}) SS
theorem witness_7 : ∃ (i : Fin 128) (s : State), s.calls i = true ∧ (s.pke.pages[i]).hbusy = true :=
  ⟨7, s7, by decide +kernel⟩
def s8 : State := PK (fun p => {p with ctx := some c3, hbusy := true}) SS
theorem witness_8 : ∃ (i : Fin 128) (a : BitVec 4) (v : Bool) (n : BitVec 7) (c : Instr) (s : State), c ∈ [.hashInit i a, .hmacInit i v, .hashUpdate i, .hashFinal i n] ∧ s.calls i = true ∧ (s.pke.pages[i]).hbusy = true :=
  ⟨7, 3, true, 20, (.hashUpdate 7), s8, by decide +kernel⟩
def s9 : State := H2
theorem witness_9 : ∃ (i : Fin 128) (c : HashCtx) (s : State), s.calls i = true ∧ (s.pke.pages[i]).hbusy = false ∧ (s.pke.pages[i]).ctx = some c ∧ (s.pke.pages[i]).hlen ≠ 0 ∧ (s.pke.pages[i]).hlen.toNat ≤ 2097152 ∧ s.badByte i (s.pke.pages[i]).hsrc.toNat (s.pke.pages[i]).hlen.toNat false = none :=
  ⟨7, c3, s9, by decide +kernel⟩
def s10 : State := H3
theorem witness_10 : ∃ (i : Fin 128) (j : HashJob) (c : HashCtx) (p : Pke) (s : State), s.live = true ∧ (s.pke.pages[i]).hjob = some j ∧ (s.pke.pages[i]).ctx = some c ∧ (s.pke.pages[i]).hbusy = true ∧ j.final = false ∧ s.pke.hashUntil i s.pke.hashAll = some p :=
  ⟨7, (hj 2), c3, ((H3.pke.hashUntil 7 H3.pke.hashAll).getD {}), s10, by decide +kernel⟩
def s11 : State := H3
theorem witness_11 : ∃ (i : Fin 128) (s : State), s.pke.hashUntil i s.pke.hashAll = none :=
  ⟨9, s11, by decide +kernel⟩
end HashesCover

namespace MintReleasesAndFails
def M (f : Mint → Mint) : State := {run with mint := f run.mint}
def f0 : HealthFail := {test := 1, source := 63, count := 800}
def s0 : State := M id
theorem witness_0 : ∃ (words : List (BitVec 64)) (s : State), s.live = true ∧ s.mint.state = .ready ∧ s.mint.testing = false ∧ s.mint.testSrc.getLsbD 0 = false ∧ (s.sample words).2 = true :=
  ⟨[0x123456789ABCDEF0, 0xFEDCBA9876543210], s0, by decide +kernel⟩
def s1 : State := M (fun m => {m with state := .restarting, testing := true})
theorem witness_1 : ∃ (words : List (BitVec 64)) (s : State), s.live = true ∧ (s.mint.state = .startup ∨ s.mint.state = .restarting) ∧ s.mint.testSrc.getLsbD 0 = false ∧ (s.sample words).2 = true :=
  ⟨[0x123456789ABCDEF0, 0xFEDCBA9876543210], s1, by decide +kernel⟩
def s2 : State := M (fun m => {m with osc := m.osc.set 5 {last := true, run := 128}})
theorem witness_2 : ∃ (w : BitVec 64) (n : Fin 64) (s : State), s.live = true ∧ s.mint.state = .ready ∧ s.mint.testing = false ∧ s.mint.testSrc.getLsbD 0 = false ∧ (s.mint.osc[n]).run = 128 ∧ (s.mint.osc[n]).last = w.getLsbD n.val ∧ s.mint.restarts.toNat < 3 ∧ s.mint.running = none ∧ s.mint.ready = [] ∧ s.mint.waitq = [] :=
  ⟨0xFFFFFFFFFFFFFFFF, 5, s2, by decide +kernel⟩
def s3 : State := M (fun m => {m with state := .startup, testing := true})
theorem witness_3 : ∃ (dur : BitVec 16) (s : State), s.live = true ∧ s.mint.testing = true ∧ (s.mint.state = .startup ∨ s.mint.state = .restarting) ∧ s.mint.testSrc.getLsbD 0 = false :=
  ⟨7, s3, by decide +kernel⟩
def s4 : State := M (fun m => {m with state := .startup, testing := true, restarts := 2})
theorem witness_4 : ∃ (f : HealthFail) (dur : BitVec 16) (s : State), s.live = true ∧ s.mint.testing = true ∧ s.mint.state = .startup ∧ s.mint.restarts.toNat < 3 ∧ s.mint.running = none ∧ s.mint.ready = [] ∧ s.mint.waitq = [] :=
  ⟨f0, 7, s4, by decide +kernel⟩
def s5 : State := M (fun m => {m with restarts := 2})
theorem witness_5 : ∃ (f : HealthFail) (s : State), s.live = true ∧ s.mint.state ≠ .failed ∧ s.mint.restarts.toNat < 3 ∧ s.mint.running = none ∧ s.mint.ready = [] ∧ s.mint.waitq = [] :=
  ⟨f0, s5, by decide +kernel⟩
def s6 : State := (M (fun m => {m with restarts := 2, waitq := [{client := .page 7 1, inst := 9, len := 32}], pages := m.pages.set 7 ((Vector.replicate 4 {}).set 1 {busy := true})}))
theorem witness_6 : ∃ (f : HealthFail) (i : Fin 128) (p : Fin 4) (n : Fin 160) (s : State), s.live = true ∧ s.mint.state ≠ .failed ∧ s.mint.restarts.toNat < 3 ∧ s.mint.running = none ∧ s.mint.ready = [] ∧ s.mint.waitq = [{ client := .page i p, inst := n, len := 32 }] ∧ ((s.mint.pages[i])[p]).busy = true :=
  ⟨f0, 7, 1, 9, s6, by decide +kernel⟩
def s7 : State := M (fun m => {m with restarts := 3})
theorem witness_7 : ∃ (f : HealthFail) (s : State), s.live = true ∧ s.mint.state ≠ .failed ∧ 3 ≤ s.mint.restarts.toNat :=
  ⟨f0, s7, by decide +kernel⟩
def s8 : State := M (fun m => {m with state := .failed})
theorem witness_8 : ∃ (f : HealthFail) (s : State), s.mint.state = .failed :=
  ⟨f0, s8, by decide +kernel⟩
def s9 : State := M (fun m => {m with state := .restarting})
theorem witness_9 : ∃ (s : State), s.live = true ∧ s.mint.state = .restarting ∧ s.mint.testing = false :=
  ⟨s9, by decide +kernel⟩
end MintReleasesAndFails

namespace DrbgServes
def S (f : Mint → Mint) : State := let s := slotRun 7 run; {s with mint := f s.mint}
def P (m : Mint) (p : Fin 4) (x : DpPage) : Mint := {m with pages := m.pages.set 7 ((Vector.replicate 4 {}).set p x)}
def x0 : DpPage := {dst := 0x10000000, len := 100, ainlen := 32}
def x2 : DpPage := {dst := 0x10000000, len := 32, ainlen := 32}
def x3 : DpPage := {dst := 0x10000000, len := 33, ainlen := 32}
def r7 : DrbgReq := {client := .page 7 1, inst := 9, len := 32, outreg := true}
def r9 : DrbgReq := {client := .page 7 1, inst := 9, len := 32, outreg := false, dst := 0x10000040}
def s0 : State := S (fun m => {(P m 0 x0) with insts := m.insts.set 7 {inst := true, ctr := CtrState.init [1] [2] [3]}})
theorem witness_0 : ∃ (i : Fin 128) (w : Bool) (r : Bool) (x : DpPage) (q : DrbgReq) (s : State), s.calls i = true ∧ (s.mint.pages[i])[(0 : Fin 4)] = x ∧ x.busy = false ∧ 0 < x.len.toNat ∧ x.len.toNat ≤ 65536 ∧ q = { client := .page i 0, inst := fixedInst i, len := x.len.toNat, outreg := r, dst := x.dst, ain := x.ain.take x.ainlen.toNat } ∧ x.ainlen.toNat ≤ 32 ∧ ((r = true → x.len.toNat ≤ 32)) ∧ ((r = false → s.badByte i x.dst.toNat x.len.toNat true = none)) ∧ (s.mint.insts[fixedInst i]).inst = true ∧ (s.mint.insts[fixedInst i]).reseedReq = false ∧ s.reseedDue s.mint.insts[fixedInst i] = false ∧ s.mint.waitq = [] ∧ s.mint.running = none ∧ s.mint.ready = [] :=
  ⟨7, true, false, x0, { client := .page 7 0, inst := 7, len := 100, outreg := false, dst := x0.dst, ain := x0.ain.take 32 }, s0, by decide +kernel⟩
def s1 : State := S (fun m => {(P m 0 x0) with pool := [1,2,3]})
theorem witness_1 : ∃ (i : Fin 128) (w : Bool) (x : DpPage) (a : BitVec 256) (b : BitVec 256) (rest : List (BitVec 256)) (s : State), s.calls i = true ∧ (s.mint.pages[i])[(0 : Fin 4)] = x ∧ x.busy = false ∧ x.ainlen.toNat ≤ 32 ∧ s.mint.state = .ready ∧ s.mint.pool = a :: b :: rest ∧ s.mint.waitq = [] ∧ s.mint.running = none ∧ s.mint.ready = [] :=
  ⟨7, true, x0, 1, 2, [3], s1, by decide +kernel⟩
def s2 : State := S (fun m => {(P m 0 x2) with state := .startup})
theorem witness_2 : ∃ (i : Fin 128) (w : Bool) (r : Bool) (st : BitVec 16) (x : DpPage) (s : State), s.calls i = true ∧ (s.mint.pages[i])[(0 : Fin 4)] = x ∧ x.busy = false ∧ 0 < x.len.toNat ∧ x.len.toNat ≤ 32 ∧ x.ainlen.toNat ≤ 32 ∧ (s.mint.insts[fixedInst i]).inst = false ∧ r = true ∧ ((s.mint.state = .failed ∧ st = 0x0602) ∨ (s.mint.state = .startup ∧ w = false ∧ st = 0x0601) ∨ (s.mint.state = .restarting ∧ w = false ∧ st = 0x0601)) :=
  ⟨7, false, true, 0x601, x2, s2, by decide +kernel⟩
def s3 : State := S (fun m => {(P m 1 x3) with extra := m.extra.set 7 [130, 131]})
theorem witness_3 : ∃ (i : Fin 128) (p : Fin 4) (q : Nat) (w : Bool) (o : Bool) (x : DpPage) (s : State), s.calls i = true ∧ p.val = q ∧ q ≤ (s.tenants.slots[i]).run.drbg ∧ (s.pageInst i p).isSome = true ∧ (s.mint.pages[i])[p] = x ∧ x.busy = false ∧ (x.len = 0 ∨ 65536 < x.len.toNat ∨ 32 < x.ainlen.toNat ∨ (o = true ∧ 32 < x.len.toNat)) :=
  ⟨7, 1, 1, true, true, x3, s3, by decide +kernel⟩
def s4 : State := S (fun m => {(P m 0 x2) with state := .startup})
theorem witness_4 : ∃ (i : Fin 128) (x : DpPage) (a : BitVec 256) (b : BitVec 256) (rest : List (BitVec 256)) (s : State), s.calls i = true ∧ (s.mint.pages[i])[(0 : Fin 4)] = x ∧ x.busy = false ∧ x.len = 32 ∧ x.ainlen.toNat ≤ 32 ∧ (s.mint.insts[fixedInst i]).inst = false ∧ s.mint.state = .startup ∧ s.mint.waitq = [] ∧ s.mint.running = none ∧ s.mint.ready = [] :=
  ⟨7, x2, 5, 6, [], s4, by decide +kernel⟩
def s5 : State := let s := S (fun m => {m with waitq := [{client := .kct 7, inst := 7, len := 32}, {client := .page 8 0, inst := 8}], pool := [1,2,3]}); {s with kct := {s.kct with pages := s.kct.pages.set 7 {busy := true, cur := some {op := 1, handle := 0, arg := 0, buf := zeros 128, waiting := true}}}}
theorem witness_5 : ∃ (i : Fin 128) (o : KctOp) (n : Fin 160) (a : BitVec 256) (b : BitVec 256) (pool : List (BitVec 256)) (rest : List DrbgReq) (s : State), s.live = true ∧ s.mint.waitq = { client := .kct i, inst := n, len := 32 } :: rest ∧ s.mint.state = .ready ∧ s.mint.pool = a :: b :: pool ∧ (s.kct.pages[i]).cur = some o :=
  ⟨7, {op := 1, handle := 0, arg := 0, buf := zeros 128, waiting := true}, 7, 1, 2, [3], [{client := .page 8 0, inst := 8}], s5, by decide +kernel⟩
def s6 : State := S (fun m => {(P m 1 {x3 with busy := true}) with state := .startup, waitq := [{client := .page 7 1, inst := 9, len := 32}]})
theorem witness_6 : ∃ (i : Fin 128) (p : Fin 4) (n : Fin 160) (rest : List DrbgReq) (s : State), s.live = true ∧ s.mint.waitq = { client := .page i p, inst := n, len := 32 } :: rest ∧ ((s.mint.pages[i])[p]).busy = true :=
  ⟨7, 1, 9, [], s6, by decide +kernel⟩
def s7 : State := S (fun m => {(P m 1 {x3 with busy := true}) with running := some r7})
theorem witness_7 : ∃ (i : Fin 128) (p : Fin 4) (r : DrbgReq) (s : State), s.calls i = true ∧ p.val ≤ (s.tenants.slots[i]).run.drbg ∧ ((s.mint.pages[i])[p]).busy = true ∧ s.mint.running = some r ∧ r.client = .page i p ∧ r.outreg = true ∧ s.mint.ready = [] ∧ s.mint.waitq = [] :=
  ⟨7, 1, r7, s7, by decide +kernel⟩
def s8 : State := S id
theorem witness_8 : ∃ (i : Fin 128) (p : Fin 4) (s : State), s.calls i = true ∧ p.val ≤ (s.tenants.slots[i]).run.drbg ∧ ((s.mint.pages[i])[p]).busy = false :=
  ⟨7, 2, s8, by decide +kernel⟩
def s9 : State := S (fun m => {(P m 1 {x3 with busy := true}) with running := some r9})
theorem witness_9 : ∃ (i : Fin 128) (p : Fin 4) (r : DrbgReq) (s : State), s.calls i = true ∧ p.val ≤ (s.tenants.slots[i]).run.drbg ∧ ((s.mint.pages[i])[p]).busy = true ∧ s.mint.running = some r ∧ r.client = .page i p ∧ r.outreg = false ∧ r.reseed = false ∧ 0x10000000 ≤ r.dst.toNat ∧ r.dst.toNat + r.len < 0x20000000 :=
  ⟨7, 1, r9, s9, by decide +kernel⟩
end DrbgServes

namespace TamperResponds
def G (f : Guard → Guard) : State := {run with guard := f run.guard}
def m (c : Fin 7) : Mon := ⟨c, 0⟩
def raw : List Sample := [⟨0, .value 100000⟩]
def pr (l : Word) : List (Nat × Nat × Word) := [(0x940, 0, l), (0x800, 0, 1), (0x930, 0, 1), (0x931, 0, 10), (0x830, 0, 5)]
def s0 : State := G (fun g => {g with copy := pr 0})
theorem witness_0 : ∃ (m : Mon) (raw : List Sample) (s : State), s.live = true ∧ s.fired m false raw = true ∧ m ∉ s.guard.active ∧ s.guard.level m.cls = 0 :=
  ⟨(m 0), raw, s0, by decide +kernel⟩
def s1 : State := G (fun g => {g with copy := pr 1})
theorem witness_1 : ∃ (m : Mon) (raw : List Sample) (s : State), s.live = true ∧ s.fired m false raw = true ∧ m ∉ s.guard.active ∧ s.guard.level m.cls = 1 ∧ s.commits = true :=
  ⟨(m 0), raw, s1, by decide +kernel⟩
def s2 : State := G (fun g => {g with copy := pr 3})
theorem witness_2 : ∃ (m : Mon) (raw : List Sample) (s : State), s.live = true ∧ s.fired m false raw = true ∧ m ∉ s.guard.active ∧ 3 ≤ s.guard.level m.cls ∧ s.guard.arm = true ∧ s.guard.bbk = .valid ∧ s.lc.state = .deployed ∧ s.recalled = true ∧ s.supervisor = true :=
  ⟨(m 0), raw, s2, by decide +kernel⟩
def s3 : State := G (fun g => {g with copy := pr 3, arm := false})
theorem witness_3 : ∃ (m : Mon) (raw : List Sample) (s : State), s.live = true ∧ s.fired m false raw = true ∧ m ∉ s.guard.active ∧ 3 ≤ s.guard.level m.cls ∧ s.guard.arm = false ∧ s.guard.log.length < 16 :=
  ⟨(m 0), raw, s3, by decide +kernel⟩
def s4 : State := G (fun g => {g with copy := pr 3, bbk := .lost})
theorem witness_4 : ∃ (m : Mon) (raw : List Sample) (s : State), s.live = true ∧ s.fired m false raw = true ∧ m ∉ s.guard.active ∧ 3 ≤ s.guard.level m.cls ∧ s.guard.arm = true ∧ s.guard.bbk ≠ .valid ∧ s.guard.log.length < 16 :=
  ⟨(m 0), raw, s4, by decide +kernel⟩
def s5 : State := G (fun g => {g with active := [m 0]})
theorem witness_5 : ∃ (m : Mon) (raw : List Sample) (s : State), (m ∈ s.guard.active ∨ s.fired m false raw = false) :=
  ⟨(m 0), raw, s5, by decide +kernel⟩
def s6 : State := G (fun g => {g with copy := pr 1, active := [m 0, m 1]})
theorem witness_6 : ∃ (m : Mon) (raw : List Sample) (s : State), s.fired m (!s.live) raw = false :=
  ⟨(m 0), [⟨0, .value 1⟩], s6, by decide +kernel⟩
def s7 : State := G (fun g => {g with copy := pr 1, active := [m 0, m 1]})
theorem witness_7 : ∃ (m : Mon) (raw : List Sample) (s : State), s.fired m (!s.live) raw = true :=
  ⟨(m 0), raw, s7, by decide +kernel⟩
def s9 : State := G (fun g => {g with copy := [(0x940, 0, 1)]})
theorem witness_9 : ∃ (m : Mon) (s : State), s.live = true ∧ s.guard.tests m = true ∧ m ∉ s.guard.active ∧ s.guard.level m.cls = 1 ∧ s.commits = true :=
  ⟨(m 0), s9, by decide +kernel⟩
def s10 : State := G (fun g => {g with copy := [(0x940, 0, 1)]})
theorem witness_10 : ∃ (m : Mon) (s : State), s.live = true ∧ s.guard.tests m = true ∧ m ∉ s.guard.active ∧ s.guard.level m.cls = 1 :=
  ⟨(m 0), s10, by decide +kernel⟩
def s11 : State := G (fun g => {g with copy := [(0x895, 0, 1), (0x932, 0, 1), (0x933, 0, 10)], pattern := 0x1234})
theorem witness_11 : ∃ (l : Fin 48) (x : Sample) (b : Bool) (s : State), s.guard.param (0x890 + l.val) 0 = 1 ∧ s.guard.param 0x932 0 = 1 ∧ x.reading = .level (some b) ∧ x.age ≤ s.guard.param 0x933 0 :=
  ⟨5, ⟨3, .level (some true)⟩, true, s11, by decide +kernel⟩
def s12 : State := G (fun g => {g with copy := [(0x922, 0, 1), (0x923, 0, 0), (0x93A, 0, 1), (0x93B, 0, 10)]})
theorem witness_12 : ∃ (n : Fin 8) (x : Sample) (b : Bool) (raw : List Sample) (s : State), s.guard.param 0x93A 0 = 1 ∧ x.reading = .level (some b) ∧ x.age ≤ s.guard.param 0x93B 0 :=
  ⟨1, ⟨3, .level (some false)⟩, false, raw, s12, by decide +kernel⟩
end TamperResponds

namespace BatteryModeAlarms
def G (f : Guard → Guard) : State := {run with guard := f run.guard, power := {run.power with run := .held}}
def m (c : Fin 7) : Mon := ⟨c, 0⟩
def pr (l : Word) : List (Nat × Nat × Word) := [(0x945, 0, l), (0x920, 0, 1), (0x921, 0, 0), (0x93A, 0, 1), (0x93B, 0, 10)]
def raw : List Sample := [⟨3, .level none⟩]
def s0 : State := G (fun g => {g with copy := pr 3})
theorem witness_0 : ∃ (m : Mon) (raw : List Sample) (s : State), s.live = false ∧ s.guard.powered = true ∧ m.inBattery = true ∧ s.fired m true raw = true ∧ m ∉ s.guard.active ∧ s.guard.level m.cls ≠ 0 ∧ s.guard.log.length < 16 :=
  ⟨(m 5), raw, s0, by decide +kernel⟩
def s1 : State := G (fun g => {g with copy := pr 3, log := List.replicate 16 ⟨1,2,3,4,5⟩})
theorem witness_1 : ∃ (m : Mon) (raw : List Sample) (s : State), s.live = false ∧ s.guard.powered = true ∧ m.inBattery = true ∧ s.fired m true raw = true ∧ m ∉ s.guard.active ∧ s.guard.level m.cls ≠ 0 ∧ 16 ≤ s.guard.log.length :=
  ⟨(m 5), raw, s1, by decide +kernel⟩
def s2 : State := G (fun g => {g with copy := pr 0})
theorem witness_2 : ∃ (m : Mon) (raw : List Sample) (s : State), s.live = false ∧ s.guard.powered = true ∧ m.inBattery = true ∧ s.fired m true raw = true ∧ m ∉ s.guard.active ∧ s.guard.level m.cls = 0 :=
  ⟨(m 5), raw, s2, by decide +kernel⟩
def s3 : State := run
theorem witness_3 : ∃ (m : Mon) (raw : List Sample) (s : State), (m ∈ s.guard.active ∨ s.live = true ∨ s.fired m true raw = false) :=
  ⟨(m 1), raw, s3, by decide +kernel⟩
end BatteryModeAlarms

namespace BatteryDomainHolds
def s0 : State := run
theorem witness_0 : ∃ (b : Bool) (s : State), s.guard.powered = true :=
  ⟨true, s0, by decide +kernel⟩
def s2 : State := {run with guard := {run.guard with powered := false}}
theorem witness_2 : ∃ (b : Bool) (s : State), s.guard.powered = false :=
  ⟨true, s2, by decide +kernel⟩
def s3 : State := run
theorem witness_3 : ∃ (b : Bool) (s : State), s.guard.powered = true :=
  ⟨true, s3, by decide +kernel⟩
end BatteryDomainHolds

namespace StepTakesTheFront
def s0 : State := {run with pending := [.frameBoundary, .storeRefresh]}
theorem witness_0 : ∃ (c : Instr) (rest : List Instr) (s : State), s.pending = c :: rest :=
  ⟨.frameBoundary, [.storeRefresh], s0, by decide +kernel⟩
def s1 : State := run
theorem witness_1 : ∃ (s : State), s.pending = [] :=
  ⟨s1, by decide +kernel⟩
end StepTakesTheFront

namespace ResetCauseIsRecorded
def s0 : State := {run with power := {run.power with run := .held}}
theorem witness_0 : ∃ (pins : PowerUp) (s : State), 765 ≤ pins.levels.core ∧ 950 ≤ pins.levels.phy ∧ 1680 ≤ pins.levels.io ∧ pins.pwrFailN = true ∧ pins.resetN = true ∧ pins.cellOk = true ∧ s.power.run = .held :=
  ⟨{ levels := { core := 765, phy := 950, io := 1680 } }, s0, by decide +kernel⟩
def s1 : State := run
theorem witness_1 : ∃ (lv : Levels) (s : State), (s.power.run ≠ .saveDone ∨ s.power.savedRun = true) :=
  ⟨{ core := 719, phy := 900, io := 1600 }, s1, by decide +kernel⟩
def s2 : State := {run with power := {run.power with run := .saving}}
theorem witness_2 : ∃ (dur : BitVec 16) (s : State), s.power.run = .saving :=
  ⟨5, s2, by decide +kernel⟩
def s3 : State := run
theorem witness_3 : ∃ (s : State), (s.power.run ≠ .saveDone ∨ s.power.savedRun = true) :=
  ⟨s3, by decide +kernel⟩
end ResetCauseIsRecorded

namespace InterruptLineFollowsFlags
def s1 : State := {run with hrb := {run.hrb with ienA := 63}}
theorem witness_1 : ∃ (v : Word) (w : Word) (i : Fin 6) (s : State), s.live = true ∧ w.getLsbD i = true ∧ s.hrb.ienA.getLsbD i = true :=
  ⟨3, 4, 2, s1, by decide +kernel⟩
def s2 : State := {run with hrb := {run.hrb with ienB := 63}}
theorem witness_2 : ∃ (v : Word) (w : Word) (i : Fin 6) (s : State), s.live = true ∧ w.getLsbD i = true ∧ s.hrb.ienB.getLsbD i = true :=
  ⟨3, 4, 2, s2, by decide +kernel⟩
def s3 : State := {run with hrb := {run.hrb with ienC := 63}}
theorem witness_3 : ∃ (v : Word) (w : Word) (i : Fin 6) (s : State), s.live = true ∧ w.getLsbD i = true ∧ s.hrb.ienC.getLsbD i = true :=
  ⟨3, 4, 2, s3, by decide +kernel⟩
def s4 : State := {run with hrb := {run.hrb with evtA := run.hrb.evtA.set 2 ⟨true, 0⟩}}
theorem witness_4 : ∃ (i : Fin 6) (v : Word) (s : State), s.live = true ∧ s.hrb.evtA[i].set = true ∧ v.getLsbD i = true :=
  ⟨2, 4, s4, by decide +kernel⟩
end InterruptLineFollowsFlags

/-- A command in front, three entries in the battery event log, one imported. -/
def stepping : State := { run with
  pending := [.storeRefresh], guard := { run.guard with log := List.replicate 3 ⟨1, 2, 3, 4, 5⟩, mark := 1 }
  tag := { run.tag with mem := [(5, 7), (9, 1)] } }

namespace StepKeepsBatteryLog
theorem witness_0 : ∃ s t : State, s.logOk ∧ step s = .next t := ⟨stepping, (step_refresh rfl).imp fun _ h => ⟨by unfold State.logOk; decide +kernel, h⟩⟩
end StepKeepsBatteryLog
namespace StepKeepsEpochs
theorem witness_0 : ∃ s t : State, s.epochsOk ∧ step s = .next t := ⟨stepping, (step_refresh rfl).imp fun _ h => ⟨⟨fun i => by
    rw [show stepping.store.slotEpoch = Vector.replicate 128 1 from rfl]; simp, fun p => by
    rw [show stepping.store.portEpoch = Vector.replicate 512 1 from rfl]; simp, fun c => by
    rw [show stepping.store.chanEpoch = Vector.replicate 4 1 from rfl]; simp⟩, h⟩⟩
end StepKeepsEpochs
namespace StepKeepsTagMemory
theorem witness_0 : ∃ s t : State, s.tagOk ∧ step s = .next t := ⟨stepping, (step_refresh rfl).imp fun _ h => ⟨by unfold State.tagOk; decide +kernel, h⟩⟩
end StepKeepsTagMemory

end Sys2Proof.Tests
end

section
/-! SUPPORT. The interrupt line IRQ_N (R182): when it is low, and that a W1C write met by a set, or the write of an enable
bit, leaves it so. -/

namespace Sys2Proof.Machine

/-! ### Flags -/

@[simp] theorem Flag.hit_set (f : Flag) : f.hit.set = true := by
  unfold Flag.hit
  split
  · next h => exact h
  · rfl

/-- The set of the same cycle wins (R6). -/
@[simp] theorem Flag.clear_set_of_sim (f : Flag) (w : Bool) : (f.clear w true).set = true := Flag.hit_set f

@[simp] theorem evtClear_getElem (fs : Vector Flag 6) (v w : Word) (i : Fin 6) :
    (evtClear fs v w)[i] = fs[i].clear (v.getLsbD i) (w.getLsbD i) := by
  simp [evtClear]

theorem flagsOn_iff {fs : Vector Flag 6} {en : BitVec 6} :
    flagsOn fs en = true ↔ ∃ i : Fin 6, fs[i].set = true ∧ en.getLsbD i = true := by
  simp [flagsOn, Fin.exists_fin_succ, or_assoc]

/-- A set that lands with a clear of an enabled flag keeps an enabled flag set. -/
theorem flagsOn_evtClear_of_sim {fs : Vector Flag 6} {en : BitVec 6} {v w : Word} {i : Fin 6}
    (hw : w.getLsbD i = true) (hen : en.getLsbD i = true) : flagsOn (evtClear fs v w) en = true := by
  have hset : (evtClear fs v w)[i].set = true := by rw [evtClear_getElem, hw, Flag.clear_set_of_sim]
  exact flagsOn_iff.mpr ⟨i, hset, hen⟩

/-! ### The line -/

theorem State.irqLow_iff {s : State} :
    s.irqLow = true ↔ s.live = true ∧ (flagsOn s.hrb.evtA s.hrb.ienA = true ∨ flagsOn s.hrb.evtB s.hrb.ienB = true ∨
      flagsOn s.hrb.evtC s.hrb.ienC = true) := by
  simp [State.irqLow, or_assoc]

/-- An update of the HRB moves the line by the flags and enables that it writes alone. -/
theorem State.irqLow_updHrb_iff {s : State} {f : Hrb → Hrb} :
    (s.updHrb f).irqLow = true ↔ s.live = true ∧ (flagsOn (f s.hrb).evtA (f s.hrb).ienA = true ∨
      flagsOn (f s.hrb).evtB (f s.hrb).ienB = true ∨ flagsOn (f s.hrb).evtC (f s.hrb).ienC = true) :=
  State.irqLow_iff

theorem State.released_of_live {s : State} (h : s.live = true) : s.released = true := by
  cases hr : s.power.run <;> simp_all [State.live, State.released]

/-! ### The two writes -/

/-- A W1C write reaches an aligned register of the HRB while the main side is out of reset (R3, R173). -/
theorem exec_w1cClear_hrb {o : BitVec 16} (v w : Word) {s : State} (ha : o.toNat % 4 = 0) (hr : s.released = true) :
    exec (.w1cClear (.hrb o) v w) s = .next (s.hrbClear o.toNat v w) := by
  have hreach : s.reaches (.hrb o) = true := by simp [State.reaches, RegAddr.off, ha, hr]
  exact congrArg Host.Outcome.next (if_pos hreach)

theorem exec_hrbIenWrite_bankA (v : Word) {s : State} (hr : s.released = true) :
    exec (.hrbIenWrite 0 v) s = .next (s.updHrb fun h => { h with ienA := v.setWidth 6 }) :=
  congrArg Host.Outcome.next (if_pos hr)

theorem State.hrbClear_evtA (v w : Word) (s : State) :
    s.hrbClear 0x080 v w = s.updHrb fun h => { h with evtA := evtClear h.evtA v w } := rfl
theorem State.hrbClear_evtB (v w : Word) (s : State) :
    s.hrbClear 0x088 v w = s.updHrb fun h => { h with evtB := evtClear h.evtB v w } := rfl
theorem State.hrbClear_evtC (v w : Word) (s : State) :
    s.hrbClear 0x090 v w = s.updHrb fun h => { h with evtC := evtClear h.evtC v w } := rfl

/-- The line after a W1C write of the HRB is read off the one unit that the clear writes. -/
theorem exists_w1cClear_irqLow {o : BitVec 16} {v w : Word} {s : State} {f : Hrb → Hrb} (ha : o.toNat % 4 = 0)
    (hl : s.live = true) (hc : s.hrbClear o.toNat v w = s.updHrb f) (hirq : (s.updHrb f).irqLow = true) :
    ∃ t, exec (.w1cClear (.hrb o) v w) s = .next t ∧ t.irqLow = true :=
  ⟨s.updHrb f, hc ▸ exec_w1cClear_hrb v w ha (State.released_of_live hl), hirq⟩

/-- Settles O60: the line is the disjunction of the three banks, and in each a set that lands with a clear wins. -/
theorem interruptLineFollowsFlags : Obligations.InterruptLineFollowsFlags := by
  refine ⟨fun s => ?_, fun v w i s hl hw hen => ?_, fun v w i s hl hw hen => ?_, fun v w i s hl hw hen => ?_,
    fun i v s hl hset hv => ?_⟩
  · simp only [State.irqLow_iff, flagsOn_iff, exists_or]
  · exact exists_w1cClear_irqLow rfl hl (State.hrbClear_evtA v w s)
      (State.irqLow_updHrb_iff.mpr ⟨hl, .inl (flagsOn_evtClear_of_sim hw hen)⟩)
  · exact exists_w1cClear_irqLow rfl hl (State.hrbClear_evtB v w s)
      (State.irqLow_updHrb_iff.mpr ⟨hl, .inr (.inl (flagsOn_evtClear_of_sim hw hen))⟩)
  · exact exists_w1cClear_irqLow rfl hl (State.hrbClear_evtC v w s)
      (State.irqLow_updHrb_iff.mpr ⟨hl, .inr (.inr (flagsOn_evtClear_of_sim hw hen))⟩)
  · have hen : (v.setWidth 6).getLsbD i = true := by simp [hv]
    exact ⟨_, exec_hrbIenWrite_bankA v (State.released_of_live hl),
      State.irqLow_updHrb_iff.mpr ⟨hl, .inl (flagsOn_iff.mpr ⟨i, hset, hen⟩)⟩⟩

end Sys2Proof.Machine
end

section
/-! SUPPORT. The battery domain in battery mode (R442): what erases the BBK, what an alarm writes in the battery event log, and the
one state that a firing filter leaves. -/

namespace Sys2Proof.Machine

/-! ### The BBK and the battery event log -/

/-- An alarm in battery mode erases the BBK where the domain is armed and holds one (R442, R452). -/
def Guard.erases (g : Guard) : Bool := g.arm && g.bbk == .valid

theorem Guard.erases_iff {g : Guard} : g.erases = true ↔ g.arm = true ∧ g.bbk = .valid := by
  simp [Guard.erases]

/-- The erasure writes the BBK and its state alone. -/
theorem Guard.eraseIfErases_eq (g : Guard) :
    (if g.erases then g.erase else g) = { g with
      bbk := if g.arm = true ∧ g.bbk = .valid then .erased else g.bbk
      bbkKey := if g.arm = true ∧ g.bbk = .valid then 0 else g.bbkKey } := by
  simp only [Guard.erases_iff]
  split
  · next h => exact if_pos h.2
  · rfl

/-- Bit 7 of CLASS shows the arm state, whatever the class, the origin and the erasure beside it (Table 18-5). -/
theorem entryClass_bit7 : ∀ (c : Fin 7) (origin : Fin 4) (erased arm : Bool),
    (BitVec.ofNat 8 (c.val + 16 * origin.val + 64 * b2n erased + 128 * b2n arm)).getLsbD 7 = arm := by
  decide

/-- A log with room takes one entry at its end (R447), of the alarm's count, the RTC and the arm state. -/
theorem Guard.enter_of_room {g : Guard} (m : Mon) (origin : Fin 4) (erased : Bool) (count : BitVec 16) (h : g.log.length < 16) :
    ∃ e : BatEntry, g.enter m origin erased count = { g with log := g.log ++ [e] } ∧ e.count = count ∧ e.rtc = g.rtc ∧
      e.cls.getLsbD 7 = g.arm :=
  ⟨_, if_neg (Nat.not_le.mpr h), rfl, rfl, entryClass_bit7 m.cls origin erased g.arm⟩

/-- A full log counts the alarm and keeps its entries (R447). -/
theorem Guard.enter_of_full {g : Guard} (m : Mon) (origin : Nat) (erased : Bool) (count : BitVec 16) (h : 16 ≤ g.log.length) :
    g.enter m origin erased count = { g with ovf := sat16 g.ovf } :=
  if_pos h

/-! ### The answer to a firing -/

/-- The samples make the filter of a unit watched in battery mode fire. -/
structure State.FiresInBattery (m : Mon) (raw : List Sample) (s : State) : Prop where
  dark : s.live = false
  powered : s.guard.powered = true
  inBattery : m.inBattery = true
  fired : s.fired m true raw = true
  quiet : m ∉ s.guard.active

/-- The battery domain with the samples taken and the filter active (R439). -/
def Guard.firing (m : Mon) (raw : List Sample) (g : Guard) : Guard := { g.sampled m raw with active := g.active ++ [m] }

/-- What R442 has the battery domain do: nothing for a class at IGNORE, the erasure and the log entry for every other. -/
def Guard.answer (m : Mon) (count : BitVec 16) (g : Guard) : Guard :=
  if g.level m.cls = 0 then g else (if g.erases then g.erase else g).enter m 0 g.erases count

/-- The HRB after a firing: it shows the class in SEEN where it is served (R395, R439). -/
def State.seen (m : Mon) (s : State) : Hrb :=
  if s.released then { s.hrb with tampSeen := s.hrb.tampSeen ||| BitVec.ofNat 8 (2 ^ m.cls.val) } else s.hrb

theorem State.firesInBattery_iff {m : Mon} {raw : List Sample} {s : State} :
    s.FiresInBattery m raw ↔
      !s.live ∧ s.guard.powered ∧ m.inBattery ∧ !s.guard.active.contains m ∧ s.fired m true raw := by
  simp only [Bool.not_eq_true', List.contains_eq_mem, decide_eq_false_iff_not]
  exact ⟨fun ⟨hdark, hpow, hbat, hfired, hquiet⟩ => ⟨hdark, hpow, hbat, hquiet, hfired⟩,
    fun ⟨hdark, hpow, hbat, hquiet, hfired⟩ => ⟨hdark, hpow, hbat, hfired, hquiet⟩⟩

/-- The filter stays active whether the HRB is served or not. -/
theorem State.fires_of_sampled (m : Mon) (raw : List Sample) (s : State) :
    (if (s.updGuard (Guard.sampled m raw)).released then (s.updGuard (Guard.sampled m raw)).fires m
      else (s.updGuard (Guard.sampled m raw)).updGuard fun g => { g with active := g.active ++ [m] }) =
    { s with guard := s.guard.firing m raw, hrb := s.seen m } := by
  have hrel : (s.updGuard (Guard.sampled m raw)).released = s.released := rfl
  rw [hrel, State.seen]
  split <;> rfl

/-- A firing moves the battery domain and SEEN, and nothing else. -/
theorem exec_batteryModeAlarm_of_fires {m : Mon} {raw : List Sample} {s : State} (h : s.FiresInBattery m raw) :
    exec (.batteryModeAlarm m raw) s = .next { s with
      guard := (s.guard.firing m raw).answer m (s.rawCount m true raw), hrb := s.seen m } := by
  refine congrArg Host.Outcome.next ((if_pos (State.firesInBattery_iff.mp h)).trans ?_)
  dsimp only
  rw [State.fires_of_sampled]
  exact (apply_ite (fun g : Guard => { s with guard := g, hrb := s.seen m })
    (s.guard.level m.cls = 0) _ _).symm

/-- Without a firing in battery mode the command changes nothing. -/
theorem exec_batteryModeAlarm_of_not_fires {m : Mon} {raw : List Sample} {s : State} (h : ¬ s.FiresInBattery m raw) :
    exec (.batteryModeAlarm m raw) s = .next s :=
  congrArg Host.Outcome.next (if_neg (mt State.firesInBattery_iff.mpr h))

/-- A class at IGNORE is not answered. -/
theorem Guard.answer_of_ignore {m : Mon} {g : Guard} (count : BitVec 16) (h : g.level m.cls = 0) : g.answer m count = g :=
  if_pos h

/-- With room in the log, the answer is the erasure and one entry. -/
theorem Guard.answer_of_room {m : Mon} {g : Guard} (count : BitVec 16) (hl : g.level m.cls ≠ 0) (hroom : g.log.length < 16) :
    ∃ e : BatEntry, g.answer m count = { g with
        bbk := if g.arm = true ∧ g.bbk = .valid then .erased else g.bbk
        bbkKey := if g.arm = true ∧ g.bbk = .valid then 0 else g.bbkKey
        log := g.log ++ [e] } ∧ e.count = count ∧ e.rtc = g.rtc ∧ e.cls.getLsbD 7 = g.arm := by
  rw [Guard.answer, if_neg hl, Guard.eraseIfErases_eq]
  exact Guard.enter_of_room m 0 g.erases count hroom

/-- With a full log, the answer is the erasure and one more in OVF. -/
theorem Guard.answer_of_full {m : Mon} {g : Guard} (count : BitVec 16) (hl : g.level m.cls ≠ 0) (hfull : 16 ≤ g.log.length) :
    g.answer m count = { g with
      bbk := if g.arm = true ∧ g.bbk = .valid then .erased else g.bbk
      bbkKey := if g.arm = true ∧ g.bbk = .valid then 0 else g.bbkKey
      ovf := sat16 g.ovf } := by
  rw [Guard.answer, if_neg hl, Guard.eraseIfErases_eq]
  exact Guard.enter_of_full m 0 g.erases count hfull

/-- Settles O50: by whether a filter fires, and then by the level of its class and the room in the log. -/
theorem batteryModeAlarms : Obligations.BatteryModeAlarms := by
  refine ⟨fun m raw s hdark hpow hbat hfired hquiet hl hroom => ?_, fun m raw s hdark hpow hbat hfired hquiet hl hfull => ?_,
    fun m raw s hdark hpow hbat hfired hquiet hl => ?_, fun m raw s h => exec_batteryModeAlarm_of_not_fires fun hf => ?_⟩
  · have hnext := exec_batteryModeAlarm_of_fires ⟨hdark, hpow, hbat, hfired, hquiet⟩
    obtain ⟨e, hanswer, hcount, hrtc, harm⟩ :=
      Guard.answer_of_room (g := s.guard.firing m raw) (s.rawCount m true raw) hl hroom
    rw [hanswer] at hnext
    exact ⟨_, e, hnext, rfl, rfl, hcount, hrtc, harm, rfl, rfl⟩
  · have hnext := exec_batteryModeAlarm_of_fires ⟨hdark, hpow, hbat, hfired, hquiet⟩
    rw [Guard.answer_of_full (g := s.guard.firing m raw) _ hl hfull] at hnext
    exact ⟨_, hnext, rfl, rfl, rfl, rfl⟩
  · have hnext := exec_batteryModeAlarm_of_fires ⟨hdark, hpow, hbat, hfired, hquiet⟩
    rwa [Guard.answer_of_ignore (g := s.guard.firing m raw) _ hl] at hnext
  · obtain ⟨hdark, -, -, hfired, hquiet⟩ := hf
    simp [hdark, hfired, hquiet] at h

end Sys2Proof.Machine
end
